-- ==== Sys2Proof/Word.lean ====
section
/-!
DEFINITION. The word types of the model: bytes and byte strings, as the frames, registers and memory images
of the part carry them (R4, R5).
-/
namespace Sys2Proof

/-- One byte of a frame, a register or a memory image. -/
abbrev Byte := BitVec 8

/-- A byte string, the byte at the lowest offset first (R4). -/
abbrev Bytes := List Byte

/-- A 32-bit register word of the direct register window (R46). -/
abbrev Word := BitVec 32

end Sys2Proof
end

