-- ==== Sys2Proof/Entries.lean ====
section
/-!
DEFINITION. The data that commands carry and that the state keeps in the shape the spec's layout tables give it:
request headers, signatures, frames received, and the sections of a configuration image. An entry whose bytes the
spec lays out stays a byte string in that layout; the fields are read by the accessors of Machine/Layout.lean.
-/
namespace Sys2Proof

/-- The header of a mailbox request as the part has read it (frame header table, R59 to R67). -/
structure Req where
  /-- channel 0 to 3 -/
  ch : Nat
  /-- TAG, 0 to 31 -/
  tag : Nat := 0
  /-- SEQUENCE, 32 bits -/
  seq : Nat := 0
  /-- WORLD: 0 normal, 1 secure -/
  world : Nat := 0
  /-- CRED_HANDLE, 0 for none -/
  handle : Nat := 0
  /-- whether CRED_AUTH is the authenticator of this frame under the handle's session key (R60) -/
  auth : Bool := true
  /-- FLAGS.RETRY (R67) -/
  retry : Bool := false
deriving DecidableEq, Repr, Inhabited

/-- A digital signature, by what it was made with and over (log entry 5): it verifies under a public key for a
message exactly when both are these. -/
structure Sig where
  /-- the public key that verifies it -/
  key : Bytes
  /-- the message it signs -/
  msg : Bytes
  /-- its length in bytes -/
  len : Nat := 1280
deriving DecidableEq, Repr, Inhabited

/-- A life-cycle transition token (R93). -/
structure Token where
  target : Nat
  identity : Bytes
  nonce : Bytes
  /-- the owner public key named by the token of PROVISIONED to INTEGRATION (R92) -/
  ownerKey : Bytes
  sig : Sig
deriving DecidableEq, Repr, Inhabited

/-- An X.509 certificate as the chain checks of R227, R472 and R473 read it; the times are seconds since 1970. -/
structure Cert where
  raw : Bytes
  /-- the public key it certifies -/
  key : Bytes
  /-- the issuer's signature over `raw` -/
  sig : Sig
  notBefore : Int := 0
  notAfter : Int := 0
deriving DecidableEq, Repr, Inhabited

/-- The attribute bytes of a key command (R478). -/
structure KeyAttr where
  alg : Nat
  usage : Nat
  masters : Nat
  world : Nat
  lifecycles : Nat
  flags : Nat
deriving DecidableEq, Repr, Inhabited

/-- The cipher suites, key exchanges and signature algorithms of a TLS handshake as R57 tells them apart. -/
inductive CipherSuite where
  | aes256GcmSha384
  | aes128GcmSha256
  | other
deriving DecidableEq, Repr, Inhabited

inductive KeyExchange where
  | x448
  | secp384r1
  | other
deriving DecidableEq, Repr, Inhabited

inductive SigAlg where
  | ecdsaSecp384r1Sha384
  | ed448
  | other
deriving DecidableEq, Repr, Inhabited

/-- What a client brings to the TLS handshake of a mailbox connection (R57, R472). -/
structure TlsOffer where
  /-- the version agreed: 12 or 13 -/
  version : Nat := 13
  suites : List CipherSuite := []
  exchanges : List KeyExchange := []
  /-- signature algorithms it accepts from Drinov -/
  accepts : List SigAlg := []
  /-- the signature by which it authenticates, and the public key of its certificate or raw public key -/
  clientSig : SigAlg := .other
  clientKey : Bytes := []
  /-- its certificate; none where it presents a raw public key -/
  clientCert : Option Cert := none
deriving DecidableEq, Repr, Inhabited

/-- A TCP connection that asks for a mailbox channel (R56 to R58). -/
structure Connection where
  /-- interface it comes on: 0 ETH0, 1 ETH1 -/
  eth : Nat := 0
  port : Nat := 50820
  /-- the destination address, 4 bytes of IPv4 or 16 of IPv6 -/
  address : Bytes := []
  /-- VID of its frames, 0 for untagged -/
  vid : Nat := 0
  /-- none for plain TCP -/
  tls : Option TlsOffer := none
deriving DecidableEq, Repr, Inhabited

/-- What the self-test of R82 found, item by item; `true` is passed. -/
structure SelfTest where
  crossCompare : Bool := true
  loadWatchdog : Bool := true
  darkTests : Bool := true
  knownAnswer : Bool := true
  microcode : Bool := true
  metrology : Bool := true
  lifecycleTags : Bool := true
deriving DecidableEq, Repr, Inhabited

/-- Spoke-line section of the configuration image (chapter 12). -/
structure SpokeCfg where
  network : Nat := 0
  guest : Bool := false
  conductor : Nat := 0
  slotPhase : Nat := 200
  swLen : Nat := 10
  tmMargin : Nat := 6
  txAtten : Nat := 0
  notches : List (Nat × Nat) := []
  retryMax : Nat := 8
  missMax : Nat := 3
  keySlot : Nat := 8
  islandVid : Nat := 1
  bridgeVid : Nat := 0
deriving DecidableEq, Repr, Inhabited

/-- Chainring section of the configuration image (chapter 07). -/
structure ChainCfg where
  tick : Nat := 50
  enabled : List Bool := [false, false]
  slots : List Nat := [0, 0]
  lengthM : List Nat := [150, 150]
deriving DecidableEq, Repr, Inhabited

/-- Site entry of the allocation section (chapter 05), kW; none where the image does not give a value, whose default then
stands (Machine/Layout.lean). -/
structure SiteCfg where
  contractImport : Option Nat := none
  contractExport : Option Nat := none
  fallbackImport : Option Nat := none
  fallbackExport : Option Nat := none
  feederLimit : List (Option Nat) := [none, none]
  nominal : Nat := 50
  maxOther : Nat := 1000
  releaseDelay : Nat := 10
  headroom : Option Nat := none
deriving DecidableEq, Repr, Inhabited

/-- Stack header of the stack section (chapter 16). -/
structure StackCfg where
  companions : List Nat := [0, 0]
  filter : List Nat := [5, 5]
  ovTrip : Nat := 4300
  uvTrip : Nat := 2500
  balTmax : Nat := 85
  flpFilter : Nat := 4
  bufPairs : List Nat := [0, 0]
deriving DecidableEq, Repr, Inhabited

/-- A configuration image: its header (R476) and its sections. -/
structure ConfigImage where
  /-- ROLE code the image was compiled for (R14, R85) -/
  role : Nat := 0
  /-- generation, 32 bits (R85) -/
  generation : Nat := 0
  /-- signature over the header (R476) -/
  sig : Sig := default
  /-- public key that certified the signing key (R476) -/
  issuer : Bytes := []
  /-- body length in the header (R476) -/
  length : Nat := 0
  /-- SHAKE256 digest of the body in the header (R476) -/
  digest : Bytes := []
  /-- whether the body's digest is the one in the header (R476) -/
  digestOk : Bool := true
  /-- binding of each channel: 0 quad-SPI, 1 ETH0, 2 ETH1, 3 unbound (R56) -/
  binding : List Nat := [0, 0, 0, 0]
  /-- VID of the Ethernet frames of each channel's binding, 0 for untagged (R213; log entry 36) -/
  bindingVid : List Nat := [0, 0, 0, 0]
  /-- plain TCP enabled (R57) -/
  plainTcp : Bool := false
  /-- configured IPv4 and IPv6 addresses of ETH0 and ETH1 (R56) -/
  ethAddresses : List (List Bytes) := [[], []]
  spoke : SpokeCfg := {}
  chain : ChainCfg := {}
  site : SiteCfg := {}
  /-- ring-position entries, 16 bytes each (R130) -/
  positions : List Bytes := []
  /-- outlet entries, 16 bytes each (R130) -/
  outlets : List Bytes := []
  /-- the 256 rules, 32 bytes each (R126) -/
  rules : List Bytes := []
  /-- group descriptors, 64 bytes each (R151) -/
  groups : List Bytes := []
  /-- loop descriptors, 4,096 bytes each (R147) -/
  loops : List Bytes := []
  /-- vehicle-link entries, 32 bytes each (R217) -/
  links : List Bytes := []
  /-- session entries, 32 bytes each (R225) -/
  sessions : List Bytes := []
  /-- thermal input entries, 16 bytes each (R251) -/
  tins : List Bytes := []
  /-- frequency input entries, 8 bytes each (R251) -/
  fins : List Bytes := []
  /-- threshold entries, 16 bytes each (R254) -/
  thresholds : List Bytes := []
  /-- outlet thermal entries, 32 bytes each (R257) -/
  thermal : List Bytes := []
  /-- DIE_HYST, K (R267) -/
  dieHyst : Nat := 3
  /-- load channel entries, 16 bytes each (R417) -/
  loads : List Bytes := []
  /-- PWM generator entries, 8 bytes each (R417) -/
  gens : List Bytes := []
  stack : StackCfg := {}
  /-- string entries, 32 bytes each (R453) -/
  strings : List Bytes := []
  /-- RATE_MAX (R496) -/
  rateMax : Nat := 32
  /-- rate-limit entries, 8 bytes each (R490) -/
  limits : List Bytes := []
  /-- SHARE_m of the peloton members, per mille (R515) -/
  shares : List Nat := [0, 0, 0, 0]
  /-- SHAKE256 digest of the allocation, Cadence, Chainring, stack and Spoke-line sections (R508) -/
  sharedDigest : Bytes := []
  /-- issue cycles of other epoch-class work the image declares (R42) -/
  otherEpochCycles : Nat := 0
deriving DecidableEq, Repr, Inhabited

/-- A firmware image as its header tells it (R474). -/
structure FwImage where
  magicOk : Bool := false
  version : Nat := 0
  fwCtr : Nat := 0
  legalCtr : Nat := 0
  /-- the body's digest is the one in the header -/
  digestOk : Bool := false
  /-- SHAKE256 digest of the body -/
  digest : Bytes := []
  /-- public key of the signer certificate -/
  signer : Bytes := []
  /-- the signer certificate's USAGE; 0x40 is firmware signing -/
  signerUsage : Nat := 0
  /-- the key that signed the signer certificate -/
  signerIssuer : Bytes := []
  /-- signature over the header -/
  sig : Sig := default
  /-- header bytes that precede the signature -/
  headerBytes : Bytes := []
  /-- digest of the metrology section (R308) -/
  legalDigest : Bytes := []
  /-- version of the legally relevant software (R308) -/
  legalVersion : List Nat := [0, 0, 0]
  /-- signature over the metrology digest (R308, R474) -/
  legalSig : Sig := default
  /-- interface revision of this firmware (R48) -/
  ifMajor : Nat := 1
  ifMinor : Nat := 0
deriving DecidableEq, Repr, Inhabited

/-- A symbol of a Chainring line (R172): a byte, one of the three special code groups, or a group with a code error. -/
inductive RingSymbol where
  | data (b : Byte)
  /-- the idle comma -/
  | k28_5
  /-- the last symbol of the start sequence -/
  | k27_7
  /-- the end delimiter -/
  | k29_7
  | codeError
deriving DecidableEq, Repr, Inhabited

/-- A beacon as received (R341). -/
structure Beacon where
  network : Nat
  src : Nat
  period : Nat
  bpUs : Nat
  authGen : Nat
  nominal : Nat := 50
  freeRun : Bool := false
  takeover : Bool := false
  slotPhase : Nat
  cfEnd : Nat
  swStart : Nat
  /-- slot map: node, hub slot, network, joined this period -/
  slotMap : List (Nat × Bool × Nat × Bool)
  /-- join answers: identity prefix, node number, result -/
  answers : List (Bytes × Nat × Nat)
deriving DecidableEq, Repr, Inhabited

/-- A slot payload, or its ETH0 form, as it arrives (R332, R344, R351): PERIOD under which it was sealed, burst header,
encrypted payload, tag. -/
structure SlotMsg where
  period : Nat
  head : Bytes
  text : Bytes
  tag : Bytes
deriving DecidableEq, Repr, Inhabited

/-- What the medium does while a node contends (R335): time of the end of PR1 after the origin in us, whether a signal is
heard in PR0 and in PR1, and the idle symbols that then follow. -/
structure Access where
  time : Nat
  pr0 : Bool := false
  pr1 : Bool := false
  idle : Nat
deriving DecidableEq, Repr, Inhabited

/-- A join request (R346). -/
structure JoinReq where
  identity : Bytes
  role : Nat
  post : Nat
  network : Nat
  ifMajor : Nat
  period : Nat
deriving DecidableEq, Repr, Inhabited

/-- A data burst as it comes from the line (R321, R326, R344): PERIOD under which it was sealed, burst header, per code word
the 540 bytes of its segment as sealed, none where it could not be decoded. -/
structure Burst where
  period : Nat
  head : Bytes
  words : List (Option Bytes)
  /-- received energy of each symbol, from the first preamble symbol on (R321) -/
  energy : List Nat := []
  /-- SNR measured on each of carriers 82 to 1,131 over the symbols that are no impulse symbols, 0.25 dB; 0 where inactive -/
  snr : List Int := []
deriving DecidableEq, Repr, Inhabited

/-- The reading of one load channel in a 1 ms evaluation (R421). -/
structure LoadReading where
  /-- 1 ms mean current, mA -/
  mean : Nat
  /-- channel sensor, 0.1 degC -/
  temp : Int
  /-- output voltage while off, 0.1 V -/
  vOut : Nat
deriving DecidableEq, Repr, Inhabited

/-- What a 10BASE-T1S PHY reports (R212). -/
inductive T1sEvent where
  | valid
  | receiveError
  | collision
  | jabber
  | selfCheckFailed
deriving DecidableEq, Repr, Inhabited

/-- An energy or other service that a vehicle asks for (R215, R216). -/
inductive VehicleService where
  | dc
  | dcBpt
  | dcAcdp
  | dcAcdpBpt
  | ac
  | acBpt
  | wpt
  | valueAdded
  | certificateInstallation
  | certificateUpdate
deriving DecidableEq, Repr, Inhabited

/-- The cipher suites, groups and signatures of a vehicle's TLS handshake as R245 tells them apart. -/
inductive VehicleSuite where
  | ecdheAes128CbcSha256
  | ecdhAes128CbcSha256
  | aes256GcmSha384
  | other
deriving DecidableEq, Repr, Inhabited

inductive VehicleGroup where
  | secp256r1
  | x448
  | secp521r1
  | other
deriving DecidableEq, Repr, Inhabited

inductive VehicleSig where
  | ecdsaSecp256r1
  | ecdsaSecp521r1Sha512
  | ed448
  | other
deriving DecidableEq, Repr, Inhabited

/-- What a vehicle brings to the TLS handshake of an outlet (R245); the version is 0x0303 for TLS 1.2, 0x0304 for TLS 1.3. -/
structure VehicleTls where
  version : Nat
  suites : List VehicleSuite
  groups : List VehicleGroup
  sigs : List VehicleSig
deriving DecidableEq, Repr, Inhabited

/-- What a vehicle sends in its charge loop (R224, R236, R238). -/
structure VehicleLoop where
  iTarget : Nat
  iMax : Nat
  vMax : Nat
  pMax : Nat
  /-- 0xFFFF for none -/
  pSched : Nat
  pDisch : Nat
  /-- seconds to departure, 0xFFFF_FFFF for none -/
  departS : Nat
  bidirectional : Bool
deriving DecidableEq, Repr, Inhabited

/-- One companion of an enumeration or READ_INFO pass (R439, R440). -/
structure Companion where
  position : Nat
  serial : Nat
  balMask : Nat := 0
  conflict : Bool := false
deriving DecidableEq, Repr, Inhabited

end Sys2Proof
end

