-- ==== Sys2Proof/Config.lean ====
section
/-!
DEFINITION. What the spec leaves open or names without stating its computation. Every constant here is opaque:
no proof can see a value of it, so a claim that mentions one holds whatever it is. The published algorithms are
named by the spec (R59 states the CRC in full, which is therefore computed, not listed here) and stand as
uninterpreted functions of their operands (log entry 3); fresh random values stand as functions of a counter
that the state holds (log entry 4).
-/
namespace Sys2Proof.Config

/-- SHAKE256 of a byte string, first `n` bytes (R462 and others; FIPS 202 is not restated in the spec). -/
opaque shake256 : Bytes → Nat → Bytes

/-- KMAC256 under a key with a customisation string (R60, R459; NIST SP 800-185). -/
opaque kmac256 : Bytes → Bytes → Bytes → Bytes

/-- AES-GCM-128 tag of additional data and text under a key and nonce, first 8 bytes (R344, R399). -/
opaque gcmTag : Bytes → Bytes → Bytes → Bytes

/-- The AES-GCM-128 key stream that encrypts a text of `n` bytes under a key and nonce (R344). -/
opaque gcmStream : Bytes → Bytes → Nat → Bytes

/-- The coded bits of a code word: rate (0 1/2, 1 2/3, 2 5/6) and information bytes (R323 names the LDPC codes of ITU-T G.9960
and restates none). -/
opaque ldpc : Nat → Bytes → List Bool

/-- AES-256-GCM wrapping of key material under a session key (R465). -/
opaque wrap : Bytes → Bytes → Bytes

/-- AES-256-GCM unwrapping of imported material under a session key (R478). -/
opaque unwrap : Bytes → Bytes → Bytes

/-- X448 agreement of a device ephemeral (named by a fresh number) with a host public key (R470). -/
opaque x448 : Nat → Bytes → Bytes

/-- A signature by the private material of a slot of algorithm `alg` over a byte string (R300, R301, R466). -/
opaque sign : Nat → Bytes → Bytes → Bytes

/-- The public part of key material of algorithm `alg` (the note under the table of algorithms). -/
opaque publicPart : Nat → Bytes → Bytes

/-- Key material that the key engine generates: a function of the algorithm and a fresh number (R461). -/
opaque freshKey : Nat → Nat → Bytes

/-- The material of a derived child from its 64-byte seed, for the algorithms whose forming the spec leaves to
a standard (ECDSA reduction and Falcon key generation, R467). -/
opaque childMaterial : Nat → Bytes → Bytes

/-- The public key of an X.509 certificate as DER, by which a trust anchor verifies (table of algorithms; R227, R472). -/
opaque certKey : Bytes → Bytes

/-- The 48 bits that the MAC address of an outlet's link takes from the device identity digest and the outlet slot (R214 does
not state the derivation). -/
opaque vehicleMac : Bytes → Nat → Bytes

/-- The natural logarithm of a ratio of two resistances, times 10^9 (R249: the conversion of an NTC). -/
opaque lnNano : Nat → Nat → Int

/-- Fresh random bytes: draw number and length (nonces, salts, ports and keys of R93, R209, R214, R407, R494). -/
opaque freshBytes : Nat → Nat → Bytes

/-- A fresh random number below a bound: draw number and bound (credential handles R60, back-off R335). -/
opaque freshNat : Nat → Nat → Nat

/-- A measured value of which the spec states no figure (diagnostic readings the environment did not give). -/
opaque freeInt : Nat → Int

/-- The carriers that EN 50561-1 permanently excludes (R319 names the standard and lists none). -/
opaque excludedCarrier : Nat → Bool

/-- The record code of a record that the spec names and gives no code: opcode group and ordinal (log entry 23). -/
opaque recordCode : Nat → Nat → Nat

/-- What a signature string verifies as: the public key and the message it was made with (log entry 5). -/
opaque sigOf : Bytes → Sig

/-- The fields of a transition token (R93 names them and gives no layout). -/
opaque tokenOf : Bytes → Token

/-- The fields of a firmware image slot's contents (R474 names them and gives no offsets, log entry 6). -/
opaque parseFirmware : List (Nat × Byte) → FwImage

/-- The fields of a configuration image slot's contents (R476, log entry 6). -/
opaque parseConfig : List (Nat × Byte) → ConfigImage

/-- The hardware-unique key of the part (R458). -/
opaque huk : Bytes

/-- Whether the firewall refuses an engine an access to a range of MRAM or NOR of which R39 does not name the engines. -/
opaque firewallRefuses : Nat → Nat → Bool → Bool

/-- The serial number of the part, as it stands in its certificate and on its lid (R522). -/
opaque serial : Nat

/-- The certificates of the boot manifest (R473): 0 device, 1 attestation. -/
opaque certificate : Nat → Bytes

end Sys2Proof.Config
end

