-- ==== Sys2Proof/Machine/Bits.lean ====
section
/-!
DEFINITION. Byte order, fixed-point rounding, checksums and list access: the small computations that every
other file shares (R4, R5, R59, R144, R175).
-/
namespace Sys2Proof.Machine

/-! ### Lists of a fixed number of like things -/

/-- Element `i` of a list, or the default where there is none. -/
def nth {α : Type} [Inhabited α] (l : List α) (i : Nat) : α := l.getD i default

/-- The list with element `i` changed by `f`; unchanged where there is no element `i`. -/
def upd {α : Type} (l : List α) (i : Nat) (f : α → α) : List α := l.modify i f

/-- The indexes at which a predicate holds, ascending. -/
def indexes {α : Type} (l : List α) (p : α → Bool) : List Nat :=
  (l.zipIdx.filter fun x => p x.1).map (·.2)

/-! ### Bytes (R4, R5) -/

/-- A number as one byte, its low eight bits. -/
def u8 (n : Nat) : Bytes := [BitVec.ofNat 8 n]

/-- A number in `k` bytes, least significant first (R4). -/
def uLE : Nat → Nat → Bytes
  | 0, _ => []
  | k + 1, n => BitVec.ofNat 8 n :: uLE k (n / 256)

/-- A number in two bytes, little-endian (R4). -/
def u16 (n : Nat) : Bytes := uLE 2 n

/-- A number in four bytes, little-endian (R4). -/
def u32 (n : Nat) : Bytes := uLE 4 n

/-- A number in six bytes, little-endian (R4). -/
def u48 (n : Nat) : Bytes := uLE 6 n

/-- A number in eight bytes, little-endian (R4). -/
def u64 (n : Nat) : Bytes := uLE 8 n

/-- A signed number in two bytes, two's complement, little-endian. -/
def i16 (n : Int) : Bytes := u16 ((n % 65536).toNat)

/-- A signed number in four bytes, two's complement, little-endian. -/
def i32 (n : Int) : Bytes := u32 ((n % 4294967296).toNat)

/-- A signed number in eight bytes, two's complement, little-endian. -/
def i64 (n : Int) : Bytes := u64 ((n % 18446744073709551616).toNat)

/-- A flag as one byte. -/
def uFlag (b : Bool) : Bytes := u8 (if b then 1 else 0)

/-- The value of a little-endian byte string (R4). -/
def leNat : Bytes → Nat
  | [] => 0
  | b :: bs => b.toNat + 256 * leNat bs

/-- The `len` bytes at offset `off`, padded with zero bytes where the string is shorter. -/
def slice (b : Bytes) (off len : Nat) : Bytes :=
  let t := (b.drop off).take len
  t ++ List.replicate (len - t.length) 0#8

/-- Byte field at an offset. -/
def g8 (b : Bytes) (off : Nat) : Nat := (b.getD off 0#8).toNat

/-- 16-bit field at an offset. -/
def g16 (b : Bytes) (off : Nat) : Nat := leNat (slice b off 2)

/-- 32-bit field at an offset. -/
def g32 (b : Bytes) (off : Nat) : Nat := leNat (slice b off 4)

/-- 64-bit field at an offset. -/
def g64 (b : Bytes) (off : Nat) : Nat := leNat (slice b off 8)

/-- A value of `bits` bits read as two's complement. -/
def signed (bits n : Nat) : Int := if 2 * n < 2 ^ bits then (n : Int) else (n : Int) - (2 ^ bits : Nat)

/-- Signed 8-bit field at an offset. -/
def gi8 (b : Bytes) (off : Nat) : Int := signed 8 (g8 b off)

/-- Signed 16-bit field at an offset. -/
def gi16 (b : Bytes) (off : Nat) : Int := signed 16 (g16 b off)

/-- Signed 32-bit field at an offset. -/
def gi32 (b : Bytes) (off : Nat) : Int := signed 32 (g32 b off)

/-- Signed 64-bit field at an offset. -/
def gi64 (b : Bytes) (off : Nat) : Int := signed 64 (g64 b off)

/-- Bit `i` of a number. -/
def bit (n i : Nat) : Bool := n.testBit i

/-- The bits [lo + width - 1 : lo] of a number. -/
def field (n lo width : Nat) : Nat := n / 2 ^ lo % 2 ^ width

/-- The members of a bit mask below `width`, ascending. -/
def maskList (mask width : Nat) : List Nat := (List.range width).filter fun i => mask.testBit i

/-- The bit mask of a list of members. -/
def maskOf (l : List Nat) : Nat := l.foldl (fun m i => m ||| 2 ^ i) 0

/-- The text of an ASCII string as bytes. -/
def ascii (t : String) : Bytes := t.toList.map fun c => BitVec.ofNat 8 c.toNat

/-- All bytes zero. -/
def allZero (b : Bytes) : Bool := b.all (· == 0#8)

/-! ### Numbers that saturate (R541, R144) -/

/-- An age in 16 bits, which saturates at 0xFFFF (R541). -/
def age16 (n : Nat) : Nat := min n 65535

/-- An age in 32 bits, which saturates at 0xFFFF_FFFF (R541). -/
def age32 (n : Nat) : Nat := min n 4294967295

/-- Clamping to a range. -/
def clampI (lo hi x : Int) : Int := max lo (min hi x)

/-- Rounding to nearest with ties toward plus infinity, by a right shift of `s` bits (R144). -/
def roundShift (x : Int) (s : Nat) : Int := if s = 0 then x else (x + 2 ^ (s - 1)) / 2 ^ s

/-- Rounding of a quotient to nearest, ties toward plus infinity (R144 for divisors that are no power of two). -/
def roundDiv (x d : Int) : Int := (2 * x + d) / (2 * d)

/-! ### Checksums (R59, R175) -/

/-- One bit of the reflected CRC-32C division. -/
def crcBit (c : BitVec 32) : BitVec 32 :=
  if c.getLsbD 0 then (c >>> 1) ^^^ 0x82F63B78#32 else c >>> 1

/-- One byte of the reflected CRC-32C division. -/
def crcByte (c : BitVec 32) (b : Byte) : BitVec 32 :=
  crcBit (crcBit (crcBit (crcBit (crcBit (crcBit (crcBit (crcBit (c ^^^ b.zeroExtend 32))))))))

/-- CRC-32C: polynomial 0x1EDC_6F41 processed reflected, initial value and final exclusive-OR 0xFFFF_FFFF (R59). -/
def crc32c (b : Bytes) : Nat := ((b.foldl crcByte 0xFFFFFFFF#32) ^^^ 0xFFFFFFFF#32).toNat

/-- One bit of the CRC-16 division. -/
def crc16Bit (c : BitVec 16) : BitVec 16 :=
  if c.getLsbD 15 then (c <<< 1) ^^^ 0x1021#16 else c <<< 1

/-- One byte of the CRC-16 division. -/
def crc16Byte (c : BitVec 16) (b : Byte) : BitVec 16 :=
  crc16Bit (crc16Bit (crc16Bit (crc16Bit (crc16Bit (crc16Bit (crc16Bit (crc16Bit
    (c ^^^ (b.zeroExtend 16 <<< 8)))))))))

/-- CRC-16 with polynomial 0x1021, initial value 0xFFFF, no reflection, no final exclusive-OR (R175). -/
def crc16 (b : Bytes) : Nat := (b.foldl crc16Byte 0xFFFF#16).toNat

/-! ### Sequence comparison (R61, R181, R224) -/

/-- `a` is ahead of `b` modulo 2^`bits` by less than half the range. -/
def newer (bits a b : Nat) : Bool :=
  let d := (a + 2 ^ bits - b % 2 ^ bits) % 2 ^ bits
  1 ≤ d && 2 * d < 2 ^ bits

end Sys2Proof.Machine
end

