-- ==== Sys2Proof/Machine/TypesHub.lean ====
section
/-!
DEFINITION. State of the hub functions: Chainring (chapter 07), Cadence engine (06) and Derailleur (05). Each field's
note reads: what it is | width | rule | value at reset. Ring positions are numbered 0 to 47: 24 x ring + position - 1.
-/
namespace Sys2Proof.Machine

/-! ### Chainring -/

/-- One outbound slot as the fabric writes it (outbound slot table). -/
structure Ref where
  refI : Nat := 0
  vCeil : Nat := 65535
  dir : Bool := false
  enable : Bool := false
  mtxValid : Bool := false
  mtxClose : Bool := false
  mtxOutlet : Nat := 0
  mtxSeq : Nat := 0
deriving DecidableEq, Repr, Inhabited

/-- A stage as the hub supervises it (R187, R188). -/
structure Stage where
  /-- 0 unconfigured, 1 absent, 2 counting, 3 present, 4 lost | 8 bits | R191 | 0 -/
  state : Nat := 0
  /-- clean run | 8 bits | R188, R191 | 0 -/
  clean : Nat := 0
  /-- consecutive unclean slots | count | R187 | 0 -/
  unclean : Nat := 0
  /-- unclean slots | 32 bits | R191 | 0 -/
  total : Nat := 0
  /-- ticks since the last clean slot; none if there was none | 32 bits | R191, R541 | none -/
  since : Option Nat := none
  /-- last clean inbound slot | 16 bytes | R187, R191 | zeros -/
  slot : Bytes := List.replicate 16 0
deriving DecidableEq, Repr, Inhabited

/-- One ring. -/
structure Ring where
  /-- the ring has been started by this boot | 1 bit | R180 | 0 -/
  running : Bool := false
  /-- off the ring under R182 | 1 bit | R182 | 0 -/
  off : Bool := false
  /-- declared broken | 1 bit | R189 | 0 -/
  broken : Bool := false
  /-- TICK_SEQ of the last frame launched, or received as standby | 32 bits | R173 | 0 -/
  tickSeq : Nat := 0
  /-- frame last launched: header, outbound block, OUT_CRC, zero inbound block; empty before the first | 20 + 24 N bytes | R173, R178 | none -/
  frame : Bytes := []
  /-- MASTER_ID of the last good frame received as standby | 8 bits | R191 | 0 -/
  heard : Nat := 0
  /-- FLAGS.TAKEOVER of the next frame | 1 bit | R180, R511 | 0 -/
  takeover : Bool := false
  /-- new records have been written since the last launch | 1 bit | R28, R29 | 0 -/
  written : Bool := false
  /-- consecutive frames that failed to return | count | R189 | 0 -/
  failRun : Nat := 0
  /-- returns failed | 32 bits | R191 | 0 -/
  failed : Nat := 0
  /-- breaks | 32 bits | R191 | 0 -/
  breaks : Nat := 0
  /-- foreign frames | 32 bits | R191 | 0 -/
  foreign : Nat := 0
deriving DecidableEq, Repr, Inhabited

/-- The Chainring. -/
structure Chainring where
  /-- CHR0 and CHR1 | - | R171 | stopped -/
  rings : List Ring := [{}, {}]
  /-- stages of the 48 ring positions | - | R187 | unconfigured -/
  stages : List Stage := List.replicate 48 {}
  /-- pending outbound slots, as last written by the fabric | 48 slots | R28, R178 | zero references -/
  next : List Ref := List.replicate 48 {}
  /-- outbound slots in the frame last launched | 48 slots | R178 | zero references -/
  sent : List Ref := List.replicate 48 {}
  /-- AUTH_GEN in force, or as received by a part that listens | 16 bits | R180, R191 | 0 -/
  authGen : Nat := 0
deriving DecidableEq, Repr

/-! ### Cadence engine -/

/-- A control loop in service, its descriptor taken apart (R140, R147). Matrices hold their configured rows and
columns only; every element is a Q3.28 pattern. -/
structure Loop where
  /-- descriptor bytes in service; empty where unused | 4,096 bytes | R147 | the image's, else empty -/
  desc : Bytes := []
  group : Nat := 0
  n : Nat := 0
  m : Nat := 0
  p : Nat := 0
  q : Nat := 0
  sel : Nat := 0
  enabled : Bool := false
  /-- input bindings: source, exponent, mantissa -/
  inp : List (Nat × Int × Int) := []
  /-- output destinations -/
  out : List Nat := []
  a : List (List Int) := []
  b : List (List Int) := []
  c : List (List Int) := []
  l : List (List Int) := []
  k : List (List Int) := []
  r : List (List Int) := []
  t : List Int := []
  x0 : List Int := []
  /-- state x | n x Q3.28 | R140 | X0 (R169) -/
  x : List Int := []
  /-- outputs u of the last tick | m x Q3.28 | R168 | 0 -/
  u : List Int := []
  /-- ACC_SAT, STATE_SAT, OUT_SAT, SEL_SAT, OVERRUN | 5 bits | R146 | 0 -/
  flags : Nat := 0
  /-- flags whose condition has held in the present tick | 5 bits | R146 | 0 -/
  fresh : Nat := 0
  /-- ticks won | 32 bits | R168 | 0 -/
  won : Nat := 0
deriving DecidableEq, Repr, Inhabited

/-- A competition group in service (R151 to R164). -/
structure Group where
  /-- descriptor bytes in service; empty where unused | 64 bytes | R151 | the image's, else empty -/
  desc : Bytes := []
  /-- direction mode: 0 charging, 1 export | 1 bit | R159 | 0 -/
  mode : Nat := 0
  /-- in hold | 1 bit | R159 | 0 -/
  hold : Bool := false
  /-- hold timer, us; none while not started | - | R159 | none -/
  holdUs : Option Nat := none
  /-- a hold has completed and the Derailleur has not latched it | 1 bit | R159 | 0 -/
  holdDone : Bool := false
  /-- a category 1 stop is demanded by the safety cores | 1 bit | R162 | 0 -/
  stopDemand : Bool := false
  /-- stop ramp value while active | Q3.28 | R162 | none -/
  stop : Option Int := none
  /-- "at zero" reported to the safety cores | 1 bit | R162 | 0 -/
  atZero : Bool := false
  /-- group Kickstand | 1 bit | R164 | 0 -/
  kick : Bool := false
  /-- g(k-1), the output applied | Q3.28 | R154 | 0 -/
  g : Int := 0
  /-- winner: loop 0 to 63, 0x40 zero, 0x41 stop, 0x42 ceiling, 0x43 capacity | 8 bits | R168 | DESIGN CHOICE 0x40 (log entry 8) -/
  winner : Nat := 0x40
  /-- ceiling competitor of the last tick | Q3.28 | R168 | 0 -/
  ceil : Int := 0
  /-- capacity competitor of the last tick | Q3.28 | R168 | 0 -/
  cap : Int := 0
  /-- ring positions in the split | - | R156 | none -/
  split : List Nat := []
  /-- overrun count | 32 bits | R163, R168 | 0 -/
  overruns : Nat := 0
  /-- consecutive overruns | count | R164 | 0 -/
  overRun : Nat := 0
  /-- tick count | 64 bits | R168 | 0 -/
  ticks : Nat := 0
  /-- the loops restart from X0 with g(k-1) = 0 at the next tick | 1 bit | R164, R169 | 0 -/
  restart : Bool := false
  /-- duty of a SINK 2 group, in 1/1,024 | 11 bits | R158 | 0 -/
  duty : Nat := 0
  /-- outputs written and not launched: destination and value, with the duty of a SINK 2 group | - | R28, R150, R158 | none -/
  pend : List (Nat × Int) := []
  pendDuty : Nat := 0
  /-- voltage ceiling bound by a loop | Q3.28 or none | R150, R176 | none -/
  vCeil : Option Int := none
  /-- the group has written its record since the last launch | 1 bit | R28, R503 | 0 -/
  fresh : Bool := false
  /-- a committed descriptor set waits for the next epoch boundary: group and its loops | - | R169 | none -/
  commit : Option (Bytes × List (Nat × Bytes)) := none
deriving DecidableEq, Repr, Inhabited

/-- The Cadence engine. -/
structure Cadence where
  /-- the 64 loops | - | R147 | unused -/
  loops : List Loop := List.replicate 64 {}
  /-- the 16 groups | - | R151 | unused -/
  groups : List Group := List.replicate 16 {}
  /-- staging copies of the loop descriptors | 64 x 4,096 bytes | R169 | the image's, else empty -/
  stageLoops : List Bytes := List.replicate 64 []
  /-- staging copies of the group descriptors | 16 x 64 bytes | R169 | the image's, else empty -/
  stageGroups : List Bytes := List.replicate 16 []
  /-- host references | 32 x signed 32 bits | R149 | 0 -/
  refs : List Int := List.replicate 32 0
  /-- export slots | 16 x Q3.28 | R149, R257 | 0 -/
  exports : List Int := List.replicate 16 0
deriving DecidableEq, Repr

/-! ### Derailleur -/

/-- What the Derailleur holds of one outlet (R110, R116 to R120). -/
structure OutletIn where
  /-- latest outlet request | 32 bytes | R110 | zeros -/
  req : Bytes := List.replicate 32 0
  /-- age of the request in epochs; none if there was none | - | R110, R541 | none -/
  age : Option Nat := none
  /-- a session is in energy transfer | 1 bit | R120, R223 | 0 -/
  session : Bool := false
  /-- epoch at which the session began | 64 bits | R120 | 0 -/
  start : Nat := 0
  /-- class set by the host for the running session | 0 to 7 or none | R110, R138 | none -/
  cls : Option Nat := none
  /-- deadline in operating seconds | 64 bits or none | R117 | none -/
  deadline : Option Nat := none
  /-- direction granted, 0 charging, 1 export | 1 bit | R118 | 0 -/
  dir : Nat := 0
  /-- a direction change is pending | 1 bit | R118 | 0 -/
  change : Bool := false
  /-- the post is lost | 1 bit | R136 | 0 -/
  lost : Bool := false
  /-- the joined post may be admitted from the next epoch | 1 bit | R347 | 0 -/
  joined : Bool := false
  /-- epochs for which the outlet has held more stages than its aim; none otherwise | - | R134 | none -/
  surplusEp : Option Nat := none
deriving DecidableEq, Repr, Inhabited

/-- A grant as computed and as launched (R124, R125). -/
structure Grant where
  state : Nat := 0
  limit : Nat := 0
  cls : Nat := 0
  /-- power ceiling, kW -/
  p : Nat := 0
  /-- current ceiling, 0.1 A -/
  i : Nat := 0
  stages : Nat := 0
  dir : Nat := 0
  /-- vehicle target current, 0.1 A, and maximum voltage, 0.1 V, and thermal ceiling, 0.1 A (R149) -/
  iTarget : Nat := 0
  vMax : Nat := 0
  iTherm : Nat := 0
deriving DecidableEq, Repr, Inhabited

/-- Where the move of a stage stands (R132). -/
inductive MovePhase where
  /-- no move -/
  | idle
  /-- waiting for three frames at zero before the open -/
  | zero
  /-- zero confirmed, waiting for a switching window to open -/
  | openDue
  /-- open commanded -/
  | opening
  /-- open confirmed, waiting for a switching window to close -/
  | closeDue
  /-- close commanded -/
  | closing
deriving DecidableEq, Repr, Inhabited

/-- Assignment of one ring position (R131 to R135). -/
structure Assign where
  /-- outlet whose contact is closed as confirmed, 0 parked | 4 bits | R131 | 0 -/
  at_ : Nat := 0
  /-- outlet the stage is assigned or moving to, 0 parked | 4 bits | R131 | 0 -/
  dest : Nat := 0
  /-- phase of a move | - | R132 | idle -/
  phase : MovePhase := .idle
  /-- consecutive telemetry frames at or below 1 % of RATED_CURRENT | count | R131 | 0 -/
  zeroRun : Nat := 0
  /-- counted capacity, kW | 16 bits | R135 | 0 -/
  counted : Nat := 0
  /-- admitted to allocation | 1 bit | R135 | 0 -/
  admitted : Bool := false
  /-- reported clean and waiting for admission | 1 bit | R135, R188 | 0 -/
  ready : Bool := false
  /-- withdrawn by ALC_SET_STAGE_SERVICE | 1 bit | R135 | 0 -/
  withdrawn : Bool := false
  /-- move abandoned; needs ALC_SET_STAGE_SERVICE | 1 bit | R133 | 0 -/
  fault : Bool := false
  /-- epoch at which the last matrix operation started; none if there was none | 64 bits | R131, R541 | none -/
  lastOp : Option Nat := none
  /-- MTX_SEQ of the last operation commanded | 8 bits | R185 | 0 -/
  seq : Nat := 0
deriving DecidableEq, Repr, Inhabited

/-- The Derailleur. -/
structure Alc where
  /-- epoch count | 64 bits | R137 | 0 -/
  epoch : Nat := 0
  /-- G, P_other, A, reserve, buffer setpoint (positive discharge) of the last epoch, kW | 5 x signed 32 bits | R137 | 0 -/
  g : Int := 0
  pOther : Int := 0
  a : Int := 0
  reserve : Int := 0
  buffer : Int := 0
  /-- S_fr of the last epoch, W | signed 42 bits | R115, R137 | 0 -/
  sFr : Int := 0
  /-- over-frequency amount of R115, W | - | R115 | 0 -/
  sOver : Int := 0
  /-- buffer setpoint launched (positive discharge), kW | signed 32 bits | R123, R31 | 0 -/
  bufferOut : Int := 0
  /-- frequency latched, mHz | 32 bits | R137 | 0 -/
  freq : Nat := 0
  /-- late epochs | 32 bits | R137 | 0 -/
  late : Nat := 0
  /-- consecutive late epochs | count | R109 | 0 -/
  lateRun : Nat := 0
  /-- minima not all served in the present run of epochs | 1 bit | R120 | 0 -/
  short : Bool := false
  /-- frequency response active | 1 bit | R115 | 0 -/
  response : Bool := false
  /-- buffer in allocation | 1 bit | R137 | 0 -/
  bufferIn : Bool := false
  /-- host import and export limits with the epoch at which they end | - | R112 | none -/
  host : Option (Int × Int × Nat) := none
  /-- host limits accepted and not yet latched: import, export, validity in s | - | R107, R112 | none -/
  hostNew : Option (Int × Int × Nat) := none
  /-- age of the feeder power, the frequency and the buffer limits in epochs; none if there was none | - | R110, R541 | none -/
  feederAge : Option Nat := none
  freqAge : Option Nat := none
  bufferAge : Option Nat := none
  /-- feeder powers and frequency latched: kW per feeder | 2 x signed 32 bits | R110 | 0 -/
  feeders : List Int := [0, 0]
  /-- P_grid - sum P_out - P_buf, floored at 0, of the last 100 epochs, newest first | 100 values | R114 | none -/
  otherHist : List Int := []
  /-- feeder excess of the last 20 epochs, newest first | 20 values | R113 | none -/
  excessHist : List Int := []
  /-- inputs of the 12 outlets | - | R110 | none -/
  out : List OutletIn := List.replicate 12 {}
  /-- grants computed in the running epoch | 12 | R107 | none -/
  next : List Grant := List.replicate 12 {}
  /-- assignment changes computed in the running epoch: ring position and destination, 0 parked | - | R31, R107, R134 | none -/
  plan : List (Nat × Nat) := []
  /-- grants launched | 12 | R31 | none -/
  grants : List Grant := List.replicate 12 {}
  /-- assignment of the 48 ring positions | - | R131 | parked -/
  assign : List Assign := List.replicate 48 {}
  /-- rule table in service | 256 x 32 bytes | R126 | the image's, else empty -/
  rules : List Bytes := []
  /-- staging rule table | 256 x 32 bytes | R129 | DESIGN CHOICE the table in service (log entry 8) -/
  staging : List Bytes := []
  /-- committed table waiting for the boundary | - | R129 | none -/
  commit : Option (List Bytes) := none
  /-- inputs now stale: 0 feeder, 1 frequency, 2 buffer, 3 + i outlet i | - | R110 | none -/
  stale : List Nat := []
deriving DecidableEq, Repr

/-- Non-volatile cells of the hub functions. -/
structure HubNv where
  /-- AUTH_GEN | 16 bits | R180 | DESIGN CHOICE 0 (log entry 8) -/
  authGen : Nat := 0
  /-- high-water mark of PERIOD | 48 bits | R344 | DESIGN CHOICE 0 (log entry 8) -/
  period : Nat := 0
deriving DecidableEq, Repr

end Sys2Proof.Machine
end

