-- ==== Sys2Proof/Machine/TypesSpoke.lean ====
section
/-!
DEFINITION. State of the Spoke-line (chapter 12). Each field's note reads: what it is | width | rule | value at reset.
-/
namespace Sys2Proof.Machine

/-- A node of the medium as the master or hub knows it (R346 to R348). -/
structure Node where
  node : Nat
  network : Nat := 0
  /-- 0 joined, 1 silent, 2 power-fail notice, 3 removed | 8 bits | R353 | - -/
  state : Nat := 0
  post : Nat := 0
  /-- beacon periods since last heard on the Spoke-line, and on either path | 32 bits | R348, R353 | - -/
  missed : Nat := 0
  silent : Nat := 0
  /-- it has been heard since boot, so the count of periods has started | 1 bit | R541 | 0 -/
  heard : Bool := false
  /-- first 8 bytes of the identity digest it joined with | 8 bytes | R24, R346 | none -/
  ident : Bytes := []
  /-- the slot is a hub slot -/
  hub : Bool := false
  /-- joined this period, for the slot map -/
  new : Bool := false
deriving DecidableEq, Repr, Inhabited

/-- A tone map (R321, R342). -/
structure ToneMap where
  ident : Nat := 0
  rate : Nat := 0
  span : Nat := 1
  backoff : Nat := 0
  carriers : Bytes := []
deriving DecidableEq, Repr, Inhabited

/-- A segment waiting to be sent (R326, R342): priority of its traffic, failures, SEG_SEQ once it has been sent, SEG_CTRL and
data. -/
structure Segment where
  prio : Nat := 0
  fails : Nat := 0
  seq : Option Nat := none
  ctrl : Nat := 0
  data : Bytes := []
deriving DecidableEq, Repr, Inhabited

/-- What one carrier carries in a symbol: levels (i, q) at an amplitude of 1/sqrt(norm), all zero where it is silent (R320). -/
structure Point where
  i : Int := 0
  q : Int := 0
  norm : Nat := 1
deriving DecidableEq, Repr, Inhabited

/-- A burst that was sent (R316, R320, R325): its KIND, its bytes as sealed, the power spectral density in dBm/Hz, and its
symbols, each with the points of the active carriers in ascending order. -/
structure SentBurst where
  kind : Nat := 0
  bytes : Bytes := []
  level : Int := -55
  symbols : List (List Point) := []
deriving DecidableEq, Repr, Inhabited

/-- A frame that was sent on ETH0 (R351, R352, R399): destination group address where the spec gives one, VID and priority code
point of its tag, EtherType, payload. -/
structure EthFrame where
  dest : Bytes := []
  vid : Nat := 0
  pcp : Nat := 0
  etherType : Nat := 0
  payload : Bytes := []
deriving DecidableEq, Repr, Inhabited

/-- The link to a peer (SPK_GET_LINK). -/
structure SpkLink where
  peer : Nat
  /-- tone map chosen for the peer's bursts to this node, and the one received for bursts to the peer -/
  rx : Option ToneMap := none
  tx : Option ToneMap := none
  /-- contention window after failed attempts; 0 for the initial window of the priority | - | R335 | 0 -/
  cw : Nat := 0
  /-- SNR per carrier of the last 32 bursts, newest first, 0.25 dB | 32 x 1,050 | R321 | none -/
  snr : List (List Int) := []
  /-- time since the last tone map sent, us | - | R321 | 0 -/
  mapUs : Nat := 0
  /-- priority of the burst last sent to the peer | 2 bits | R335 | 0 -/
  prio : Nat := 0
  /-- next SEG_SEQ to send, and the next one expected | 2 x 16 bits | R326, R342 | 0 -/
  seqTx : Nat := 0
  seqRx : Nat := 0
  /-- segments of the burst awaiting its acknowledgement: BURST_IDX and segment -/
  sent : List (Nat × Segment) := []
  /-- segments waiting to be sent -/
  queue : List Segment := []
  /-- segments received ahead of order: SEG_SEQ and bytes -/
  early : List (Nat × Bytes) := []
  /-- bytes of the MAC frame being put together -/
  partialFrame : Bytes := []
  /-- last pair (PERIOD, BURST_IDX) accepted, with the code-word indices (R344) -/
  last : Option (Nat × Nat) := none
  words : List Nat := []
  /-- the same pair for frames of the peer on ETH0 -/
  ethLast : Option (Nat × Nat) := none
  /-- consecutive bursts with more than 10 % failed code words -/
  bad : Nat := 0
  /-- bursts, code words, failed code words, impulse symbols, retransmissions, dropped frames, missed slots, missed
  beacons | 8 x 32 bits | R353 | 0 -/
  stats : List Nat := List.replicate 8 0
deriving DecidableEq, Repr, Inhabited

/-- The Spoke-line. -/
structure Spoke where
  /-- PERIOD of the present beacon period | 48 bits | R341, R344 | 0 -/
  period : Nat := 0
  /-- BP_US, us | 32 bits | R341 | 0 -/
  bp : Nat := 0
  /-- beacons missed in a row; none before the first beacon | - | R331, R335 | none -/
  missed : Option Nat := none
  /-- SRC and AUTH_GEN of the beacon accepted | 8 + 16 bits | R331, R345 | none -/
  master : Option (Nat × Nat) := none
  /-- timing of the accepted or sent beacon: SLOT_PHASE, CF_END, SW_START | 3 x 16 bits | R341 | 0 -/
  slotPhase : Nat := 0
  cfEnd : Nat := 0
  swStart : Nat := 0
  /-- ZX_FREE_RUN of the present beacon | 1 bit | R328 | 0 -/
  freeRun : Bool := false
  /-- this node is in the slot map | 1 bit | R332 | 0 -/
  joined : Bool := false
  /-- a join request of this node has been refused | 1 bit | R346 | 0 -/
  refused : Bool := false
  /-- beaconing stopped under R350 | 1 bit | R350 | 0 -/
  silenced : Bool := false
  /-- last accepted zero-cross times, us, newest first | up to 9 | R327 | none -/
  edges : List Nat := []
  /-- time of the present period's origin, us | - | R327, R328, R331 | 0 -/
  origin : Nat := 0
  /-- accepted zero-cross edges since an origin | 1 bit | R327 | 0 -/
  odd : Bool := false
  /-- rejected or missing edges in a row, accepted edges in a row while free-running | 2 counts | R328 | 0 -/
  zxBad : Nat := 0
  zxGood : Nat := 0
  /-- local supply phase against the beacon, us; none while unknown | 16 bits | R317, R353 | none -/
  phase : Option Int := none
  /-- nodes of the medium | at most 32 | R345 | none -/
  nodes : List Node := []
  /-- join requests waiting for the decision of the present period | - | R346, R24 | none -/
  requests : List JoinReq := []
  /-- answers to list in the next beacon: identity prefix, node, result | - | R341, R346 | none -/
  answers : List (Bytes × Nat × Nat) := []
  /-- links to peers | - | R353 | none -/
  links : List SpkLink := []
  /-- MAC frames received and handed on: peer and bytes | - | R342, R352 | none -/
  delivered : List (Nat × Bytes) := []
  /-- BURST_IDX of the next burst | 16 bits | R340 | 0 -/
  burst : Nat := 0
  /-- back-off count drawn and not yet run down | - | R335 | none -/
  backoff : Option Nat := none
  /-- bursts sent since the origin, newest first | - | R320, R325 | none -/
  sent : List SentBurst := []
  /-- frames sent on ETH0 since the last epoch boundary | - | R351, R352, R399 | none -/
  eth : List EthFrame := []
  /-- the switching window of the present period is open | 1 bit | R337 | 0 -/
  window : Bool := false
  /-- 60 s without a beacon: switching without windows | 1 bit | R339 | 0 -/
  noWindows : Bool := false
  /-- TAKEOVER of the next beacon | 1 bit | R350 | 0 -/
  takeover : Bool := false
deriving DecidableEq, Repr

end Sys2Proof.Machine
end

