-- ==== Sys2Proof/Machine/TypesShadow.lean ====
section
/-!
DEFINITION. What the Tandem link carries (R507, R509): the state of the hub functions at an epoch boundary, section by
section, in the shape in which the parts hold it (log entry 28).
-/
namespace Sys2Proof.Machine

/-- What a shadow frame carries of a competition group: state, g(k-1), hold and stop timers, overrun count. -/
structure ShadowGroup where
  mode : Nat := 0
  hold : Bool := false
  holdUs : Option Nat := none
  stop : Option Int := none
  kick : Bool := false
  g : Int := 0
  overruns : Nat := 0
deriving DecidableEq, Repr, Inhabited

/-- A shadow frame (R507). -/
structure ShadowFrame where
  /-- FLAGS[0] and [1] -/
  switch : Bool := false
  kickstand : Bool := false
  authGen : Nat := 0
  epoch : Nat := 0
  /-- SHARED_DIGEST -/
  digest : Bytes := []
  /-- the frame is complete and its CRC is right -/
  crcOk : Bool := true
  /-- Derailleur section -/
  grants : List Grant := []
  bufferOut : Int := 0
  assign : List Assign := []
  otherHist : List Int := []
  excessHist : List Int := []
  host : Option (Int × Int × Nat) := none
  /-- per outlet: in transfer, since which epoch, class set by the host, deadline -/
  outlets : List (Bool × Nat × Option Nat × Option Nat) := []
  response : Bool := false
  /-- Cadence section: groups; state and flags of the loops -/
  groups : List ShadowGroup := []
  loops : List (List Int × Nat) := []
  /-- Chainring section: TICK_SEQ of the rings; presence and clean count of the stages -/
  tickSeq : List Nat := []
  stages : List (Nat × Nat) := []
  /-- Spoke-line section: PERIOD, slot map, join answers pending -/
  period : Nat := 0
  nodes : List Node := []
  answers : List (Bytes × Nat × Nat) := []
  /-- Stack section: charge and service of the strings -/
  charge : List Nat := []
  service : List Bool := []
  /-- changes after the bulk transfer: the rule table in service and the descriptors of groups and loops (R509) -/
  rules : List Bytes := []
  groupDescs : List Bytes := []
  loopDescs : List Bytes := []
deriving DecidableEq, Repr, Inhabited

end Sys2Proof.Machine
end

