-- ==== Sys2Proof/Syntax.lean ====
section
/-!
DEFINITION. The commands of the block: one constructor for each row of spec/opcode_table.json, in the table's
order. The mailbox commands (rows 0 to 108) carry the header they were read with and their payload fields; the other
steps carry what the part observes in them. Operand names follow the payload and layout tables of the chapters.
-/
namespace Sys2Proof

/-- A command of the block. -/
inductive Instr where
  /-- SYS_ECHO_PAYLOAD (R70): Returns the request payload unchanged. -/
  | sysEchoPayload (r : Req) (data : Bytes)
  /-- SYS_OPEN_CREDENTIAL (R471): Judges a credential request by slot, kind, life-cycle state and signature, then opens a handle with an X448 session key. -/
  | sysOpenCredential (r : Req) (kind slot : Nat) (eph : Bytes) (sig : Sig)
  /-- SYS_CLOSE_CREDENTIAL (R70): Closes an open credential handle on the channel. -/
  | sysCloseCredential (r : Req) (handle : Nat)
  /-- SYS_GET_CHANNEL_STATS (R70): Returns the eight mailbox counters of a channel since boot. -/
  | sysGetChannelStats (r : Req) (channel : Nat)
  /-- SYS_GET_BOOT_INFO (R105): Returns reset cause, held time, image selection, trial state and power-cycle count. -/
  | sysGetBootInfo (r : Req)
  /-- SYS_RESET_PART (R105): Sends the response and schedules a reset of the part 10 ms later. -/
  | sysResetPart (r : Req)
  /-- SYS_ENTER_KICKSTAND (R105): Places the part in Kickstand with cause 0x0601. -/
  | sysEnterKickstand (r : Req)
  /-- SYS_GET_KICKSTAND (R99): Returns the ordered list of Kickstand causes of the current entry with the gone mask. -/
  | sysGetKickstand (r : Req)
  /-- SYS_RELEASE_KICKSTAND (R101): Leaves Kickstand only if every cause is gone and every required safety reset has been given. -/
  | sysReleaseKickstand (r : Req)
  /-- SYS_GET_LIFECYCLE (R93): Returns the life-cycle state and a fresh 32-byte nonce, which lapses the previous nonce. -/
  | sysGetLifecycle (r : Req)
  /-- SYS_SET_LIFECYCLE (R93): Verifies a transition token and its preconditions and starts an accepted life-cycle transition. -/
  | sysSetLifecycle (r : Req) (target : Nat) (token : Token)
  /-- SYS_WRITE_IMAGE (R106): Writes data into the inactive firmware or configuration image slot. -/
  | sysWriteImage (r : Req) (target offset : Nat) (data : Bytes)
  /-- SYS_ACTIVATE_IMAGE (R84): Verifies the inactive image and marks it preferred, on trial for firmware, from the next reset. -/
  | sysActivateImage (r : Req) (target : Nat)
  /-- SYS_CONFIRM_IMAGE (R84): Ends a running trial, keeping the image preferred and raising the anti-rollback minima. -/
  | sysConfirmImage (r : Req)
  /-- ALC_GET_STATUS (R137): Returns the Derailleur epoch count, budgets, setpoints, frequency and flags. -/
  | alcGetStatus (r : Req)
  /-- ALC_SET_RULES (R129): Writes up to 64 rules into the staging rule table. -/
  | alcSetRules (r : Req) (first count : Nat) (rules : Bytes)
  /-- ALC_GET_RULES (R137): Returns rules from the rule table in service or the staging table. -/
  | alcGetRules (r : Req) (table first count : Nat)
  /-- ALC_COMMIT_RULES (R129): Checks the staging table and the budget, then latches it to replace the table in service at the next boundary. -/
  | alcCommitRules (r : Req)
  /-- ALC_SET_SITE_LIMITS (R112): Sets or withdraws the host import and export limits with a validity time. -/
  | alcSetSiteLimits (r : Req) (imp exp : Int) (validity : Nat)
  /-- ALC_SET_SESSION_CLASS (R138): Sets the priority class of the running session on an outlet. -/
  | alcSetSessionClass (r : Req) (outlet cls : Nat)
  /-- ALC_GET_GRANTS (R125): Returns the 16-byte grant record of each configured outlet. -/
  | alcGetGrants (r : Req)
  /-- ALC_GET_INPUTS (R137): Returns the demand terms, deadline and input ages of an outlet. -/
  | alcGetInputs (r : Req) (outlet : Nat)
  /-- ALC_GET_ASSIGNMENT (R137): Returns the matrix state and counted capacity of each ring position. -/
  | alcGetAssignment (r : Req)
  /-- ALC_SET_STAGE_SERVICE (R135): Withdraws a stage from allocation or returns it for admission. -/
  | alcSetStageService (r : Req) (position action : Nat)
  /-- CAD_GET_GROUP (R168): Returns the state, winner, output and counters of a competition group. -/
  | cadGetGroup (r : Req) (group : Nat)
  /-- CAD_GET_LOOP (R168): Returns the flags, outputs and states of a loop. -/
  | cadGetLoop (r : Req) (loop : Nat)
  /-- CAD_CLEAR_FLAGS (R146): Clears the selected sticky flags of the selected loops. -/
  | cadClearFlags (r : Req) (loops flags : Nat)
  /-- CAD_SET_REFERENCE (R149): Sets a host reference value taken by loops at their group's next tick. -/
  | cadSetReference (r : Req) (number : Nat) (value : Int)
  /-- CAD_RELEASE_GROUP (R164): Ends the group Kickstand so that the loops restart from X0. -/
  | cadReleaseGroup (r : Req) (group : Nat)
  /-- CAD_STAGE_DESCRIPTOR (R169): Writes bytes into the staging copy of a loop or group descriptor. -/
  | cadStageDescriptor (r : Req) (descriptor offset : Nat) (data : Bytes)
  /-- CAD_COMMIT_GROUP (R169): Checks the staged descriptors of a group and the budget, then puts them in service at the next epoch boundary. -/
  | cadCommitGroup (r : Req) (group : Nat)
  /-- CHR_GET_RING (R191): Returns the state and counters of a Chainring. -/
  | chrGetRing (r : Req) (ring : Nat)
  /-- CHR_GET_STAGE (R191): Returns the supervision state and last clean slot of a stage. -/
  | chrGetStage (r : Req) (position : Nat)
  /-- CHR_CLEAR_COUNTERS (R191): Clears the counters of a ring. -/
  | chrClearCounters (r : Req) (ring : Nat)
  /-- OUT_GET_LINK (R218): Returns the pilot, proximity, SLAC and data-link state of an outlet. -/
  | outGetLink (r : Req) (slot : Nat)
  /-- OUT_GET_LINK_STATS (R218): Returns the vehicle-link counters of an outlet. -/
  | outGetLinkStats (r : Req) (slot : Nat)
  /-- OUT_CLEAR_LINK_STATS (R218): Clears the vehicle-link counters of an outlet. -/
  | outClearLinkStats (r : Req) (slot : Nat)
  /-- OUT_SET_PILOT_TEST (R219): Holds or ends a test drive state on an outlet without a session. -/
  | outSetPilotTest (r : Req) (slot drive : Nat)
  /-- OUT_GET_SESSION (R246): Returns the state, end codes and flags of an outlet's current or last session. -/
  | outGetSession (r : Req) (slot : Nat)
  /-- OUT_AUTHORISE (R247): Accepts or refuses the waiting session, or stores a decision with a validity for a later session. -/
  | outAuthorise (r : Req) (slot decision cls validity : Nat) (ident : Bytes)
  /-- OUT_STOP_SESSION (R247): Ends the outlet's session with end cause 0x02, or does nothing without a session. -/
  | outStopSession (r : Req) (slot : Nat)
  /-- OUT_SET_AVAILABILITY (R247): Makes an outlet available, unavailable after the session, or unavailable now. -/
  | outSetAvailability (r : Req) (slot mode : Nat)
  /-- OUT_CLEAR_WELD (R247): Clears a latched weld on an outlet with no connector present. -/
  | outClearWeld (r : Req) (slot : Nat)
  /-- OUT_GET_CHECKS (R246): Returns the results of the last weld pre-check, post-check and cable check. -/
  | outGetChecks (r : Req) (slot : Nat)
  /-- OUT_RENEGOTIATE (R237): Raises schedule renegotiation on an outlet in TRANSFER. -/
  | outRenegotiate (r : Req) (slot : Nat)
  /-- HEAT_GET_INPUT (R274): Returns the state, values and rate of a thermal, frequency, die or hot-spot input. -/
  | heatGetInput (r : Req) (kind index : Nat)
  /-- HEAT_GET_OUTLET (R274): Returns the thermal ceiling, binding term and observer values of an outlet. -/
  | heatGetOutlet (r : Req) (slot : Nat)
  /-- HEAT_GET_THRESHOLDS (R274): Returns the state and counts of thresholds. -/
  | heatGetThresholds (r : Req) (first count : Nat)
  /-- HEAT_ACK_SENSOR (R264): Acknowledges a recovered input so that its real reading replaces the substitute at the next sample point. -/
  | heatAckSensor (r : Req) (kind index : Nat)
  /-- HEAT_GET_DIE (R274): Returns die values, failed mask, throttle level and shutdown history. -/
  | heatGetDie (r : Req)
  /-- MTR_GET_REGISTERS (R312): Returns the energy registers, mirrors and last commit of a meter point. -/
  | mtrGetRegisters (r : Req) (point : Nat)
  /-- MTR_GET_POINT (R312): Returns power, channel modes, frequency and direction of a meter point. -/
  | mtrGetPoint (r : Req) (point : Nat)
  /-- MTR_GET_RECORD (R312): Returns a held, bad or merged metering record by MSEQ. -/
  | mtrGetRecord (r : Req) (mseq : Nat)
  /-- MTR_RENDER_RECORD (R313): Renders a record as signed OCMF or the long-term envelope and returns it by offset. -/
  | mtrRenderRecord (r : Req) (mseq format offset : Nat)
  /-- MTR_ACK_RECORDS (R293): Frees every held metering record up to the given MSEQ. -/
  | mtrAckRecords (r : Req) (mseq : Nat)
  /-- MTR_SET_WALL_TIME (R298): Steps wall time at the next sample marker or starts a slew of at most 2 s. -/
  | mtrSetWallTime (r : Req) (mode : Nat) (wall : Int)
  /-- MTR_WRITE_PARAMETERS (R306): Writes a sealed-parameter block, unseals the set, counts and records the change. -/
  | mtrWriteParameters (r : Req) (kind index : Nat) (block : Bytes)
  /-- MTR_SEAL_PARAMETERS (R306): Checks the metrology parameters, computes their digest and seals them. -/
  | mtrSealParameters (r : Req)
  /-- MTR_GET_LEGAL_ID (R308): Returns the legal software identifier, version, digests and seal state. -/
  | mtrGetLegalId (r : Req)
  /-- MTR_READ_PARAMETERS (R312): Returns a sealed-parameter block. -/
  | mtrReadParameters (r : Req) (kind index : Nat)
  /-- SPK_GET_STATUS (R353): Returns the Spoke-line role, period, timing and carrier status. -/
  | spkGetStatus (r : Req)
  /-- SPK_GET_NODES (R353): Returns the state of each node on the medium. -/
  | spkGetNodes (r : Req)
  /-- SPK_GET_LINK (R353): Returns the tone map, SNR and counters of the link to a peer. -/
  | spkGetLink (r : Req) (peer : Nat)
  /-- SPK_CLEAR_STATS (R353): Clears the link counters of one peer or all peers. -/
  | spkClearStats (r : Req) (peer : Nat)
  /-- SAF_GET_STATUS (R392): Returns permits, faults, pair states and safety counters. -/
  | safGetStatus (r : Req)
  /-- SAF_GET_INSTANCE (R389): Returns the state, cause and worst-case reaction time of a safety function instance. -/
  | safGetInstance (r : Req) (index : Nat)
  /-- SAF_GET_INPUT (R392): Returns raw and filtered channel values and faults of a safe input. -/
  | safGetInput (r : Req) (input : Nat)
  /-- SAF_GET_PAIR (R392): Returns the state, read-back and last dark test of a safe output pair. -/
  | safGetPair (r : Req) (pair : Nat)
  /-- SAF_RESET (R378): Gives a safety reset to instances whose RESET is the command, and optionally the part reset. -/
  | safReset (r : Req) (mask part : Nat)
  /-- SAF_SET_OUTPUT (R393): Sets the request of a function-output pair on or off. -/
  | safSetOutput (r : Req) (pair request : Nat)
  /-- SAF_DOOR_LOCK (R373): Commands a guard door lock to unlock after its stop, or to lock. -/
  | safDoorLock (r : Req) (index action : Nat)
  /-- SAF_GET_LINK (R413): Returns the state, cause and counters of a safe-transport connection. -/
  | safGetLink (r : Req) (conn : Nat)
  /-- SAF_CFG_GET (R413): Returns the safety set state, signature, generation, edit session and lock-out. -/
  | safCfgGet (r : Req)
  /-- SAF_CFG_READ (R414): Returns a block of the safety set in service or of staging. -/
  | safCfgRead (r : Req) (copy kind index : Nat)
  /-- SAF_CFG_OPEN (R408): Checks the password and opens the single edit session with a staging copy. -/
  | safCfgOpen (r : Req) (password : Bytes)
  /-- SAF_CFG_WRITE (R408): Changes a block of the staging safety set. -/
  | safCfgWrite (r : Req) (kind index : Nat) (block : Bytes)
  /-- SAF_CFG_COMMIT (R408): Checks staging and stores it as the safety set awaiting acknowledgement, cause 0x0303. -/
  | safCfgCommit (r : Req)
  /-- SAF_CFG_CLOSE (R408): Ends the edit session and discards staging. -/
  | safCfgClose (r : Req)
  /-- SAF_CFG_ACK (R408): Acknowledges the committed safety set with its signature and the password. -/
  | safCfgAck (r : Req) (signature : Nat) (password : Bytes)
  /-- SAF_CFG_SET_PASSWORD (R414): Sets or changes the safety configuration password. -/
  | safCfgSetPassword (r : Req) (old new : Bytes)
  /-- SAF_CFG_GET_LOG (R413): Returns records of the safety change-log head. -/
  | safCfgGetLog (r : Req) (first count : Nat)
  /-- LDC_GET_CHANNEL (R433): Returns the mode, state, faults and measurements of a load channel. -/
  | ldcGetChannel (r : Req) (channel : Nat)
  /-- LDC_SET_CHANNEL (R434): Sets the request of a load channel on or off. -/
  | ldcSetChannel (r : Req) (channel request : Nat)
  /-- LDC_SET_DUTY (R420): Sets the duty code of a PWM generator from its next period. -/
  | ldcSetDuty (r : Req) (generator duty : Nat)
  /-- LDC_CLEAR_FAULT (R425): Clears faults and reports and reloads RETRY_LEFT of the named channels unless a latch is set. -/
  | ldcClearFault (r : Req) (mask : Nat)
  /-- LDC_GET_PACKAGE (R433): Returns package current, dissipation, VLOAD and watchdog state. -/
  | ldcGetPackage (r : Req)
  /-- STK_GET_STATUS (R456): Returns chain, string and stack-limit status. -/
  | stkGetStatus (r : Req)
  /-- STK_GET_COMPANION (R456): Returns the last clean slot and flags of a companion. -/
  | stkGetCompanion (r : Req) (chain position : Nat)
  /-- STK_SET_SOC (R454): Sets the state of charge of a string. -/
  | stkSetSoc (r : Req) (string soc : Nat)
  /-- STK_CLEAR_FAULT (R457): Sends CLEAR_FAULT on a chain to one or all companions. -/
  | stkClearFault (r : Req) (chain position : Nat)
  /-- KEY_GET_SLOT (R478): Returns the copy generations, header and public digest of a key slot. -/
  | keyGetSlot (r : Req) (slot : Nat)
  /-- KEY_GENERATE (R461): Generates a key inside the part and commits it into a slot. -/
  | keyGenerate (r : Req) (slot : Nat) (attr : KeyAttr) (label : Bytes)
  /-- KEY_IMPORT (R461): Imports key material in parts and writes the slot at the final part. -/
  | keyImport (r : Req) (slot : Nat) (attr : KeyAttr) (label : Bytes) (offset final : Nat) (data : Bytes)
  /-- KEY_DERIVE (R467): Derives a child key deterministically from a derivation parent into a general slot. -/
  | keyDerive (r : Req) (parent child : Nat) (attr : KeyAttr) (label : Bytes)
  /-- KEY_REVOKE (R468): Sets a slot revoked and increments its epoch, failing every descendant. -/
  | keyRevoke (r : Req) (slot : Nat)
  /-- KEY_ERASE (R460): Writes both copies of a slot empty. -/
  | keyErase (r : Req) (slot : Nat)
  /-- KEY_EXPORT (R465): Returns the public part of a slot or its wrapped exportable material. -/
  | keyExport (r : Req) (slot : Nat)
  /-- KEY_SIGN (R466): Signs a digest with a slot after the invocation checks. -/
  | keySign (r : Req) (slot : Nat) (digest : Bytes)
  /-- KEY_ATTEST (R477): Returns the attestation statement for a caller nonce, signed by slot 1. -/
  | keyAttest (r : Req) (nonce : Bytes)
  /-- KEY_GET_CERTIFICATE (R473): Returns the device or attestation certificate by offset. -/
  | keyGetCertificate (r : Req) (which offset : Nat)
  /-- REC_GET_INFO (R492): Returns recorder sequence numbers, partition indices, floors and drop counts. -/
  | recGetInfo (r : Req)
  /-- REC_READ (R492): Returns records of a partition from a start PIDX up to a SEQ limit. -/
  | recRead (r : Req) (part start limit count : Nat)
  /-- REC_GET_LIMITS (R496): Returns RATE_MAX and the rate-limit entries. -/
  | recGetLimits (r : Req)
  /-- REC_GET_CHALLENGE (R494): Returns a fresh clear nonce, lapsing the previous one. -/
  | recGetChallenge (r : Req)
  /-- REC_CLEAR (R493): Authorises and schedules the clear of a partition up to its newest SEQ. -/
  | recClear (r : Req) (part limit kind : Nat) (sig : Sig)
  /-- REC_WRITE_NOTE (R497): Queues a host note record in the GENERAL partition. -/
  | recWriteNote (r : Req) (note : Bytes)
  /-- TDM_GET_STATUS (R519): Returns the tandem state, partner state, generation and takeover history. -/
  | tdmGetStatus (r : Req)
  /-- TDM_SWITCH_OVER (R520): Sets SWITCH in the next shadow frame so that authority passes at the following boundary. -/
  | tdmSwitchOver (r : Req)
  /-- TDM_GET_PELOTON (R519): Returns the state and share of each peloton member. -/
  | tdmGetPeloton (r : Req)
  /-- UNDEFINED_OPCODE_REQUEST (R50): Answers a request whose opcode the interface revision does not define with ST_BAD_OPCODE. -/
  | undefinedOpcodeRequest
  /-- REQUEST_BAD_MAGIC (R64): Consumes a ring slot with a bad magic and sets EV_MBX_FRAMING, or ends the Ethernet connection. -/
  | requestBadMagic
  /-- REQUEST_BAD_CRC (R65): Answers a request with a CRC mismatch with a SUSPECT ST_BAD_CRC response. -/
  | requestBadCrc
  /-- QSPI_UNKNOWN_INSTRUCTION (R45): Ignores a quad-SPI transaction with an unknown instruction, leaving the lanes at high impedance. -/
  | qspiUnknownInstruction (instruction : Nat) (data : Bytes)
  /-- CHN_REQ_PROD_WRITE (R53): Judges a doorbell write to the request producer index, accepting it or refusing it with WIN_ERR[3]. -/
  | chnReqProdWrite (ch : Nat) (value : Word)
  /-- CHN_RSP_CONS_WRITE (R53): Judges a write to the response consumer index, freeing response slots or refusing it. -/
  | chnRspConsWrite (ch : Nat) (value : Word)
  /-- CHN_CTRL_RESET (R55): Resets a mailbox channel, discarding pending work, emptying the rings and closing its credentials. -/
  | chnCtrlReset (ch : Nat)
  /-- CHN_CTRL_ENABLE (R55): Sets or clears a channel's ENABLE bit, where clearing resets the channel. -/
  | chnCtrlEnable (ch : Nat) (on : Bool)
  /-- WIN_ERR_CLEAR (R10): Clears WIN_ERR bits written with 1, with a simultaneous set prevailing. -/
  | winErrClear (value set : Word)
  /-- EV_PEND_CLEAR (R71): Clears pending event bits written with 1 and releases bell lines with no remaining cause. -/
  | evPendClear (m : Nat) (value set : Word)
  /-- BELL_CTRL_WRITE (R72): Sets the PULSE mode of each bell line. -/
  | bellCtrlWrite (value : Word)
  /-- REGISTER_WRITE (R9): Writes a register that has no behaviour of its own, such as EV_EN or EV_ROUTE, ignoring RO fields. -/
  | registerWrite (address : Nat) (data : Bytes)
  /-- REQUEST_READ (R63): Reads the next pending request frame of a channel in round-robin order and starts its command. -/
  | requestRead
  /-- RESPONSE_WRITE (R54): Writes a held response into a freed response slot and advances CHn_RSP_PROD. -/
  | responseWrite (ch : Nat)
  /-- COMMAND_COMPLETION (R66): Sends the final response of a command that answered ST_ACCEPTED. -/
  | commandCompletion (ch tag : Nat)
  /-- COMMAND_TIMEOUT (R66): Ends a command that passed its bound with ST_TIMEOUT and suppresses its work. -/
  | commandTimeout (ch tag : Nat)
  /-- MBX_CONNECTION_OPEN (R57): Accepts a TLS or permitted plain TCP connection for an Ethernet-bound channel. -/
  | mbxConnectionOpen (ch : Nat) (conn : Connection)
  /-- MBX_STREAM_FRAME (R58): Takes a frame from a channel's TCP stream, ending the connection on a bad magic or excessive LENGTH. -/
  | mbxStreamFrame (ch : Nat) (frame : Bytes)
  /-- MBX_KEEPALIVE_EXPIRY (R58): Ends an idle connection after three unanswered keep-alive probes, resetting the channel. -/
  | mbxKeepaliveExpiry (ch : Nat)
  /-- MBX_CONNECTION_CLOSED (R58): Handles the end of a channel's connection by the peer, resetting the channel. -/
  | mbxConnectionClosed (ch : Nat)
  /-- RESET_N_ASSERT (R77): Takes RESET_N low for 10 µs as a reset, switching every output off. -/
  | resetNAssert
  /-- RESET_N_RELEASE (R80): Starts the boot at the boot origin, sampling straps and latching the reset cause. -/
  | resetNRelease (role node heldMs : Nat)
  /-- POWER_ON_RESET_RELEASE (R74): Ends the internal reset once all rails are in range and the reference has run for 2 ms. -/
  | powerOnResetRelease (role node vddioMv : Nat) (cold : Bool)
  /-- CORE_UNDERVOLTAGE_RESET (R36): Resets the part when VDD_CORE is below 0.65 V for 10 µs. -/
  | coreUndervoltageReset
  /-- RAIL_FAULT_RESET (R79): Resets the part when VDD_SAFE, VDDIO or VAFE is out of range for 10 µs. -/
  | railFaultReset (rail : Nat)
  /-- HOUSEKEEPING_WATCHDOG_RESET (R79): Resets the part when the housekeeping core has not fed its watchdog for 50 ms. -/
  | housekeepingWatchdogReset
  /-- COMMAND_RESET (R105): Resets the part 10 ms after the response to SYS_RESET_PART. -/
  | commandReset
  /-- WIPE_COMPLETE (R81): Ends the wipe with a zero read-back, sets BOOT_PHASE 0x1 and lets the register window answer. -/
  | wipeComplete (zero : Bool)
  /-- IMAGES_VERIFIED (R83): Selects the firmware and configuration images, with fall-back and trial roll-back, and sets BOOT_PHASE 0x2. -/
  | imagesVerified
  /-- SELF_TEST_COMPLETE (R80): Closes interrupted sessions, reinstates persistent causes, writes IDREV and makes the mailbox live. -/
  | selfTestComplete (result : SelfTest)
  /-- LIFECYCLE_TRANSITION (R94): Records the transition, commits meters, writes the new life-cycle word and resets with cause 0x08. -/
  | lifecycleTransition
  /-- PFW_N_ASSERT (R87): Takes a filtered power-fail warning, enters Kickstand 0x0501 and commits meters, recorder and the power-fail record. -/
  | pfwNAssert
  /-- PFW_CAUSE_GONE (R89): Marks cause 0x0501 gone once PFW_N has been high for 100 ms. -/
  | pfwCauseGone
  /-- KICKSTAND_CAUSE_GONE (R99): Marks a Kickstand cause gone when its condition has cleared for its required time. -/
  | kickstandCauseGone (cause : Nat)
  /-- SUPPLY_BELOW_GUARANTEED (R36): Sets BELOW_SUPPLY and records an excursion when the 1 ms monitor finds VDD_CORE below 0.72 V. -/
  | supplyBelowGuaranteed (below : Bool)
  /-- REFERENCE_CLOCK_FAULT (R33): Enters Kickstand and switches safe outputs off when the reference deviates by 2 % or stops for 20 µs. -/
  | referenceClockFault
  /-- RTC_CRYSTAL_LOST (R34): Continues wall time from the reference with low quality and records the loss once. -/
  | rtcCrystalLost
  /-- FIREWALL_VIOLATION (R39): Refuses and records an out-of-permission access and restarts the offending engine, with Kickstand for safety or metrology cores. -/
  | firewallViolation (engine address : Nat) (write : Bool)
  /-- SRAM_UNCORRECTABLE_ERROR (R40): Restarts the owning engine on an uncorrectable SRAM error. -/
  | sramUncorrectableError (engine : Nat)
  /-- NOR_READ_ERROR (R41): Serves a failing NOR read from the other die and rewrites the sector, or reports it bad. -/
  | norReadError (sector : Nat) (bothBad : Bool)
  /-- NOR_SCRUB (R41): Reads every programmed NOR sector within 7 days and rewrites sectors with too many corrected bits. -/
  | norScrub (corrected : List (Nat × Nat))
  /-- EPOCH_BOUNDARY (R107): Latches the Derailleur inputs and launches the outputs computed in the previous epoch. -/
  | epochBoundary (written : Bool)
  /-- ALC_LATE_ZERO_CEILINGS (R109): Launches zero ceilings and buffer setpoint from the tenth consecutive late epoch. -/
  | alcLateZeroCeilings
  /-- ALC_INPUT_STALE (R110): Applies the stale treatment when an input's age reaches its limit. -/
  | alcInputStale (input outlet : Nat)
  /-- ALC_SITE_LIMIT_EXPIRY (R112): Reverts to fallback limits when the host limit validity ends. -/
  | alcSiteLimitExpiry
  /-- STAGE_RELEASE_DELAY (R134): Releases surplus stages to parked after an outlet has held more than its aim for the release delay. -/
  | stageReleaseDelay (outlet : Nat)
  /-- MATRIX_CONFIRM_TIMEOUT (R133): Abandons a move and zeroes the stage's capacity when telemetry does not confirm within 50 ms. -/
  | matrixConfirmTimeout (position : Nat)
  /-- CONTROL_TICK (R142): Latches measurements, launches outputs, and computes each loop, selection and split of a competition group. -/
  | controlTick (group : Nat)
  /-- GROUP_OVERRUN (R163): Abandons a group computation not written by the next tick, repeats outputs and sets OVERRUN. -/
  | groupOverrun (group : Nat) (completed : List Nat)
  /-- ZERO_HOLD_COMPLETE (R159): Changes the group's direction mode when the hold timer reaches ZERO_HOLD. -/
  | zeroHoldComplete (group : Nat)
  /-- CHAINRING_FRAME_RETURN (R177): Latches the returned inbound block of a ring frame as telemetry and judges each slot. -/
  | chainringFrameReturn (ring : Nat) (line : List RingSymbol)
  /-- STAGE_LOST (R187): Takes a stage as lost at the third unclean slot or a reported fault. -/
  | stageLost (position : Nat)
  /-- STAGE_PRESENT (R188): Takes a stage as present after three clean healthy frames and reports it to the Derailleur. -/
  | stagePresent (position : Nat)
  /-- RING_BROKEN (R189): Declares a ring broken after three frames fail to return intact. -/
  | ringBroken (ring : Nat)
  /-- PILOT_PERIOD_END (R198): Measures the pilot plateaus of a 1 ms period and forms its raw state. -/
  | pilotPeriodEnd (slot : Nat) (vPlus vMinus : Int) (pps : Nat)
  /-- PILOT_STATE_CONFIRMED (R200): Confirms a pilot or charge-enable state after FILTER periods and reports it to the sequencer. -/
  | pilotStateConfirmed (slot : Nat)
  /-- PROXIMITY_CLASS_CONFIRMED (R201): Confirms a proximity or insertion-detect class after FILTER samples. -/
  | proximityClassConfirmed (slot : Nat)
  /-- OUTLET_C_CODE_CONFIRMED (R205): Confirms the pilot code of outlet C on GPIO8 to 10 after FILTER samples. -/
  | outletCCodeConfirmed
  /-- CM_SLAC_PARAM_REQ (R208): Answers a SLAC parameter request and opens a characterisation for its RunID. -/
  | cmSlacParamReq (slot : Nat) (mac runId : Bytes)
  /-- SLAC_SOUNDS_RECEIVED (R208): Averages the sounds of a RunID and sends CM_ATTEN_CHAR.IND. -/
  | slacSoundsReceived (slot : Nat) (runId : Bytes) (sounds : List (List Nat))
  /-- CM_VALIDATE (R208): Answers a validate request with the result not required. -/
  | cmValidate (slot : Nat)
  /-- CM_SLAC_MATCH_REQ (R209): Accepts a match with a fresh NMK or refuses it silently. -/
  | cmSlacMatchReq (slot : Nat) (mac runId : Bytes)
  /-- T1S_FRAME_RECEIVED (R212): Takes a valid 10BASE-T1S frame, bringing the MCS data link up. -/
  | t1sFrameReceived (slot : Nat) (event : T1sEvent)
  /-- T1S_LINK_TIMEOUT (R212): Reports an MCS data link down after 1 s without a valid frame. -/
  | t1sLinkTimeout (slot : Nat)
  /-- BRIDGE_GPIO_CHANGE (R213): Reports a bridged outlet's data link up or down as its association GPIO changes. -/
  | bridgeGpioChange (gpio : Nat) (level : Bool)
  /-- SESSION_SEQUENCER_STEP (R221): Evaluates an outlet's inputs once per millisecond and acts on what it finds. -/
  | sessionSequencerStep (slot : Nat) (protocolError : Bool)
  /-- SDP_REQUEST (R214): Answers a vehicle discovery request with a random TCP port. -/
  | sdpRequest (slot : Nat) (vid : Option Nat)
  /-- SUPPORTED_APP_PROTOCOL_REQ (R215): Agrees the vehicle protocol from the enabled ones. -/
  | supportedAppProtocolReq (slot : Nat) (offers : List Nat)
  /-- TLS_HANDSHAKE_COMPLETE (R245): Completes the vehicle TLS handshake with keys held in the key engine. -/
  | tlsHandshakeComplete (slot keySlot : Nat) (hello : VehicleTls)
  /-- AUTHORIZATION_REQ (R227): Enters AUTHORISING and verifies Plug & Charge or waits for external identification. -/
  | authorizationReq (slot method : Nat) (ident : Bytes) (chain : List Cert)
  /-- AUTH_TIMEOUT_EXPIRY (R227): Treats a decision not arrived within AUTH_TIMEOUT as a refusal. -/
  | authTimeoutExpiry (slot : Nat)
  /-- AUTH_VALIDITY_EXPIRY (R228): Lapses a host pre-authorisation at the end of its validity. -/
  | authValidityExpiry (slot : Nat)
  /-- CABLE_CHECK_REQ (R232): Takes the first cable-check request into WELD_PRECHECK, or answers a repeat with progress. -/
  | cableCheckReq (slot vMax : Nat)
  /-- PRECHARGE_REQ (R234): Enters PRECHARGE and holds the supply at the vehicle target voltage. -/
  | prechargeReq (slot target : Nat)
  /-- POWER_DELIVERY_START_REQ (R236): Enters TRANSFER with charging or export mode. -/
  | powerDeliveryStartReq (slot : Nat) (discharge : Bool)
  /-- POWER_DELIVERY_STOP_REQ (R240): Takes a vehicle stop as end cause 0x01. -/
  | powerDeliveryStopReq (slot : Nat)
  /-- DIRECTION_CHANGE_REQ (R238): Accepts a reversal into DIRECTION_HOLD or answers it as outside the limits. -/
  | directionChangeReq (slot : Nat) (exporting : Bool)
  /-- WELDING_DETECTION_REQ (R232): Answers a vehicle welding-detection request with the vehicle-side voltage. -/
  | weldingDetectionReq (slot : Nat)
  /-- VEHICLE_RENEGOTIATION_REQ (R237): Answers a schedule renegotiation started by the vehicle. -/
  | vehicleRenegotiationReq (slot : Nat) (schedule : List (Nat × Nat))
  /-- GRANT_RECEIVED (R224): Accepts a grant with a newer epoch and presents its ceilings to the vehicle. -/
  | grantReceived (grant : Bytes)
  /-- CONTACTOR_CONFIRMED (R230): Takes a contactor state as confirmed after three ticks of mirror agreement. -/
  | contactorConfirmed (slot : Nat)
  /-- CONTACTOR_CONFIRM_TIMEOUT (R230): Opens both contactors and ends the session 0x0A when the mirror has not confirmed within 50 ms. -/
  | contactorConfirmTimeout (slot : Nat)
  /-- WELD_TEST_STEP_READ (R231): Reads a weld test step 200 ms after its contactor state is confirmed and judges the weld. -/
  | weldTestStepRead (slot : Nat)
  /-- POSTCHECK_GRANT_TIMEOUT (R232): Defers the post-check when the hub gives no grant within 1 s. -/
  | postcheckGrantTimeout (slot : Nat)
  /-- IMD_SETTLE_COMPLETE (R233): Judges the lowest insulation reading at the end of IMD_SETTLE against V_CC. -/
  | imdSettleComplete (slot : Nat)
  /-- CABLE_CHECK_MAX_EXPIRY (R233): Ends the session 0x07 when the cable check has not finished in time. -/
  | cableCheckMaxExpiry (slot : Nat)
  /-- PRECHARGE_TIMEOUT (R234): Ends the session 0x08 when precharge has not come within 20 V in 7 s. -/
  | prechargeTimeout (slot : Nat)
  /-- RENEG_HOLD_EXPIRY (R237): Raises schedule renegotiation when the ceiling has differed beyond RENEG_BAND for RENEG_HOLD. -/
  | renegHoldExpiry (slot : Nat)
  /-- OUTLET_CURRENT_AT_OPEN (R238): Opens contactors in a stop once the outlet current has been at most I_OPEN for three samples. -/
  | outletCurrentAtOpen (slot : Nat)
  /-- END_TIMEOUT_EXPIRY (R239): Opens an orderly stop's contactors under current at END_TIMEOUT and records it. -/
  | endTimeoutExpiry (slot : Nat)
  /-- URGENT_STOP_100MS_EXPIRY (R239): Opens an urgent stop's contactors 100 ms after the cause and records it. -/
  | urgentStop100msExpiry (slot : Nat)
  /-- HUB_LOST (R243): Ends sessions with 0x0E and enters Kickstand 0x0602 when no grant is accepted for HUB_TIMEOUT. -/
  | hubLost
  /-- HEAT_SAMPLE_POINT (R253): Converts due inputs, detects failures, evaluates thresholds and forms stop demands and derates. -/
  | heatSamplePoint (ohms : List (Option Nat)) (edges : List (Nat × Nat))
  /-- THRESHOLD_CROSSED (R255): Crosses a threshold at the third consecutive sample beyond LEVEL. -/
  | thresholdCrossed (index : Nat)
  /-- THRESHOLD_REARMED (R255): Re-arms a threshold at the third consecutive sample back beyond the hysteresis. -/
  | thresholdRearmed (index : Nat)
  /-- SENSOR_RECOVERED (R263): Marks a failed input recovered after ten consecutive valid readings. -/
  | sensorRecovered (kind index : Nat)
  /-- DIE_SAMPLE (R267): Samples the die sensors and evaluates die thresholds and throttle level. -/
  | dieSample (readings : List (Option Int))
  /-- DIE_THERMAL_SHUTDOWN (R270): Commits a shutdown record and resets with cause 0x07 after three die samples at 135 °C. -/
  | dieThermalShutdown
  /-- SHUTDOWN_SUPERVISOR_READING (R271): Reads the die sensors every 100 ms during the shutdown hold. -/
  | shutdownSupervisorReading (readings : List (Option Int))
  /-- SHUTDOWN_HOLD_END (R271): Starts a new boot at the third reading with every die sensor below 100 °C. -/
  | shutdownHoldEnd (role node : Nat)
  /-- METERING_SAMPLE (R279): Decimates and corrects every channel, accumulates energy and writes the heat slots. -/
  | meteringSample (bits : List (List Bool))
  /-- METER_CHANNEL_FAULTED (R280): Faults a channel at its third consecutive faulted sample, with Kickstand 0x0205 for outlet channels. -/
  | meterChannelFaulted (channel : Nat)
  /-- METER_CHANNEL_VALID (R280): Returns a faulted channel to valid after 8,000 good samples. -/
  | meterChannelValid (channel : Nat)
  /-- DIRECTION_ESTABLISHED (R286): Establishes a point's direction and counts a reversal when it changes. -/
  | directionEstablished (point : Nat)
  /-- OPERATING_SECOND (R485): Advances and commits the operating-second counter. -/
  | operatingSecond (corrected : Nat)
  /-- INTERVAL_CLOSE (R297): Closes a point's interval record at the first sample marker at or after its boundary. -/
  | intervalClose (point : Nat)
  /-- WALL_TIME_STEP_EFFECT (R298): Closes running intervals with TIME_SET and starts new ones at the step's sample marker. -/
  | wallTimeStepEffect
  /-- TEST_PULSE_START (R304): Starts a test pulse when one is pending and the low time has passed. -/
  | testPulseStart (output : Nat)
  /-- ZX_EDGE (R327): Accepts or rejects a zero-cross edge and starts a beacon period at every second accepted edge. -/
  | zxEdge (time width : Nat)
  /-- ZX_FREE_RUN (R328): Free-runs the beacon after three missing or rejected edges. -/
  | zxFreeRun
  /-- ZX_RESYNC (R328): Moves the origin back to ZX after eight accepted edges and clears ZX_FREE_RUN. -/
  | zxResync
  /-- BEACON_TRANSMIT (R341): Sends the beacon with period, timing, slot map and join answers at SLOT_PHASE. -/
  | beaconTransmit
  /-- BEACON_RECEIVED (R331): Times the node's period from a received beacon and accepts it under the generation rule. -/
  | beaconReceived (time : Nat) (beacon : Bytes)
  /-- BEACON_LOST (R331): Stops transmitting after MISS_MAX missed beacons. -/
  | beaconLost
  /-- SLOT_TRANSMIT (R332): Sends the hub or node slot with the latest grants, requests and safety frames. -/
  | slotTransmit
  /-- SLOT_RECEIVED (R332): Takes a received slot, delivering grants, requests and safety frames. -/
  | slotReceived (slot : SlotMsg)
  /-- NODE_SILENT (R348): Removes a node from the slot map after MISS_MAX missed slots. -/
  | nodeSilent (node : Nat)
  /-- POST_LOST (R348): Takes a post as lost when neither path has delivered from it for MISS_MAX periods. -/
  | postLost (post : Nat)
  /-- CONTENTION_ACCESS (R335): Wins the medium after listen, priority windows and back-off and starts a burst. -/
  | contentionAccess (medium : Access)
  /-- DATA_BURST_RECEIVED (R326): Decodes a data burst, acknowledges it and delivers its segments in order. -/
  | dataBurstReceived (burst : Burst)
  /-- ACKNOWLEDGEMENT_RECEIVED (R326): Takes an acknowledgement bitmap and queues the failed segments for retransmission. -/
  | acknowledgementReceived (ack : Bytes)
  /-- ACKNOWLEDGEMENT_MISSING (R335): Doubles CW for the next attempt when a unicast burst is not acknowledged. -/
  | acknowledgementMissing (peer : Nat)
  /-- TONE_MAP_UPDATE (R321): Sends a new tone map for a link when none exists, 60 s pass or code words fail. -/
  | toneMapUpdate (peer : Nat)
  /-- TONE_MAP_RECEIVED (R321): Adopts a tone map received for a link. -/
  | toneMapReceived (peer ident rate span backoff : Nat) (carriers : Bytes)
  /-- JOIN_REQUEST (R346): Decides admission of a node's join request. -/
  | joinRequest (requests : List JoinReq)
  /-- JOIN_DECISION (R346): Takes a guest hub's join decisions for listing in the next beacon. -/
  | joinDecision (hub : Nat) (decisions : List (Bytes × Nat × Nat × Nat))
  /-- POWER_FAIL_NOTICE (R349): Takes a post's power-fail notice and takes the post as lost at the next boundary. -/
  | powerFailNotice (post : Nat)
  /-- SWITCHING_WINDOW_OPEN (R337): Opens the switching window at SW_START for pending contactor and matrix operations. -/
  | switchingWindowOpen
  /-- NO_BEACON_60S (R339): Switches without regard to windows after 60 s without a beacon. -/
  | noBeacon60s
  /-- ISLAND_ETH0_FRAME (R351): Takes a grant or request frame on ETH0, first-arriving path wins. -/
  | islandEth0Frame (slot : SlotMsg)
  /-- BRIDGED_ETHERNET_FRAME (R352): Carries a BRIDGE_VID frame between ETH0 and the Spoke-line. -/
  | bridgedEthernetFrame (fromEth : Bool) (vid etherType : Nat) (data : Bytes)
  /-- SAFETY_TICK (R355): Latches safe inputs, evaluates filters, instances, permits and pairs, and cross-compares digests. -/
  | safetyTick (s0 s1 : List (Bool × Bool)) (loops : List Bool) (sense : List (Nat × Nat × Nat)) (vsout : Nat)
  /-- SAFETY_EDGE_MISSED (R357): Repeats the previous record at an edge a core missed, and switches it off at the second. -/
  | safetyEdgeMissed (core : Nat)
  /-- VDD_SAFE_OUT_OF_RANGE (R358): Enters Kickstand 0x0304 once VDD_SAFE has been out of range for 1 µs. -/
  | vddSafeOutOfRange
  /-- TEST_SAMPLE (R362): Takes the test-pulse sample 125 µs after an edge and latches cross-short faults. -/
  | testSample (tp : Nat) (samples : List (Bool × Bool))
  /-- DISCREPANCY_LATE (R363): Latches a discrepancy fault when the second channel is not timed within DISCREPANCY. -/
  | discrepancyLate (input : Nat)
  /-- RESET_INPUT_PRESS (R378): Gives a reset when a reset input's channel A returns to 0 after a valid press. -/
  | resetInputPress (input : Nat)
  /-- TWO_HAND_LATE (R374): Refuses a permit and sets EV_SAF_TWO_HAND when the second hand comes too late. -/
  | twoHandLate (index : Nat)
  /-- MUTE_MAX_EXPIRY (R377): Ends muting at MUTE_MAX and drops the permit if the curtain is interrupted. -/
  | muteMaxExpiry (index : Nat)
  /-- LOCK_FEEDBACK_TIMEOUT (R373): Latches a lock fault when the feedback does not follow a drive change within 1 s. -/
  | lockFeedbackTimeout (index : Nat)
  /-- UNLOCK_DELAY_EXPIRY (R373): Drives the solenoid to unlock once UNLOCK_DELAY has passed and the stop is complete. -/
  | unlockDelayExpiry (index : Nat)
  /-- MAX_RAMP_EXPIRY (R383): Switches off the pairs of a category 1 stop at MAX_RAMP, recording opened under current. -/
  | maxRampExpiry (pair : Nat)
  /-- DARK_TEST (R387): Tests one switch of an on pair every DARK_PERIOD. -/
  | darkTest (pair vHigh vLow vsout : Nat)
  /-- PAIR_OVERCURRENT (R385): Turns a switch off within 50 µs at 3 A to 4 A, as a pair fault. -/
  | pairOvercurrent (pair : Nat)
  /-- VSOUT_RANGE_CHANGE (R527): Holds every pair off while VSOUT is out of range and frees them after 10 ms back in range. -/
  | vsoutRangeChange (inRange : Bool)
  /-- SAFETY_FRAME_POINT (R398): Builds a periodic safety frame at the frame point and sends it on ETH0 and in the slot. -/
  | safetyFramePoint
  /-- SAFETY_COPY_RECEIVED (R400): Classifies a received safety copy, acts on stop bits at once and compares second copies. -/
  | safetyCopyReceived (path : Nat) (frame tag : Bytes)
  /-- SKEW_WINDOW_CLOSE (R401): Makes a SEQ single and the connection degraded when its skew window closes with one copy. -/
  | skewWindowClose (conn : Nat)
  /-- TRANSPORT_WATCHDOG_EXPIRY (R402): Raises a transport fault when no new SEQ has arrived within WATCHDOG. -/
  | transportWatchdogExpiry (conn : Nat)
  /-- DEGRADED_HOLD_EXPIRY (R402): Raises a transport fault when a degraded connection has not returned within HOLD. -/
  | degradedHoldExpiry (conn : Nat)
  /-- TRANSPORT_FAULT_CLEAR (R404): Clears a transport fault after 1 s of only paired SEQs. -/
  | transportFaultClear (conn : Nat)
  /-- EDIT_SESSION_TIMEOUT (R408): Ends the safety edit session after 600 s without a write. -/
  | editSessionTimeout
  /-- PASSWORD_LOCKOUT_END (R407): Ends a password lock-out when its operating time has passed. -/
  | passwordLockoutEnd
  /-- LDC_DIAGNOSTIC_EVAL (R421): Evaluates the diagnostics of every load channel each 1 ms. -/
  | ldcDiagnosticEval (vload : Nat) (readings : List LoadReading)
  /-- LDC_SHORT_TO_GROUND (R421): Switches a channel off in hardware when current limitation has been active for 50 µs. -/
  | ldcShortToGround (channel : Nat)
  /-- LDC_OVERTEMPERATURE (R423): Switches a channel off and sets its latch when its sensor reads 170 °C. -/
  | ldcOvertemperature (channel : Nat)
  /-- LDC_LATCH_CLEAR (R423): Clears a channel's overtemperature latch at the third sample below 140 °C. -/
  | ldcLatchClear (channel : Nat)
  /-- LDC_RETRY_DELAY_EXPIRY (R424): Switches a faulted channel on again at the end of its retry delay. -/
  | ldcRetryDelayExpiry (channel : Nat)
  /-- LDC_RETRY_RELOAD (R425): Reloads RETRY_LEFT after 10 s on without a fault. -/
  | ldcRetryReload (channel : Nat)
  /-- LDC_SWITCH_ON_ADMITTED (R427): Admits a waiting switch-on once the package budget and turn-off delays allow. -/
  | ldcSwitchOnAdmitted (channel : Nat)
  /-- LOAD_WATCHDOG_TRIP (R430): Gates every channel off and enters Kickstand 0x0302 when a core's feed lapses 4 ms. -/
  | loadWatchdogTrip (core : Nat)
  /-- LOAD_WATCHDOG_TEST (R431): Tests the load watchdog gate, clearing a latched trip on pass. -/
  | loadWatchdogTest (openUs closeUs : Nat)
  /-- VLOAD_RANGE_CHANGE (R429): Switches every channel off while VLOAD is out of range and resumes them after 10 ms in range. -/
  | vloadRangeChange (inRange : Bool)
  /-- STACK_SWEEP (R441): Starts SNAP and READ_ALL on both chains every 16 epochs. -/
  | stackSweep
  /-- READ_ALL_RETURN (R450): Takes the returned READ_ALL frame, keeping clean slots and rereading from the other end if partial. -/
  | readAllReturn (chain : Nat) (atB : Bool) (frame : Bytes)
  /-- READ_ALL_TIMEOUT (R450): Makes the sweep partial when READ_ALL has not returned by its expected end plus 20 µs. -/
  | readAllTimeout (chain : Nat)
  /-- ENUMERATE_RETURN (R440): Judges the returned enumeration counter and reads companion serials. -/
  | enumerateReturn (chain counter : Nat) (turned : Bool) (companions : List Companion)
  /-- ENUMERATION_RETRY (R440): Repeats WAKE and ENUMERATE after 100 ms, or every 10 s in enumeration fault. -/
  | enumerationRetry (chain : Nat)
  /-- BALANCE_CYCLE (R444): Commands balancing of cells above the window every 10 s. -/
  | balanceCycle
  /-- FAULT_LOOP_OPEN (R448): Takes a filtered open fault loop as a category 0 stop on the buffer pairs. -/
  | faultLoopOpen (chain : Nat)
  /-- FAULT_LOOP_PERMIT_RETURN (R448): Returns the loop permit once the loop has been closed for 1 s. -/
  | faultLoopPermitReturn (chain : Nat)
  /-- NOR_RECORD_COPY (R489): Copies committed records into NOR in SEQ order and frees their commit places. -/
  | norRecordCopy (count : Nat)
  /-- RATE_LIMIT_WINDOW_END (R491): Commits a summary record when a rate-limit window with suppressions ends. -/
  | rateLimitWindowEnd (code : Nat)
  /-- RECORD_CLEAR_EFFECT (R493): Writes a partition's clear floor at the next epoch boundary and commits the clear record. -/
  | recordClearEffect
  /-- HEARTBEAT_ABSENT (R499): Takes the partner's heartbeat as absent after 50 µs without one. -/
  | heartbeatAbsent
  /-- AUTHORITY_CLAIM (R501): Raises TND_AUTH_O to claim authority. -/
  | authorityClaim
  /-- CLAIM_GUARD_END (R501): Holds authority 20 µs after the claim, or resolves a tie by fencing the STANDBY-HUB. -/
  | claimGuardEnd (partnerHigh : Bool)
  /-- BOOT_CLAIM_WAIT_END (R502): Claims after the boot wait with the partner's claim and heartbeat absent. -/
  | bootClaimWaitEnd
  /-- AUTHORITY_TIMER_EXPIRY (R503): Lowers TND_AUTH_O 300 µs after the last launch with new records. -/
  | authorityTimerExpiry
  /-- PARTNER_AUTH_LOST (R504): Claims as STANDBY after TND_AUTH_I has been low 50 µs with the heartbeat absent, or fences on a line failure. -/
  | partnerAuthLost (heartbeat : Bool)
  /-- FENCE_RESOLVED (R505): Leaves FENCED for SYNCING once the fencing condition has been absent for 1 s. -/
  | fenceResolved
  /-- SHADOW_FRAME_RECEIVED (R509): Takes a shadow frame, checking its digest and counting eligible epochs. -/
  | shadowFrameReceived (frame : Machine.ShadowFrame)
  /-- SHADOW_FRAMES_MISSING (R509): Returns a STANDBY part to SYNCING after three missing shadow frames. -/
  | shadowFramesMissing
  /-- BULK_TRANSFER_RECEIVED (R509): Takes the rule table, committed groups and high-water marks on entering SYNCING. -/
  | bulkTransferReceived (rules groups loops : List Bytes) (authGen period : Nat)
  /-- STANDBY_ELIGIBLE (R509): Enters STANDBY after 1,000 clean shadow epochs, making the partner ACTIVE. -/
  | standbyEligible
  /-- SWITCH_OVER_BOUNDARY (R503): Lowers TND_AUTH_O at the boundary after a shadow frame with SWITCH. -/
  | switchOverBoundary
  /-- PELOTON_FRAME (R514): Takes a member's peloton frame in its slot, with grid values and safety frame. -/
  | pelotonFrame (slot : Nat) (frame : Bytes)
  /-- PELOTON_MEMBER_LOST (R518): Takes a member as lost after three missing or faulty frames. -/
  | pelotonMemberLost (member : Nat)
  /-- PLT_SYNC_LOST (R518): Times epochs from the own reference when member 0 is lost. -/
  | pltSyncLost
  /-- VBAT_ABSENT (R527): Takes VBAT below 1.8 V as absent, making wall-time quality low with EV_MTR_TIME and a record. -/
  | vbatAbsent
  /-- VLINE_RANGE_CHANGE (R316): Stops the Spoke-line transmitter and drops the node's joined standing while VLINE is below its range, and restores them on its return. -/
  | vlineRangeChange (inRange : Bool)
  /-- TEST_PULSE_END (R304): Ends a test pulse on PULSE0 or PULSE1 when its width w has elapsed, starting the low time. -/
  | testPulseEnd (output : Nat)
  /-- VEHICLE_LOOP_REQUEST (R224): Takes the vehicle's charge-loop request, updating I_TARGET and the vehicle limits and answering with the grant limits and present voltage. -/
  | vehicleLoopRequest (slot : Nat) (request : VehicleLoop)
  /-- VEHICLE_NEGOTIATION_REQUEST (R221): Takes a vehicle service, parameter or schedule request in NEGOTIATING and answers it with the offered services and limits. -/
  | vehicleNegotiationRequest (slot : Nat) (service : VehicleService) (dynamic : Bool) (limits : VehicleLoop)
      (schedule : List (Nat × Nat))
  /-- SLAC_TIMER_EXPIRY (R210): Reports the SLAC outcome with EV_OUT_SLAC when an ISO 15118-3 timer such as TT_EVSE_SLAC_init expires, taking no further action. -/
  | slacTimerExpiry (slot : Nat)
  /-- ERRONEOUS_WINDOW_READ (R46): Answers a quad-SPI read that is misaligned, partial, reserved, beyond 0xFF_FFFF or on an unbound channel's rings with 0 and sets WIN_ERR. -/
  | erroneousWindowRead (address count : Nat)
  /-- PARTNER_CLAIM_SEEN (R500): Disables the shared ball-group drivers within 1 µs when TND_AUTH_I rises while the part holds authority. -/
  | partnerClaimSeen
deriving DecidableEq, Repr

end Sys2Proof
end

