-- ==== Sys2Proof/Decode.lean ====
section
/-!
DEFINITION. The command that a word spells by the bits of spec/opcode_table.json. The commands of this block are frames
of bytes and events, and the table gives none of its rows any bits.
-/
namespace Sys2Proof

/-- The command that a word of the table spells: none, for no row has bits. -/
def decodeTableWord (_nbits _w : Nat) : Option Instr := none

end Sys2Proof
end

