-- ==== Sys2Proof/Machine/Layout.lean ====
section
/-!
DEFINITION. Fields of the entries that the spec lays out in bytes, by the names of its layout tables.
-/
namespace Sys2Proof.Machine

/-! ### Rule (R126) -/
def ruleKind (b : Bytes) : Nat := g8 b 0
def ruleEnabled (b : Bytes) : Bool := bit (g8 b 1) 0
def ruleDirection (b : Bytes) : Nat := field (g8 b 1) 1 2
def ruleOutlets (b : Bytes) : Nat := g16 b 2
def ruleClassMin (b : Bytes) : Nat := g8 b 4
def ruleClassMax (b : Bytes) : Nat := g8 b 5
def ruleStart (b : Bytes) : Nat := g16 b 6
def ruleEnd (b : Bytes) : Nat := g16 b 8
/-- Parameters P1 to P4, numbered 0 to 3. -/
def ruleP (b : Bytes) (i : Nat) : Int := gi32 b (12 + 4 * i)

/-! ### Ring-position entry (R130) -/
/-- Ring position 0 to 47 of a POSITION byte. -/
def posIndex (byte : Nat) : Nat := 24 * (byte / 128) + (byte % 32 - 1)
/-- POSITION byte of a ring position. -/
def posByte (idx : Nat) : Nat := idx / 24 * 128 + idx % 24 + 1
def posKind (b : Bytes) : Nat := g8 b 1
def posReach (b : Bytes) : Nat := g16 b 2
def posRating (b : Bytes) : Nat := g16 b 4
/-- RATED_CURRENT, A. -/
def posCurrent (b : Bytes) : Nat := g16 b 6
def posRamp (b : Bytes) : Nat := g16 b 8
/-- The entry of ring position `idx`, where one is configured. -/
def posEntry (l : List Bytes) (idx : Nat) : Option Bytes := l.find? fun b => posKind b != 0 && posIndex (g8 b 0) == idx

/-! ### Site entry with its defaults (R130) -/
def siteImport (t : SiteCfg) : Nat := t.contractImport.getD 0
def siteExport (t : SiteCfg) : Nat := t.contractExport.getD 0
def siteFallbackImport (t : SiteCfg) : Nat := t.fallbackImport.getD (siteImport t)
def siteFallbackExport (t : SiteCfg) : Nat := t.fallbackExport.getD (siteExport t)
def siteFeeder (t : SiteCfg) (i : Nat) : Nat := (nth t.feederLimit i).getD (siteImport t)
/-- Stage headroom: by default the largest RATING among the converter stages, or 625 where none is configured. -/
def stageHeadroom (t : SiteCfg) (positions : List Bytes) : Nat :=
  let ratings := (positions.filter fun b => posKind b == 1).map posRating
  t.headroom.getD (if ratings.isEmpty then 625 else ratings.foldl max 0)

/-! ### Outlet entry (R130) -/
def outNumber (b : Bytes) : Nat := g8 b 0
def outPost (b : Bytes) : Nat := g8 b 1
/-- RATED_CURRENT, A. -/
def outCurrent (b : Bytes) : Nat := g16 b 2
/-- RATED_VOLTAGE, V. -/
def outVoltage (b : Bytes) : Nat := g16 b 4
def outVMin (b : Bytes) : Nat := g16 b 6
def outRampUp (b : Bytes) : Nat := g16 b 8
def outHold (b : Bytes) : Nat := g8 b 10
def outClass (b : Bytes) : Nat := g8 b 11
/-- The entry of outlet `n`, where one is configured. -/
def outEntry (l : List Bytes) (n : Nat) : Option Bytes := l.find? fun b => outNumber b == n

/-! ### Group descriptor (R151) -/
def gSink (b : Bytes) : Nat := g8 b 1
def gTarget (b : Bytes) : Nat := g8 b 2
/-- DIRECTIONS, its reserved bits ignored (R6). -/
def gDirections (b : Bytes) : Nat := g8 b 3 % 4
def gTick (b : Bytes) : Nat := g16 b 4
/-- ZERO_HOLD in ms; 0 selects 20. -/
def gZeroHold (b : Bytes) : Nat := if g16 b 6 = 0 then 20 else g16 b 6
/-- FULL_SCALE, 0.1 A. -/
def gFullScale (b : Bytes) : Nat := g32 b 8
def gMax (b : Bytes) : Int := gi32 b 12
def gSlew (b : Bytes) : Int := gi32 b 16
def gStopStep (b : Bytes) : Int := gi32 b 20
/-- ZERO_BAND, 0.1 A. -/
def gZeroBand (b : Bytes) : Nat := g32 b 24

/-! ### Outlet request and grant (chapter 09) -/
def reqOutlet (b : Bytes) : Nat := g8 b 0
def reqState (b : Bytes) : Nat := g8 b 1
def reqMode (b : Bytes) : Nat := g8 b 2
def reqClass (b : Bytes) : Nat := g8 b 3
def reqITarget (b : Bytes) : Nat := g16 b 4
def reqIMax (b : Bytes) : Nat := g16 b 6
def reqVMax (b : Bytes) : Nat := g16 b 8
def reqPMax (b : Bytes) : Nat := g16 b 10
def reqPSched (b : Bytes) : Nat := g16 b 12
def reqPDisch (b : Bytes) : Nat := g16 b 14
def reqDepart (b : Bytes) : Nat := g32 b 16
def reqITherm (b : Bytes) : Nat := g16 b 20
def reqVVeh (b : Bytes) : Nat := g16 b 22
def reqSession (b : Bytes) : Nat := g32 b 24
def reqBidir (b : Bytes) : Bool := bit (g8 b 28) 0
def reqStop (b : Bytes) : Bool := bit (g8 b 28) 1
def grOutlet (b : Bytes) : Nat := g8 b 0
def grDirection (b : Bytes) : Nat := g8 b 1
def grState (b : Bytes) : Nat := g8 b 3
def grP (b : Bytes) : Nat := g16 b 4
def grI (b : Bytes) : Nat := g16 b 6
def grEpoch (b : Bytes) : Nat := g32 b 8

/-! ### Inbound slot of a stage (chapter 07) -/
/-- I_OUT, 0.1 A. -/
def slI (b : Bytes) : Int := gi16 b 0
/-- V_OUT, 0.1 V. -/
def slV (b : Bytes) : Nat := g16 b 2
def slHealthy (b : Bytes) : Bool := bit (g8 b 8) 0
def slFaultBit (b : Bytes) : Bool := bit (g8 b 8) 3
def slContact (b : Bytes) : Nat := field (g8 b 10) 0 4
def slMoving (b : Bytes) : Bool := bit (g8 b 10) 4
def slFeedback (b : Bytes) : Bool := bit (g8 b 10) 5
def slEcho (b : Bytes) : Nat := g8 b 11
def slFault (b : Bytes) : Nat := g8 b 12
def slHop (b : Bytes) : Nat := g8 b 13

/-! ### Vehicle-link entry (R217) -/
def lkType (b : Bytes) : Nat := g8 b 1
def lkProtocols (b : Bytes) : Nat := g8 b 2
def lkServices (b : Bytes) : Nat := g8 b 3
def lkFilter (b : Bytes) : Nat := g8 b 4
def lkAttenMax (b : Bytes) : Nat := g8 b 6
def lkSlacInit (b : Bytes) : Nat := g8 b 7
def lkVid (b : Bytes) : Nat := g16 b 8
def lkGpio (b : Bytes) : Nat := g8 b 10
/-- Proximity edge E0 to E3. -/
def lkE (b : Bytes) (i : Nat) : Nat := g16 b (12 + 2 * i)
/-- Charge-enable edge C0 to C3. -/
def lkC (b : Bytes) (i : Nat) : Nat := g16 b (20 + 2 * i)

/-! ### Session entry (R225) -/
def seSoPos (b : Bytes) : Nat := g8 b 1
def seSoNeg (b : Bytes) : Nat := g8 b 2
def seMirror (b : Bytes) : Nat := g8 b 3
def seImdSi (b : Bytes) : Nat := g8 b 5
/-- V_WT, V. -/
def seVwt (b : Bytes) : Nat := g16 b 8
/-- I_OPEN, 0.1 A. -/
def seIOpen (b : Bytes) : Nat := g16 b 10
def seEndTimeout (b : Bytes) : Nat := g16 b 12
def seHubTimeout (b : Bytes) : Nat := g16 b 14
def seImdChannel (b : Bytes) : Nat := g8 b 4
def seImdScale (b : Bytes) : Nat := g16 b 6
def seAuthTimeout (b : Bytes) : Nat := g16 b 16
def seCheckMax (b : Bytes) : Nat := g16 b 18
def seImdSettle (b : Bytes) : Nat := g16 b 20
def seRenegHold (b : Bytes) : Nat := g8 b 23
def seRenegBand (b : Bytes) : Nat := g8 b 22
def sePrechargeI (b : Bytes) : Nat := g16 b 24
def seFlags (b : Bytes) : Nat := g8 b 26

/-! ### Thermal entries (chapter 10) -/
def tinType (b : Bytes) : Nat := g8 b 1
def tinSlot (b : Bytes) : Nat := g8 b 3
def tinUse (b : Bytes) : Nat := g8 b 2
def tinGroup (b : Bytes) : Nat := g8 b 4
def tinMargin (b : Bytes) : Nat := g8 b 5
/-- NTC_RNOM, ohm, and NTC_B, K. -/
def tinRnom (b : Bytes) : Nat := g16 b 6
def tinB (b : Bytes) : Nat := g16 b 8
def tinLo (b : Bytes) : Int := gi16 b 10
def tinHi (b : Bytes) : Int := gi16 b 12
def finUse (b : Bytes) : Nat := g8 b 1
def finPulses (b : Bytes) : Nat := g16 b 2
def finMax (b : Bytes) : Nat := g16 b 4
def finSlot (b : Bytes) : Nat := g8 b 6
def thKind (b : Bytes) : Nat := g8 b 1
def thSource (b : Bytes) : Nat := g8 b 2
def thType (b : Bytes) : Nat := g8 b 3
def thAction (b : Bytes) : Nat := g8 b 4
def thSlot (b : Bytes) : Nat := g8 b 5
def thLevel (b : Bytes) : Int := gi16 b 6
def thHyst (b : Bytes) : Nat := g16 b 8
def thDerate (b : Bytes) : Nat := g16 b 10
def thWindow (b : Bytes) : Nat := g8 b 12
def thNear (b : Bytes) : Nat := g8 b 13
def htObserver (b : Bytes) : Bool := bit (g8 b 1) 0
def htLimit (b : Bytes) : Nat := g16 b 2
def htDerate (b : Bytes) : Nat := g16 b 4
def htStop (b : Bytes) : Nat := g16 b 6
def htFailedI (b : Bytes) : Nat := g16 b 8
def htRise (b : Bytes) : Nat := g16 b 10
def htHotSlot (b : Bytes) : Nat := g8 b 12
def htMeanSlot (b : Bytes) : Nat := g8 b 13
def htTinIn (b : Bytes) : Nat := g8 b 14
def htTinOut (b : Bytes) : Nat := g8 b 15
def htFlow (b : Bytes) : Nat := g8 b 16
def htCap (b : Bytes) : Nat := g16 b 18
def htRes (b : Bytes) : Nat := g32 b 20
def htAlpha (b : Bytes) : Nat := g16 b 24
def htLossFs (b : Bytes) : Nat := g16 b 26
def htRemFs (b : Bytes) : Nat := g16 b 28

/-- The entry whose first byte is `i`, in a list of entries. -/
def entryAt (l : List Bytes) (i : Nat) : Option Bytes := l.find? fun b => b != [] && g8 b 0 == i

end Sys2Proof.Machine
end

