-- ==== Sys2Proof/Machine/CadMath.lean ====
section
/-!
DEFINITION. The arithmetic of the Cadence engine (R140 to R148), the reading of descriptors (R147), and water-filling
in exact fractions (R119, R157).
-/
namespace Sys2Proof.Machine

/-- 1.0 in Q3.28. -/
abbrev one28 : Int := 268435456
/-- Limits of Q3.28 (R143). -/
abbrev q28Min : Int := -2147483648
abbrev q28Max : Int := 2147483647
/-- Limits of the accumulator, Q11.36 in 48 bits (R143). -/
abbrev accMin : Int := -140737488355328
abbrev accMax : Int := 140737488355327

/-- Saturation of a value at the Q3.28 limits, with whether it clamped. -/
def sat28 (x : Int) : Int × Bool :=
  if x < q28Min then (q28Min, true) else if q28Max < x then (q28Max, true) else (x, false)

/-- A saturating addition of the accumulator, with the ACC_SAT condition so far (R145). -/
def accAdd (st : Int × Bool) (p : Int) : Int × Bool :=
  if st.1 + p < accMin then (accMin, true) else if accMax < st.1 + p then (accMax, true) else (st.1 + p, st.2)

/-- Adding the rounded products of one row in column order (R143, R144, R145). -/
def accRow (st : Int × Bool) (cs xs : List Int) : Int × Bool :=
  (cs.zip xs).foldl (fun st cx => accAdd st (roundShift (cx.1 * cx.2) 20)) st

/-- The finished accumulator in Q3.28, with whether it clamped (R145). -/
def accOut (st : Int × Bool) : Int × Bool := sat28 (roundShift st.1 8)

/-- A row with every coefficient negated (R145). -/
def negRow (cs : List Int) : List Int := cs.map fun c => -c

/-- The Q3.28 pattern of a raw value under a binding's scale (R148), with whether it clamped. -/
def scaleIn (v e m : Int) : Int × Bool :=
  if 0 ≤ e - 2 then sat28 (v * m * 2 ^ (e - 2).toNat) else sat28 (roundShift (v * m) (2 - e).toNat)

/-! ### Flags (R146) -/
abbrev flAcc : Nat := 1
abbrev flState : Nat := 2
abbrev flOut : Nat := 4
abbrev flSel : Nat := 8
abbrev flOverrun : Nat := 16

/-- A flag bit on a condition. -/
def flagIf (c : Bool) (f : Nat) : Nat := if c then f else 0

/-- Step 1 and 2 for one measured row: the innovation and the flags (R142). -/
def innovation (crow x : List Int) (z : Int) : Int × Nat :=
  let acc := accRow (0, false) crow x
  let y := accOut acc
  let e := sat28 (z - y.1)
  (e.1, flagIf acc.2 flAcc ||| flagIf y.2 flState ||| flagIf e.2 flAcc)

/-- Steps 1 and 2 of a loop: e, with the flags. -/
def stepInnovation (l : Loop) (z : List Int) : List Int × Nat :=
  let r := (l.c.zip (z.take l.p)).map fun cz => innovation cz.1 l.x cz.2
  (r.map (·.1) ++ z.drop l.p, r.foldl (fun f x => f ||| x.2) 0)

/-- One output of step 3: -K x + N r (R140, R145). -/
def outputRow (krow nrow x r : List Int) : Int × Nat :=
  let acc := accRow (accRow (0, false) (negRow krow) x) nrow r
  let u := accOut acc
  (u.1, flagIf acc.2 flAcc ||| flagIf u.2 flOut)

/-- Step 3 of a loop: u, with the flags. The references are the last q elements of z. -/
def stepOutput (l : Loop) (z : List Int) : List Int × Nat :=
  let r := (List.range l.m).map fun j => outputRow (nth l.k j) (nth l.r j) l.x (z.drop l.p)
  (r.map (·.1), r.foldl (fun f x => f ||| x.2) 0)

/-- One state of step 5: A x + B u' + L e + T g - T u_s, in that order (R145). -/
def stateRow (l : Loop) (i : Nat) (ubar e : List Int) (g us : Int) : Int × Nat :=
  let acc := accRow (accRow (accRow (0, false) (nth l.a i) l.x) (nth l.b i) ubar) (nth l.l i) e
  let acc := accRow acc [nth l.t i, -(nth l.t i)] [g, us]
  let x := accOut acc
  (x.1, flagIf acc.2 flAcc ||| flagIf x.2 flState)

/-- Step 5 of a loop: the new state, with the flags. -/
def stepState (l : Loop) (u e : List Int) (g : Int) : List Int × Nat :=
  let us := nth u l.sel
  let ubar := u.set l.sel g
  let r := (List.range l.n).map fun i => stateRow l i ubar e g us
  (r.map (·.1), r.foldl (fun f x => f ||| x.2) 0)

/-! ### Descriptors (R147) -/

/-- Rows and columns of a matrix in a descriptor. -/
def matrixAt (b : Bytes) (base stride rows cols : Nat) : List (List Int) :=
  (List.range rows).map fun i => (List.range cols).map fun j => gi32 b (base + stride * i + 4 * j)

/-- A column of coefficients in a descriptor. -/
def columnAt (b : Bytes) (base rows : Nat) : List Int := (List.range rows).map fun i => gi32 b (base + 4 * i)

/-- A loop descriptor taken apart; its state starts from X0 (R147, R169). -/
def loopOf (b : Bytes) : Loop :=
  let n := g8 b 2
  let m := g8 b 3
  let p := g8 b 4
  let q := g8 b 5
  { desc := b, group := g8 b 1, n := n, m := m, p := p, q := q, sel := g8 b 6, enabled := bit (g8 b 7) 0
    inp := (List.range (p + q)).map fun i => (g16 b (16 + 8 * i), gi8 b (19 + 8 * i), gi32 b (20 + 8 * i))
    out := (List.range m).map fun j => g16 b (80 + 8 * j)
    a := matrixAt b 0x100 64 n n
    b := matrixAt b 0x500 32 n m
    c := matrixAt b 0x700 64 p n
    l := matrixAt b 0x900 32 n (p + q)
    k := matrixAt b 0xB00 64 m n
    r := matrixAt b 0xD00 32 m q
    t := columnAt b 0xE00 n
    x0 := columnAt b 0xE40 n
    x := columnAt b 0xE40 n
    u := List.replicate m 0 }

/-- A descriptor describes a loop at all: N_STATE is not 0. -/
def loopUsed (b : Bytes) : Bool := b != [] && g8 b 2 != 0

/-- A group descriptor describes a group: SINK is not 0. -/
def groupUsed (b : Bytes) : Bool := b != [] && gSink b != 0

/-! ### Cost (R166, R167) -/

/-- c_loop of a descriptor (R166). -/
def costLoop (n m p q : Nat) : Nat := n * n + n * (2 * p + q) + 2 * m * n + m * q + n + 48

/-- c_loop of a loop descriptor. -/
def costOf (b : Bytes) : Nat := costLoop (g8 b 2) (g8 b 3) (g8 b 4) (g8 b 5)

/-! ### Exact fractions and water-filling -/

/-- A non-negative fraction: numerator and denominator. -/
structure Frac where
  num : Nat
  den : Nat
deriving DecidableEq, Repr, Inhabited

def Frac.add (a b : Frac) : Frac := if a.den = b.den then ⟨a.num + b.num, a.den⟩ else ⟨a.num * b.den + b.num * a.den, a.den * b.den⟩
def Frac.sub (a b : Frac) : Frac := if a.den = b.den then ⟨a.num - b.num, a.den⟩ else ⟨a.num * b.den - b.num * a.den, a.den * b.den⟩
/-- a at least b. -/
def Frac.ge (a b : Frac) : Bool := b.num * a.den ≤ a.num * b.den
/-- Rounded down. -/
def Frac.floor (a : Frac) : Nat := a.num / a.den

/-- A taker in water-filling: its name, weight and cap. -/
structure Taker where
  id : Nat
  weight : Nat
  cap : Frac
deriving DecidableEq, Repr, Inhabited

/-- The share of one open taker: weight x remainder / sum of the open weights. -/
def share (r : Frac) (total weight : Nat) : Frac := ⟨weight * r.num, total * r.den⟩

/-- Water-filling (R119, R157): the given amount of each taker, rounded down. `fuel` bounds the rounds; every round but
the last caps at least one taker. -/
def waterFill : Nat → Frac → List Taker → List (Nat × Nat)
  | 0, _, _ => []
  | fuel + 1, r, takers =>
    let total := (takers.map (·.weight)).sum
    if total = 0 then takers.map fun t => (t.id, 0)
    else
      let capped := takers.filter fun t => (share r total t.weight).ge t.cap
      if capped.isEmpty then takers.map fun t => (t.id, (share r total t.weight).floor)
      else
        capped.map (fun t => (t.id, t.cap.floor)) ++
          waterFill fuel (capped.foldl (fun r t => r.sub t.cap) r)
            (takers.filter fun t => !(share r total t.weight).ge t.cap)

end Sys2Proof.Machine
end

