-- ==== Sys2Proof/Machine/CadCheck.lean ====
section
/-!
DEFINITION. Checks of loop and group descriptors and of the Cadence budget (R147 to R152, R166, R167, R257).
-/
namespace Sys2Proof.Machine

/-- Bytes [off, off + len) are zero. -/
def zeroAt (b : Bytes) (off len : Nat) : Bool := allZero (slice b off len)

/-- Every entry of a stored matrix outside its configured rows and columns is 0 (R147). -/
def zeroOutside (b : Bytes) (base stride allRows allCols rows cols : Nat) : Bool :=
  (List.range allRows).all fun i => (List.range allCols).all fun j => (i < rows && j < cols) || g32 b (base + stride * i + 4 * j) == 0

/-- An input source of the table of input sources; some exist only in a part that holds the Derailleur (R149). -/
def sourceOk (hub : Bool) (src : Nat) : Bool :=
  let n := src % 256
  match src / 256 with
  | 0x00 => n == 0xFF
  | 0x01 => hub && n < 16
  | 0x02 => hub && n < 16
  | 0x03 => n < 40
  | 0x05 => n < 32
  | 0x06 => n < 8
  | 0x07 => n < 16
  | 0x16 => n < 32
  | h => hub && 0x10 ≤ h && h ≤ 0x15 && n < 16

/-- An output destination (R150); slots 10 to 15 belong to the heat function in a part with local outlets (R257). -/
def destOk (localOutlets : Bool) (d : Nat) : Bool :=
  d == 0 || (d / 256 == 7 && d % 256 < 16 && !(localOutlets && 10 ≤ d % 256)) || (d / 256 == 8 && d % 256 < 16)

/-- A loop descriptor keeps R147 to R150; its reserved fields are ignored (R6). -/
def loopDescOk (hub localOutlets : Bool) (idx : Nat) (b : Bytes) : Bool :=
  let n := g8 b 2
  let m := g8 b 3
  let p := g8 b 4
  let q := g8 b 5
  b.length == 4096 && g8 b 0 == idx && g8 b 1 < 16 && 1 ≤ n && n ≤ 16 && 1 ≤ m && m ≤ 8 && p ≤ 8 && q ≤ 8 &&
    1 ≤ p + q && p + q ≤ 8 && g8 b 6 < m && g8 b 8 ≤ 6 &&
    ((List.range 8).all fun i => if i < p + q then sourceOk hub (g16 b (16 + 8 * i)) else g16 b (16 + 8 * i) == 0) &&
    ((List.range 8).all fun j => if j < m then destOk localOutlets (g16 b (80 + 8 * j)) else g16 b (80 + 8 * j) == 0) &&
    zeroOutside b 0x100 64 16 16 n n && zeroOutside b 0x500 32 16 8 n m && zeroOutside b 0x700 64 8 16 p n &&
    zeroOutside b 0x900 32 16 8 n (p + q) && zeroOutside b 0xB00 64 8 16 m n && zeroOutside b 0xD00 32 8 8 m q &&
    zeroOutside b 0xE00 4 16 1 n 1 && zeroOutside b 0xE40 4 16 1 n 1

/-- A group descriptor keeps R151; its reserved fields are ignored (R6). -/
def groupDescOk (idx : Nat) (b : Bytes) : Bool :=
  b.length == 64 && g8 b 0 == idx && gSink b ≤ 3 && 20 ≤ gTick b && gTick b ≤ 200 &&
    match gSink b with
    | 1 => ((1 ≤ gTarget b && gTarget b ≤ 12) || gTarget b == 0x80) && (g16 b 6 == 0 || (10 ≤ g16 b 6 && g16 b 6 ≤ 1000)) &&
        0 < gFullScale b && 0 < gMax b && 0 ≤ gSlew b && 0 < gStopStep b
    | 2 => gTarget b < 8 && (g16 b 6 == 0 || (10 ≤ g16 b 6 && g16 b 6 ≤ 1000)) && 0 < gMax b && gMax b ≤ one28 &&
        0 ≤ gSlew b && 0 < gStopStep b
    | 3 => gTarget b == 0
    | _ => true

/-- No two entries of a list are equal. -/
def allDistinct : List Nat → Bool
  | [] => true
  | x :: l => !l.contains x && allDistinct l

/-- The Cadence configuration as a whole: the descriptors of groups and loops by index. -/
structure CadConfig where
  role : Nat
  tick : Nat
  positions : List Bytes
  outlets : List Bytes
  loops : List Bytes
  groups : List Bytes

/-- The used loops of a group. -/
def configLoops (c : CadConfig) (g : Nat) : List Bytes := c.loops.filter fun b => loopUsed b && g8 b 1 == g

/-- The used groups with their numbers. -/
def configGroups (c : CadConfig) : List Bytes := c.groups.filter groupUsed

/-- A SINK 1 group in a part that drives no stages, or for an outlet the part does not own (R152). -/
def groupNotOwned (c : CadConfig) (b : Bytes) : Bool :=
  gSink b == 1 && (c.role == 2 || (gTarget b != 0x80 && !(c.outlets.any fun e => g8 e 0 == gTarget b)))

/-- The destinations a loop writes, each once; a loop may name one twice (R150). -/
def loopDests (b : Bytes) : List Nat := (((List.range (g8 b 3)).map fun j => g16 b (80 + 8 * j)).filter (· != 0)).eraseDups

/-- Relations between descriptors (R150, R152). -/
def configRelations (c : CadConfig) : Bool :=
  let gs := configGroups c
  (gs.all fun b => gSink b != 1 || gTick b == c.tick) &&
    allDistinct ((gs.filter fun b => gSink b == 1).map gTarget) && allDistinct ((gs.filter fun b => gSink b == 2).map gTarget) &&
    ((List.range 16).all fun g => (configLoops c g).length ≤ 8) &&
    ((c.loops.filter loopUsed).all fun b => gs.any fun g => g8 g 0 == g8 b 1) &&
    allDistinct ((c.loops.filter loopUsed).flatMap loopDests) &&
    ((c.loops.filter loopUsed).all fun b =>
      (gs.any fun g => g8 g 0 == g8 b 1 && gSink g == 3) || g16 b (80 + 8 * g8 b 6) == 0)

/-- S of a group (R166). -/
def costStages (c : CadConfig) (b : Bytes) : Nat :=
  if gSink b != 1 then 0 else if gTarget b = 0x80 then 1
  else (c.positions.filter fun e => posKind e != 0 && bit (posReach e) (gTarget b - 1)).length

/-- c_group (R166). -/
def costGroup (c : CadConfig) (b : Bytes) : Nat := 64 + 6 * costStages c b + ((configLoops c (g8 b 0)).map costOf).sum

/-- The largest c_loop. -/
def costMax (c : CadConfig) : Nat := ((c.loops.filter loopUsed).map costOf).foldl max 0

/-- The demand of R167 within one tick of `t` microseconds. -/
def cadDemand (c : CadConfig) (t : Nat) : Nat :=
  ((configGroups c).map fun h => costGroup c h * ((t + gTick h - 1) / max 1 (gTick h))).sum + costMax c

/-- The Cadence budget holds in every group's tick (R167): 0.85 x 2,000 MAC per microsecond. -/
def cadBudget (c : CadConfig) : Bool := (configGroups c).all fun g => cadDemand c (gTick g) ≤ 1700 * gTick g

/-- The status with which a Cadence configuration is refused, if it is. -/
def cadVerdict (c : CadConfig) : Option Nat :=
  if (configGroups c).any (groupNotOwned c) then some 0x41
  else if !((c.groups.zipIdx.all fun x => !groupUsed x.1 || groupDescOk x.2 x.1) &&
      (c.loops.zipIdx.all fun x => !loopUsed x.1 || loopDescOk (c.role != 2) (c.role == 2 || c.role == 3 || c.role == 6) x.2 x.1) &&
      configRelations c) then some 0x12
  else if !cadBudget c then some 0x40
  else none

end Sys2Proof.Machine
end

