-- ==== Sys2Proof/Machine/TypesMeter.lean ====
section
/-!
DEFINITION. State of the metrology core (chapter 11): channels, points, registers, records, commit block and sealed
parameters. Each field's note reads: what it is | width | rule | value at reset.
-/
namespace Sys2Proof.Machine

/-- The four energy registers of a point, each in 2^-32 mWh: 64 bits of whole mWh and 32 bits of fraction (R288). -/
structure Regs where
  eImp : Nat := 0
  eExp : Nat := 0
  lImp : Nat := 0
  lExp : Nat := 0
deriving DecidableEq, Repr, Inhabited

/-- A modulator channel (R278 to R283). -/
structure MChan where
  /-- integrators of the sinc3 decimator, and what its combs keep | 2 x 3 signed values | R279 | 0 -/
  integ : Int × Int × Int := (0, 0, 0)
  comb : Int × Int × Int := (0, 0, 0)
  /-- last three decimated values, newest first, Q0.31 of full scale | - | R279 | 0 -/
  hist : List Int := [0, 0, 0]
  /-- corrected value, 2^-8 mV or mA, or 2^-24 of full scale | - | R283 | 0 -/
  fine : Int := 0
  /-- consecutive faulted and consecutive good samples | 2 counts | R280 | 0 -/
  bad : Nat := 0
  good : Nat := 0
  /-- the channel is faulted | 1 bit | R280 | 0 -/
  faulted : Bool := false
  /-- in fallback mode | 1 bit | R282 | DESIGN CHOICE 1 until the first sample (log entry 8) -/
  fallback : Bool := true
  /-- temperature in use, 0.01 degC | signed 16 bits | R281, R312 | 0 -/
  temp : Int := 0
deriving DecidableEq, Repr, Inhabited

/-- Where a session was cut off: what the commit block in force at the boot shows (R90, R296). -/
structure Cut where
  regs : Regs := {}
  opSeconds : Nat := 0
  wall : Int := 0
  kind : Nat := 0
deriving DecidableEq, Repr, Inhabited

/-- A record under construction: a session's, or a running interval (R293 to R298). -/
structure OpenRec where
  session : Nat := 0
  opStart : Nat := 0
  wallStart : Int := 0
  cycStart : Nat := 0
  goodStart : Bool := false
  start : List Nat := [0, 0, 0, 0]
  /-- flags collected so far (table of record flags) -/
  flags : Nat := 0
  reversals : Nat := 0
  fb : Nat := 0
  lcfb : Nat := 0
  fault : Nat := 0
  /-- protocol, method and identifier of a session (R235) -/
  protocol : Nat := 0
  method : Nat := 0
  ident : Bytes := []
  /-- wall time of the boundary at which an interval closes -/
  boundary : Int := 0
  /-- where an interrupted session ended; none while it runs -/
  cut : Option Cut := none
deriving DecidableEq, Repr, Inhabited

/-- A metering record (record layout). -/
structure MRec where
  mseq : Nat
  kind : Nat
  point : Nat
  flags : Nat
  session : Nat
  opStart : Nat
  opEnd : Nat
  wallStart : Int
  wallEnd : Int
  cycStart : Nat
  cycEnd : Nat
  protocol : Nat
  method : Nat
  endFirst : Nat
  endCode : Nat
  reversals : Nat
  wallQ : Nat
  start : List Nat
  stop : List Nat
  ident : Bytes
  fb : Nat
  lcfb : Nat
  fault : Nat
  legalCount : Nat
  legalDigest : Bytes
  merged : Nat := 0
  /-- CRC failed, or uncorrectable MRAM error -/
  bad : Bool := false
deriving DecidableEq, Repr, Inhabited

/-- A meter point (R284 to R289). -/
structure MPoint where
  /-- energy registers | 4 x 96 bits | R288 | as last committed (R290) -/
  regs : Regs := {}
  /-- power of the last 8 samples, newest first, 2^-16 uW | - | R287, R304 | 0 -/
  last8 : List Int := List.replicate 8 0
  /-- power of the samples of the running epoch: sum and number | - | R287 | 0 -/
  epSum : Int := 0
  epN : Nat := 0
  /-- energy of the running mains cycle: sum of p, samples, sum of |current sum| | - | R285 | 0 -/
  cySum : Int := 0
  cyN : Nat := 0
  cyRes : Int := 0
  /-- the crossing detector is armed; last L1 voltage | - | R285 | 0 -/
  armed : Bool := false
  lastV : Int := 0
  /-- fraction of a sample, in 2^-20, of the last crossing; none before the first | - | R287 | none -/
  cross : Option Nat := none
  /-- length of the last complete cycle, 2^-20 samples; none before the first | - | R287 | none -/
  cycle : Option Nat := none
  /-- direction established: 0 none, 1 import, 2 export | 8 bits | R286 | 0 -/
  dir : Nat := 0
  /-- direction of the present run and its length | - | R286 | 0 -/
  runDir : Nat := 0
  run : Nat := 0
  /-- running interval | - | R297 | none -/
  interval : Option OpenRec := none
deriving DecidableEq, Repr, Inhabited

/-- A test pulse output (R303, R304). -/
structure Pulse where
  /-- accumulator, 2^-32 mWh x pulses per kWh | - | R303 | 0 -/
  acc : Nat := 0
  /-- pending pulses | count | R303 | 0 -/
  waiting : Nat := 0
  /-- PULSEn is high | 1 bit | R304 | 0 -/
  high : Bool := false
  /-- width of the present or last pulse, us | - | R304 | 0 -/
  width : Nat := 0
deriving DecidableEq, Repr, Inhabited

/-- Metrology state that a reset clears. -/
structure Mtr where
  /-- metering runs: from the end of image verification | 1 bit | R80, R296 | 0 -/
  running : Bool := false
  /-- the 40 channels | - | R278 | see MChan -/
  chans : List MChan := List.replicate 40 {}
  /-- corrected samples delivered, mV, mA or 2^-24 of full scale | 40 x signed 32 bits | R283 | 0 -/
  samples : List Int := List.replicate 40 0
  /-- the points, by number; 7 does not exist | 11 | R276 | see MPoint -/
  points : List MPoint := List.replicate 11 {}
  /-- open session records of the outlet slots | 3 | R295 | none -/
  sessions : List (Option OpenRec) := [none, none, none]
  /-- closed session records that found no place | - | R294 | none -/
  waiting : List MRec := []
  /-- PULSE0 and PULSE1 | 2 | R303 | 0 -/
  pulses : List Pulse := [{}, {}]
  /-- feeder power delivered at the boundary, kW; none where none was | 2 | R287 | none -/
  feederKw : List (Option Int) := [none, none]
  /-- frequency delivered at the boundary, mHz | - | R287 | none -/
  freqMilli : Option Nat := none
  /-- samples still to be treated as faulted after a change of the modulator clocks' driver | 0 to 3 | R511 | 0 -/
  takeover : Nat := 0
  /-- slew that remains, ms | signed | R298 | 0 -/
  slew : Int := 0
  /-- a step waits for the next sample marker | - | R298 | none -/
  step : Option Int := none
  /-- rendering kept per channel: MSEQ, format, bytes | 4 | R313 | none -/
  rendered : List (Option (Nat × Nat × Bytes)) := [none, none, none, none]
deriving DecidableEq, Repr

/-- A copy of the commit block (R290). -/
structure MCommit where
  /-- no uncorrectable error is found in the copy (R40, R290) -/
  readable : Bool := true
  /-- TAG: none for the tag that R459 gives over the block, some for other bytes in the cells -/
  tag : Option Bytes := none
  generation : Nat := 0
  regs : List Regs := List.replicate 11 {}
  sessions : List (Option OpenRec) := [none, none, none]
  /-- running intervals, which R296 closes from the block (log entry 16) -/
  intervals : List (Option OpenRec) := List.replicate 11 none
  /-- closed session records that wait for a place in the ring (R294, log entry 16) -/
  waiting : List MRec := []
  head : Nat := 1
  tail : Nat := 1
  wall : Int := 0
  opSeconds : Nat := 0
  kind : Nat := 0
deriving DecidableEq, Repr, Inhabited

/-- Metrology area of MRAM: commit copies, record ring, sealed parameters. -/
structure MtrNv where
  /-- commit block, copies A and B | 2 x 8 KiB | R290 | DESIGN CHOICE registers 0, MSEQ 1 (log entry 8) -/
  copies : List MCommit := [{}, {}]
  /-- next MSEQ and oldest unacknowledged MSEQ | 2 x 64 bits | R293 | 1 -/
  head : Nat := 1
  tail : Nat := 1
  /-- records held, oldest first | 960 places of 256 bytes | R293 | none -/
  ring : List MRec := []
  /-- retired MSEQ and the MSEQ of the record that holds its energy | - | R294 | none -/
  retired : List (Nat × Nat) := []
  /-- sealed header | 24 bytes | R306, log entry 15 | DESIGN CHOICE interval 15 min, no pulse outputs (log entry 8) -/
  header : Bytes := [15, 0, 0, 0] ++ [255, 0, 0, 0, 0, 0, 0, 0, 0, 0] ++ [255, 0, 0, 0, 0, 0, 0, 0, 0, 0]
  /-- channel entries | 40 x 32 bytes | R282 | DESIGN CHOICE unused (log entry 8) -/
  chans : List Bytes := (List.range 40).map fun i => BitVec.ofNat 8 i :: List.replicate 31 0
  /-- compensation tables | 40 x 272 bytes | R281 | DESIGN CHOICE none (log entry 8) -/
  tables : List Bytes := List.replicate 40 []
  /-- point entries | 11 x 64 bytes | R306 | DESIGN CHOICE not enabled (log entry 8) -/
  points : List Bytes := (List.range 11).map fun i => BitVec.ofNat 8 i :: List.replicate 63 0
  /-- the set is sealed | 1 bit | R306 | DESIGN CHOICE 0 (log entry 8) -/
  isSealed : Bool := false
  /-- digest of the set as last sealed | 32 bytes | R306 | DESIGN CHOICE zeros (log entry 8) -/
  digest : Bytes := List.replicate 32 0
  /-- sealed-parameter change counter | 32 bits | R306 | DESIGN CHOICE 0 (log entry 8) -/
  counter : Nat := 0
  /-- legal software digest last recorded | 32 bytes | R308 | none -/
  legal : Bytes := []
deriving DecidableEq, Repr

end Sys2Proof.Machine
end

