-- ==== Sys2Proof/Machine/TypesCore.lean ====
section
/-!
DEFINITION. State of the system services: boot and Kickstand, the register window, the mailbox channels, the key
slots, the recorder, and the non-volatile cells they own. Each field's note reads: what it is | width | rule | value
at reset.
-/
namespace Sys2Proof.Machine

/-- A byte memory: (address, byte) pairs with addresses strictly rising and no byte equal to 0, which is what an
unlisted address reads as (R81 wipes the ring memory to zero; log entry 7). -/
abbrev Mem := List (Nat × Byte)

/-! ### Boot and Kickstand -/

/-- Where the part stands between reset and service (R77 to R86, R271). -/
inductive Phase where
  /-- held in reset: RESET_N low or the internal reset of R74 -/
  | held
  /-- held in reset by the shutdown supervisor (R271) -/
  | heatHold
  /-- BOOT_PHASE 0x0, wipe -/
  | wipe
  /-- BOOT_PHASE 0x1, image verification -/
  | verify
  /-- BOOT_PHASE 0x2, self-test -/
  | selfTest
  /-- BOOT_PHASE 0x3, running -/
  | running
  /-- BOOT_PHASE 0xF, boot failed -/
  | failed
deriving DecidableEq, Repr, Inhabited

/-- One listed cause of the current Kickstand entry (R99, R101). -/
structure KickCause where
  code : Nat
  gone : Bool := false
  /-- a safety reset has been given after the cause went (R101) -/
  resetGiven : Bool := false
deriving DecidableEq, Repr, Inhabited

/-- An accepted life-cycle transition that has not yet been carried out (R94). -/
structure LcPending where
  target : Nat
  /-- 1 owner, 3 Alrelet, the kinds of the table of credential kinds -/
  authority : Nat
  ownerKey : Bytes
  ch : Nat
  tag : Nat
deriving DecidableEq, Repr, Inhabited

/-- System state that a reset clears. -/
structure Sys where
  /-- boot phase | 4 bits | R80, R74 | held in internal reset; BOOT_PHASE 0x0 -/
  phase : Phase := .held
  /-- ROLE[2:0] as sampled | 3 bits | R11 | 0b000 -/
  roleStrap : Nat := 0
  /-- NODE[2:0] as sampled | 3 bits | R11 | 0b000 -/
  nodeStrap : Nat := 0
  /-- ACTIVE_ROLE | 3 bits | R540, R17 | 0b000 -/
  role : Nat := 0
  /-- MBX_LIVE | 1 bit | R80, R86 | 0 -/
  live : Bool := false
  /-- IMAGE_B | 1 bit | R80 | 0 -/
  imageB : Bool := false
  /-- configuration image in service: 0 A, 1 B, 0xFF none | 8 bits | R105 | DESIGN CHOICE 0xFF (log entry 8) -/
  configSel : Nat := 255
  /-- trial byte: 0 none, 1 on trial, 2 rolled back | 8 bits | R105 | 0 -/
  trial : Nat := 0
  /-- reset cause | 8 bits | R79 | DESIGN CHOICE 0x01 (log entry 8) -/
  resetCause : Nat := 1
  /-- held time, ms | 32 bits | R78 | DESIGN CHOICE 0 (log entry 8) -/
  heldMs : Nat := 0
  /-- held time valid | 1 bit | R78 | DESIGN CHOICE 0 (log entry 8) -/
  heldValid : Bool := false
  /-- 3.3 V I/O mode selected | 1 bit | R529 | DESIGN CHOICE 0, 1.8 V (log entry 8) -/
  io33 : Bool := false
  /-- IDREV | 64 bits | R48 | 0 until boot firmware writes it (R47) -/
  idrev : Nat := 0
  /-- BELOW_SUPPLY | 1 bit | R36 | 0 -/
  belowSupply : Bool := false
  /-- time-island registers whose sticky late flag is set: 0 and 1 the frames of the two rings, 2 the Derailleur's outputs,
  3 and 4 the records of the safety cores, 16 + g the outputs of group g; SYS_STATUS.LATE is 1 while there is one
  | 21 flags | R29 | none -/
  late : List Nat := []
  /-- causes of the current Kickstand entry in the order in which they arose | up to 24 | R99 | none -/
  kicks : List KickCause := []
  /-- operating second of the Kickstand entry | 64 bits | R105 | 0 -/
  kickSecond : Nat := 0
  /-- nonce last returned by SYS_GET_LIFECYCLE | 32 bytes or none | R93 | none -/
  lcNonce : Option Bytes := none
  /-- accepted life-cycle transition | - | R94 | none -/
  lcPending : Option LcPending := none
  /-- a reset by SYS_RESET_PART is due | 1 bit | R105 | 0 -/
  resetDue : Bool := false
  /-- PFW_N taken as low | 1 bit | R87 | 0 -/
  pfwLow : Bool := false
  /-- PFW_N fell during the boot | 1 bit | R89 | 0 -/
  pfwFell : Bool := false
  /-- RTC crystal lost | 1 bit | R34 | 0 -/
  rtcLost : Bool := false
  /-- the loss of the RTC crystal stands in a record | 1 bit | R34 | 0 -/
  rtcNoted : Bool := false
  /-- restarts of the twelve engines of R26 | 12 counts | R39, R40 | 0 -/
  restarts : List Nat := List.replicate 12 0
  /-- access permissions refused by the firewall since boot | count | R39 | 0 -/
  refusals : Nat := 0
  /-- SRAM and MRAM words corrected and rewritten in place since boot | count | R40 | 0 -/
  corrected : Nat := 0
  /-- NOR sectors rewritten since boot, oldest first | - | R41 | none -/
  norRewritten : List Nat := []
  /-- operating second at which every programmed NOR sector was last read; none since boot | - | R41 | none -/
  norScrubbed : Option Nat := none
deriving DecidableEq, Repr, Inhabited

/-! ### Register window and events (R46, R71, R72) -/

/-- Direct register window, but for the channel registers and the status derived from other state. -/
structure Win where
  /-- WIN_ERR | 32 bits | R46 | 0x0000_0000 -/
  err : BitVec 32 := 0
  /-- EV_PEND0 to 3 | 128 bits | R71 | 0 -/
  pend : BitVec 128 := 0
  /-- EV_EN0 to 3 | 128 bits | R71 | EV_EN0 0x0000_00FF, others 0 -/
  en : BitVec 128 := 0xFF
  /-- EV_ROUTE0 to 7 | 256 bits | R71 | 0 -/
  route : BitVec 256 := 0
  /-- BELL_CTRL[3:0] PULSE | 4 bits | R72 | 0 -/
  pulse : BitVec 4 := 0
  /-- 2 us releases of each bell line made under R72 | 4 counts | R72 | 0 -/
  pulses : List Nat := [0, 0, 0, 0]
  /-- bytes that the last quad-SPI READ with an error returned | - | R45, R46 | none -/
  readData : Bytes := []
deriving DecidableEq, Repr, Inhabited

/-! ### A key copy, and what accepted commands carry -/

/-- One copy of a key slot (table of the slot copy). -/
structure KeyCopy where
  /-- MAGIC of the copy -/
  magic : Nat := 0x5D4B
  /-- no uncorrectable error is found in the copy (R40, R460) -/
  readable : Bool := true
  /-- TAG: none for the tag that R459 gives over the copy, as every write leaves it; some for other bytes in the cells -/
  tag : Option Bytes := none
  /-- STATE: 0 empty, 1 valid, 2 revoked -/
  state : Nat := 0
  alg : Nat := 0
  generation : Nat := 0
  usage : Nat := 0
  masters : Nat := 0
  world : Nat := 0
  lifecycles : Nat := 0
  flags : Nat := 0
  parent : Nat := 255
  epoch : Nat := 0
  parentEpoch : Nat := 0
  label : Bytes := List.replicate 32 0
  material : Bytes := []
deriving DecidableEq, Repr, Inhabited

/-- What a command that answered ST_ACCEPTED still has to do (R66). -/
inductive Work where
  /-- SYS_SET_LIFECYCLE -/
  | lifecycle
  /-- SYS_ACTIVATE_IMAGE of a target -/
  | activate (target : Nat)
  /-- MTR_RENDER_RECORD: the record as it stood when the command was read (R63), and what was asked for -/
  | render (record : MRec) (mseq format offset : Nat)
  /-- KEY_GENERATE or KEY_DERIVE: the slot and the key to be written into it -/
  | write (slot : Nat) (key : KeyCopy)
  /-- KEY_SIGN: algorithm and material of the key as the command found it (R461), and the digest -/
  | sign (alg : Nat) (material digest : Bytes)
  /-- KEY_ATTEST -/
  | attest (nonce : Bytes)
  /-- REC_CLEAR -/
  | clear
deriving DecidableEq, Repr

/-! ### Mailbox (R51 to R68) -/

/-- State of one tag of a channel (R62, R67). -/
structure Tag where
  /-- a command holds the tag -/
  used : Bool := false
  /-- SEQUENCE of the command that holds the tag -/
  seq : Nat := 0
  /-- the last final response: its SEQUENCE and its frame -/
  kept : Option (Nat × Bytes) := none
deriving DecidableEq, Repr, Inhabited

/-- An open credential handle (R60, R61). -/
structure Cred where
  handle : Nat
  /-- 1 owner, 2 operator, 3 Alrelet -/
  kind : Nat
  slot : Nat
  /-- session key, 32 bytes -/
  key : Bytes
  /-- last SEQUENCE accepted -/
  last : Option Nat := none
  /-- consecutive failures -/
  fails : Nat := 0
deriving DecidableEq, Repr, Inhabited

/-- A command that answered ST_ACCEPTED and has not sent its final response (R66). -/
structure Running where
  req : Req
  opcode : Nat
  work : Work
deriving DecidableEq, Repr

/-- A mailbox channel. -/
structure Channel where
  /-- CHn_CTRL.ENABLE | 1 bit | R55 | 1 -/
  enable : Bool := true
  /-- CHn_CTRL.BINDING: 0 quad-SPI, 1 ETH0, 2 ETH1, 3 unbound | 2 bits | R56 | 0 -/
  binding : Nat := 0
  /-- CHn_CTRL.CONNECTED | 1 bit | R56 | 0 -/
  connected : Bool := false
  /-- the connection is plain TCP | 1 bit | R57 | 0 -/
  plain : Bool := false
  /-- the slot of Drinov's key in the connection's TLS handshake | 8 bits | R57, R469 | none -/
  tlsSlot : Option Nat := none
  /-- CHn_REQ_PROD | 6 bits | R51 | 0 -/
  reqProd : Nat := 0
  /-- CHn_REQ_CONS | 6 bits | R51 | 0 -/
  reqCons : Nat := 0
  /-- CHn_RSP_PROD | 6 bits | R51 | 0 -/
  rspProd : Nat := 0
  /-- CHn_RSP_CONS | 6 bits | R51 | 0 -/
  rspCons : Nat := 0
  /-- the 32 tags | - | R62, R67 | free, nothing kept -/
  tags : List Tag := List.replicate 32 {}
  /-- responses held while the response ring is full, oldest first | - | R54 | none -/
  held : List Bytes := []
  /-- commands accepted and not finished | - | R66 | none -/
  running : List Running := []
  /-- open credentials | at most 4 | R60 | none -/
  creds : List Cred := []
  /-- frames, framing errors, CRC errors, tag conflicts, retries served, retries absorbed, credential failures,
  channel resets since boot | 8 x 32 bits | R70 | 0 -/
  stats : List Nat := List.replicate 8 0
  /-- frames that have arrived on the channel's stream and are not read | - | R58 | none -/
  streamIn : List Bytes := []
  /-- frames sent on the channel's stream | - | R58 | none -/
  streamOut : List Bytes := []
deriving DecidableEq, Repr

/-- The mailbox: channels and the ring memory. -/
structure Mbx where
  /-- channels 0 to 3 | - | R44 | see Channel -/
  channels : List Channel := [{}, {}, {}, {}]
  /-- channel whose turn comes first in the round robin | 2 bits | R63 | DESIGN CHOICE 0 (log entry 8) -/
  turn : Nat := 0
  /-- commands that run on although their channel was reset: they complete without a response | - | R55 | none -/
  orphans : List Running := []
  /-- ring memory, request and response rings | 8 x 128 KiB | R45 | zeros (R81) -/
  ring : Mem := []
deriving DecidableEq, Repr

/-! ### Key slots (R459 to R468) -/

/-- A key slot with its two copies. -/
structure KeySlot where
  a : KeyCopy := {}
  b : KeyCopy := {}
deriving DecidableEq, Repr, Inhabited

/-- A KEY_IMPORT that has begun and not reached its final part (R478). -/
structure Import where
  ch : Nat
  slot : Nat
  data : Bytes
deriving DecidableEq, Repr, Inhabited

/-- Key-engine state that a reset clears. -/
structure Keys where
  /-- slots with a write in progress | - | R479 | none -/
  busy : List Nat := []
  /-- imports in progress | - | R478 | none -/
  imports : List Import := []
deriving DecidableEq, Repr, Inhabited

/-! ### Event recorder (R481 to R497) -/

/-- A record made and not yet committed (R487), or the parts of one record of more than 22 parameter bytes. -/
structure Draft where
  code : Nat
  source : Nat
  /-- parameters, packed little-endian in the order the record tables name them (log entry 9) -/
  params : Bytes := []
  /-- FLAGS[1], a summary -/
  summary : Bool := false
  /-- FLAGS[3], the LEGAL partition was full when it was made -/
  full : Bool := false
  opSeconds : Nat := 0
  cycles : Nat := 0
  wall : Int := 0
  wallGood : Bool := false
deriving DecidableEq, Repr, Inhabited

/-- A committed record (record table). -/
structure Record where
  seq : Nat
  pidx : Nat
  code : Nat
  opSeconds : Nat
  cycles : Nat
  wall : Int
  source : Nat
  flags : Nat
  params : Bytes
deriving DecidableEq, Repr, Inhabited

/-- A rate-limit window (R491). -/
structure Window where
  code : Nat
  start : Nat
  length : Nat
  limit : Nat
  /-- occurrences within the window -/
  seen : Nat
  /-- occurrences suppressed, with the first and last operating second of one -/
  suppressed : Nat := 0
  first : Nat := 0
  last : Nat := 0
deriving DecidableEq, Repr, Inhabited

/-- A clear that has been accepted (R493). -/
structure Clear where
  part : Nat
  limit : Nat
  /-- 0 credential, 1 signed challenge -/
  kind : Nat
  /-- first 8 bytes of the digest of the authorising public key -/
  keyDigest : Bytes
  /-- the clear floor has been written -/
  done : Bool := false
deriving DecidableEq, Repr, Inhabited

/-- Recorder state that a reset clears. -/
structure Recorder where
  /-- intake queue, oldest first | 1,024 places | R487 | empty -/
  intake : List Draft := []
  /-- LEGAL records whose makers hold them while every place holds a LEGAL record | - | R487 | none -/
  waiting : List Draft := []
  /-- records dropped since the last 0x4D03, LEGAL to GENERAL | 4 counts | R487 | 0 -/
  dropped : List Nat := [0, 0, 0, 0]
  /-- first and last operating second of such a drop | 2 x 64 bits | R487 | 0 -/
  dropFirst : Nat := 0
  dropLast : Nat := 0
  /-- rate-limit windows | up to 64 | R491 | none -/
  windows : List Window := []
  /-- nonce last returned by REC_GET_CHALLENGE | 32 bytes or none | R494 | none -/
  nonce : Option Bytes := none
  /-- clear in progress | - | R493, R497 | none -/
  clear : Option Clear := none
  /-- records the boot firmware holds before image verification ends | - | R489 | none -/
  boot : List Draft := []
deriving DecidableEq, Repr, Inhabited

/-- The header of one partition in the recorder commit area (R488). -/
structure Part where
  /-- next PIDX | 48 bits | R484 | 0 -/
  next : Nat := 0
  /-- oldest PIDX the ring holds | 48 bits | R492 | 0 -/
  oldest : Nat := 0
  /-- clear floor | 48 bits | R493 | 0 -/
  floor : Nat := 0
  /-- newest SEQ | 64 bits | R492 | DESIGN CHOICE 0, no record yet (log entry 8) -/
  newest : Nat := 0
  /-- drop counter | 32 bits | R487 | 0 -/
  drops : Nat := 0
  /-- records that stand in NOR, oldest first | - | R483, R489 | none -/
  nor : List Record := []
deriving DecidableEq, Repr, Inhabited

/-- The recorder's MRAM and NOR. -/
structure RecNv where
  /-- next SEQ | 64 bits | R484 | 1 -/
  nextSeq : Nat := 1
  /-- LEGAL, SAFETY, SECURITY, GENERAL | - | R481 | see Part -/
  parts : List Part := [{}, {}, {}, {}]
  /-- LEGAL overflow counter | 32 bits | R495 | 0 -/
  overflow : Nat := 0
  /-- records that the flush of a power failure lost, LEGAL to GENERAL, until the next boot reports them | 4 counts | R488 | 0 -/
  lost : List Nat := [0, 0, 0, 0]
  /-- first and last operating second of such a loss | 2 x 64 bits | R487, R488 | DESIGN CHOICE 0, none lost (log entry 8) -/
  lostFirst : Nat := 0
  lostLast : Nat := 0
  /-- a torn record stands in the place after the last record | 1 bit | R488 | DESIGN CHOICE 0 (log entry 8) -/
  torn : Bool := false
  /-- committed records not yet copied into NOR, oldest first | 8,128 places | R488 | none -/
  area : List Record := []
deriving DecidableEq, Repr, Inhabited

/-! ### Images and life-cycle word (R83 to R95) -/

/-- A firmware image slot in NOR. -/
structure FwSlot where
  raw : Mem := []
  image : FwImage := {}
deriving DecidableEq, Repr, Inhabited

/-- A configuration image slot in NOR. -/
structure CfgSlot where
  raw : Mem := []
  image : ConfigImage := {}
  /-- the slot holds an image at all -/
  present : Bool := false
deriving DecidableEq, Repr, Inhabited

/-- A copy of the life-cycle word (R94). -/
structure LcCopy where
  /-- no uncorrectable error is found in the copy (R40) -/
  readable : Bool := true
  /-- integrity tag: none for the tag that R459 gives over the copy, some for other bytes in the cells -/
  tag : Option Bytes := none
  state : Nat := 1
  generation : Nat := 0
deriving DecidableEq, Repr, Inhabited

/-- Non-volatile cells of the system. -/
structure SysNv where
  /-- the two copies of the life-cycle word | - | R94 | DESIGN CHOICE MANUFACTURE in both (log entry 8) -/
  lc : List LcCopy := [{}, {}]
  /-- transition begun and not committed: from, to, authority | - | R94 | none -/
  lcOpen : Option (Nat × Nat × Nat) := none
  /-- persistent Kickstand causes | - | R100 | none -/
  causes : List Nat := []
  /-- strap value recorded at the previous boot: ROLE + 8 NODE | 6 bits | R15 | none -/
  strapLast : Option Nat := none
  /-- power-cycle count | 32 bits | R80, R485 | DESIGN CHOICE 0 (log entry 8) -/
  powerCycles : Nat := 0
  /-- committed operating seconds | 64 bits | R485 | DESIGN CHOICE 0 (log entry 8) -/
  opSeconds : Nat := 0
  /-- firmware images A and B | 2 x 16 MiB | R474 | DESIGN CHOICE empty (log entry 8) -/
  fw : List FwSlot := [{}, {}]
  /-- preferred firmware image in the boot manifest | 1 bit | R83 | DESIGN CHOICE A (log entry 8) -/
  preferred : Nat := 0
  /-- the preferred image is on trial | 1 bit | R84 | 0 -/
  onTrial : Bool := false
  /-- a boot has run the image on trial | 1 bit | R84 | 0 -/
  trialRan : Bool := false
  /-- configuration images A and B | 2 x 2 MiB | R476 | DESIGN CHOICE empty (log entry 8) -/
  cfg : List CfgSlot := [{}, {}]
  /-- FW_MIN | 32 bits | R475 | DESIGN CHOICE 0 (log entry 8) -/
  fwMin : Nat := 0
  /-- LEGAL_MIN | 32 bits | R475 | DESIGN CHOICE 0 (log entry 8) -/
  legalMin : Nat := 0
  /-- EV_SYS_LIFECYCLE is due when the mailbox goes live (R94, log entry 10) -/
  lcEvent : Bool := false
  /-- sectors reported bad, with the sectors replaced | - | R41, R483 | none -/
  badSectors : List Nat := []
deriving DecidableEq, Repr, Inhabited

end Sys2Proof.Machine
end

