-- ==== Sys2Proof/Machine/Mem.lean ====
section
/-!
DEFINITION. The named operations over ring memory (R45, R46): one byte and byte strings, in the canonical form of
Mem.
-/
namespace Sys2Proof.Machine

/-- The byte at an address; an unlisted address reads as 0 (R81, log entry 7). -/
def memRead : Mem → Nat → Byte
  | [], _ => 0
  | (k, v) :: m, a => if k = a then v else memRead m a

/-- Writing one byte, in canonical form. -/
def memWrite : Mem → Nat → Byte → Mem
  | [], a, b => if b = 0 then [] else [(a, b)]
  | (k, v) :: m, a, b =>
    if a < k then (if b = 0 then (k, v) :: m else (a, b) :: (k, v) :: m)
    else if a = k then (if b = 0 then m else (a, b) :: m)
    else (k, v) :: memWrite m a b

/-- The `n` bytes from an address on. -/
def memReads (m : Mem) (a : Nat) : Nat → Bytes
  | 0 => []
  | n + 1 => memRead m a :: memReads m (a + 1) n

/-- Writing a byte string from an address on. -/
def memWrites (m : Mem) (a : Nat) : Bytes → Mem
  | [] => m
  | b :: bs => memWrites (memWrite m a b) (a + 1) bs

/-- Canonical form: no byte equal to 0, and addresses strictly rising. -/
abbrev Memory.wf (m : Mem) : Prop :=
  (m.map (·.1)).Pairwise (· < ·) ∧ ∀ c ∈ m, c.2 ≠ 0

end Sys2Proof.Machine
end

