-- ==== Sys2Proof/Machine/TypesOutlet.lean ====
section
/-!
DEFINITION. State of a part with local outlets: vehicle links (chapter 08), sessions (09) and heat (10). Each field's
note reads: what it is | width | rule | value at reset. Local outlets A, B and C are slots 0, 1 and 2.
-/
namespace Sys2Proof.Machine

/-! ### Vehicle links -/

/-- The supply's limits as the vehicle is shown them (R224). -/
structure SupplyLimits where
  /-- P_CEIL, kW -/
  power : Nat
  /-- I_CEIL, 0.1 A; 0 in a direction hold (R238) -/
  current : Nat
  /-- RATED_VOLTAGE, V, and RATED_CURRENT, A, of the outlet -/
  ratedVolts : Nat
  ratedAmps : Nat
deriving DecidableEq, Repr, Inhabited

/-- A message to the vehicle in answer to one of its own. -/
inductive VehicleAnswer where
  /-- CM_SLAC_PARAM.CNF (R208) -/
  | slacParam (run mac : Bytes)
  /-- CM_ATTEN_CHAR.IND: the mean attenuation of each carrier group, dB (R208) -/
  | attenChar (run : Bytes) (groups : List Nat)
  /-- CM_VALIDATE.CNF with the result "not required" (R208) -/
  | validateNotRequired
  /-- CM_SLAC_MATCH.CNF with the NMK (R209) -/
  | slacMatch (run nmk : Bytes)
  /-- SDP response: the link-local address and the TCP port (R214) -/
  | sdp (address : Bytes) (port : Nat)
  /-- the protocol agreed (R215) -/
  | protocol (p : Nat)
  /-- the failure response of the protocol (R216, R228) -/
  | failure
  /-- processing "ongoing" (R227) -/
  | ongoing
  | accepted
  /-- a response that carries limits (R224) -/
  | limits (l : SupplyLimits)
  /-- the cable check goes on, or is finished (R233) -/
  | cableCheck (finished : Bool)
  /-- the present voltage, 0.1 V, in a precharge response (R234) -/
  | precharge (volts : Nat)
  /-- a loop response: the limits where it carries them, the present voltage (R224, R237) -/
  | loop (l : Option SupplyLimits) (volts : Nat)
  /-- the vehicle-side voltage, 0.1 V (R232) -/
  | weldingDetection (volts : Nat)
  /-- the answer to a request outside the offered limits (R238) -/
  | outsideLimits
  /-- the answer to a renegotiation that the vehicle starts (R237) -/
  | renegotiation
deriving DecidableEq, Repr, Inhabited

/-- What the sequencer tells the vehicle of its own accord (R237, R240). -/
inductive Notice where
  /-- EVSENotification StopCharging -/
  | stopCharging
  /-- EVSENotification StopCharging with EVSE_EmergencyShutdown -/
  | stopEmergency
  /-- EVSENotification Terminate -/
  | terminate
  /-- schedule renegotiation -/
  | renegotiate
deriving DecidableEq, Repr, Inhabited

/-- A SLAC characterisation of one RunID (R208). -/
structure Slac where
  run : Bytes
  mac : Bytes
  /-- sum and number of the attenuations of the carrier groups, dB; none until the sounds came -/
  atten : Option (Nat × Nat) := none
deriving DecidableEq, Repr, Inhabited

/-- A value that is confirmed once it has appeared FILTER times in a row (R200). -/
structure Filter where
  /-- last raw value and how often it came in a row -/
  raw : Nat := 0
  run : Nat := 0
  /-- confirmed value, 0xFF before the first -/
  value : Nat := 255
deriving DecidableEq, Repr, Inhabited

/-- The vehicle link of a local outlet. -/
structure Link where
  /-- drive state: 0 X1, 1 X2, 2 F, 3 OFF | 2 bits | R195 | OFF (R77, R204) -/
  drive : Nat := 3
  /-- drive state selected for the next 1 ms period | 2 bits | R195 | OFF -/
  driveNext : Nat := 3
  /-- drive state held by OUT_SET_PILOT_TEST | 2 bits or none | R219 | none -/
  test : Option Nat := none
  /-- raw and confirmed pilot or charge-enable state (codes in log entry 11) | - | R200 | none confirmed -/
  pilot : Filter := {}
  /-- V+ and V-, 10 mV | 2 x signed 16 bits | R218 | 0 -/
  vPlus : Int := 0
  vMinus : Int := 0
  /-- raw and confirmed proximity or insertion-detect class, 0xFF before the first | - | R200, R201 | none confirmed -/
  prox : Filter := { raw := 255 }
  /-- R_PP in ohm or V_ID in 10 mV | 16 bits | R218 | 0 -/
  proxValue : Nat := 0
  /-- a link fault stands and has not been taken by the sequencer | 1 bit | R200, R202 | 0 -/
  fault : Bool := false
  /-- ms in which the modem has waited for the first CM_SLAC_PARAM.REQ (TT_EVSE_SLAC_init) | count | R208, R210 | 0 -/
  slacMs : Nat := 0
  /-- last message sent to the vehicle in answer to one of its own | - | R208, R209, R214 to R216, R224, R227, R228, R232 to R234, R237, R238 | none -/
  answer : Option VehicleAnswer := none
  /-- jabber counter | 32 bits | R212 | 0 -/
  jabber : Nat := 0
  /-- SLAC state: 0 idle, 1 characterising, 2 matched, 3 refused | 8 bits | R218 | 0 -/
  slac : Nat := 0
  /-- characterisations | at most 4 | R208 | none -/
  chars : List Slac := []
  /-- vehicle MAC, matched attenuation and NMK | 6 bytes, dB, 16 bytes | R209, R218 | 0 -/
  mac : Bytes := List.replicate 6 0
  atten : Nat := 0
  nmk : Bytes := []
  /-- data link up | 1 bit | R212, R213 | 0 -/
  up : Bool := false
  /-- protocol: 0 none, 1 DIN SPEC 70121, 2 ISO 15118-2, 3 ISO 15118-20 | 8 bits | R215 | 0 -/
  protocol : Nat := 0
  /-- TCP port offered for the session | 16 bits | R214 | 0 -/
  port : Nat := 0
  /-- TLS established on the link | 1 bit | R245 | 0 -/
  tls : Bool := false
  /-- version of the TLS session: 0x0303 or 0x0304, 0 without one | 16 bits | R215, R245 | 0 -/
  tlsVersion : Nat := 0
  /-- key slot that the handshake used | 8 bits | R244, R469 | DESIGN CHOICE 0xFF (log entry 8) -/
  tlsSlot : Nat := 255
  /-- diode faults, invalid pilot periods, proximity faults, SLAC matches, SLAC refusals, frames received, receive
  errors, collisions | 8 x 32 bits | R218 | 0 -/
  stats : List Nat := List.replicate 8 0
deriving DecidableEq, Repr, Inhabited

/-! ### Sessions -/

/-- Result of the last weld check (OUT_GET_CHECKS). -/
structure WeldCheck where
  /-- 0 none, 1 passed, 2 DC+ welded, 3 DC- welded, 4 deferred -/
  outcome : Nat := 0
  /-- step 1 and step 2 readings, 0.1 V -/
  step1 : Nat := 0
  step2 : Nat := 0
deriving DecidableEq, Repr, Inhabited

/-- Where a weld test stands (R231). -/
inductive WeldStep where
  | none
  /-- waiting for a grant, then for a window to close DC- alone -/
  | one
  /-- step 1 contactor state confirmed -/
  | oneSettled
  /-- step 2: DC+ closed, DC- open -/
  | two
  | twoSettled
deriving DecidableEq, Repr, Inhabited

/-- The class of a stop in progress (table of stop classes). -/
inductive StopClass where
  | orderly
  | urgent
  | safety
  | kickstand
  | interrupted
deriving DecidableEq, Repr, Inhabited

/-- An authorisation given before its session exists (R228). -/
structure PreAuth where
  accept : Bool
  cls : Nat
  until_ : Nat
  ident : Bytes
deriving DecidableEq, Repr, Inhabited

/-- The session of a local outlet. -/
structure Session where
  /-- state code | 8 bits | R221 | 0x00 UNAVAILABLE -/
  state : Nat := 0
  /-- MODE sent to the hub | 8 bits | R223 | 0 -/
  mode : Nat := 0
  /-- identification method: 0 none, 1 external, 2 Plug & Charge | 8 bits | R246 | 0 -/
  method : Nat := 0
  /-- priority class, 0xFF for the outlet's | 8 bits | R247 | 0xFF -/
  cls : Nat := 255
  /-- END_FIRST and END_CODE | 2 x 8 bits | R241 | 0 -/
  endFirst : Nat := 0
  endCode : Nat := 0
  /-- causes found since the last sequencer step | - | R241 | none -/
  causes : List Nat := []
  /-- opened under current | 1 bit | R239 | 0 -/
  forced : Bool := false
  /-- start, operating seconds | 64 bits | R246 | 0 -/
  start : Nat := 0
  /-- identifier | at most 64 bytes | R246 | none -/
  ident : Bytes := []
  /-- host availability: 0 unavailable after the session, 1 available, 2 unavailable now | 8 bits | R247 | DESIGN CHOICE 1 (log entry 8) -/
  avail : Nat := 1
  /-- waits for OUT_AUTHORISE | 1 bit | R227 | 0 -/
  waiting : Bool := false
  /-- decision given in advance | - | R228 | none -/
  pre : Option PreAuth := none
  /-- contactor states commanded: DC+ and DC- closed | 2 bits | R230 | open -/
  pos : Bool := false
  neg : Bool := false
  /-- the commanded state is confirmed | 1 bit | R230 | 1 -/
  confirmed : Bool := true
  /-- safety tick of the command | 64 bits | R230 | 0 -/
  cmdTick : Nat := 0
  /-- contactor states wanted, waiting for a switching window | - | R229 | none -/
  want : Option (Bool × Bool) := none
  /-- the session's contactors have closed | 1 bit | R232 | 0 -/
  closed : Bool := false
  /-- weld test in progress | - | R231 | none -/
  weld : WeldStep := .none
  /-- results of the last pre-check, post-check | - | R246 | none -/
  pre1 : WeldCheck := {}
  post1 : WeldCheck := {}
  /-- V_CC of the last cable check, 0.1 V | 16 bits | R246 | 0 -/
  vcc : Nat := 0
  /-- insulation resistance of the last cable check, kOhm | 32 bits | R246 | 0 -/
  iso : Nat := 0
  /-- outcome of the last cable check: 0 valid, 1 warning, 2 fault, 3 timed out | 8 bits | R246 | 0 -/
  isoOutcome : Nat := 0
  /-- the cable check has finished | 1 bit | R233 | 0 -/
  isoDone : Bool := false
  /-- consecutive ms in which the supply side has been within 2 % of V_CC; ms of the settle period; lowest insulation resistance, kOhm, read in its last 500 ms | count, count, 32 bits or none | R233 | 0, 0, none -/
  imdNear : Nat := 0
  imdMs : Nat := 0
  imdLow : Option Nat := none
  /-- stop class in progress | - | R239 | none -/
  stop : Option StopClass := none
  /-- the vehicle's last limits and requests | - | R224, R236 | none -/
  loop : Option VehicleLoop := none
  /-- voltage target or test voltage sent, 0.1 V | 16 bits | R223, R234 | 0 -/
  vTarget : Nat := 0
  /-- agreed energy service is bidirectional; control mode is dynamic | 2 bits | R237, R238 | 0 -/
  bpt : Bool := false
  dynamic : Bool := false
  /-- operating second of the last renegotiation; none if there was none | 64 bits | R237 | none -/
  reneg : Option Nat := none
  /-- a renegotiation waits for the end of a hold | 1 bit | R238 | 0 -/
  renegDue : Bool := false
  /-- last grant accepted | 16 bytes or none | R224 | none -/
  grant : Option Bytes := none
  /-- outlet request last sent | 32 bytes | R223 | none -/
  sent : Bytes := []
  /-- milliseconds since it was sent | count | R223, R351 | 0 -/
  sentMs : Nat := 0
  /-- SHAKE256 digest of a Plug & Charge chain, as reported to the host | 32 bytes | R227 | none -/
  chain : Bytes := []
  /-- the report says that the validity dates were not checked | 1 bit | R227 | 0 -/
  undated : Bool := false
  /-- schedule entries: seconds from the session start, kW | - | R117, R237 | none -/
  schedule : List (Nat × Nat) := []
  /-- what the sequencer last told the vehicle of its own accord | - | R237, R240 | none -/
  notice : Option Notice := none
  /-- consecutive metering samples with the outlet current at most I_OPEN | count | R238, R383 | 0 -/
  lowRun : Nat := 0
  /-- the vehicle has enabled energy transfer since the first cable-check request | 1 bit | R240 | 0 -/
  seen : Bool := false
  /-- the supply side has come within 20 V of the precharge target | 1 bit | R234 | 0 -/
  near : Bool := false
  /-- causes already taken in this session | - | R241 | none -/
  noted : List Nat := []
  /-- the connector has not been absent since the last session | 1 bit | R222 | 0 -/
  leave : Bool := false
  /-- the session has had power granted | 1 bit | R240 | 0 -/
  granted : Bool := false
  /-- consecutive steps at which the grant's stage capacity was zero | count | R240 | 0 -/
  bare : Nat := 0
deriving DecidableEq, Repr, Inhabited

/-! ### Heat -/

/-- A thermal, frequency, die or hot-spot input (R250 to R265). -/
structure Input where
  /-- 0 unused, 1 valid, 2 failed, 3 recovered | 8 bits | R274 | 0 -/
  state : Nat := 0
  /-- value in use | signed 32 bits | R262, R274 | 0 -/
  value : Int := 0
  /-- last good value | signed 32 bits | R262 | 0 -/
  good : Int := 0
  /-- substitute | signed 32 bits | R262 | 0 -/
  sub : Int := 0
  /-- last reading the converter did not flag (FIN: mHz), for the difference tests; none before the first | - | R250, R266 | none -/
  last : Option Int := none
  /-- consecutive valid readings while failed | count | R263 | 0 -/
  valid : Nat := 0
  /-- acknowledged: the next sample uses the real reading | 1 bit | R264 | 0 -/
  ack : Bool := false
  /-- sample period, ms | 8 bits | R252, R274 | 100 -/
  period : Nat := 100
  /-- consecutive fast samples at which no fast condition held | count | R252 | 0 -/
  quiet : Nat := 0
  /-- failures | 32 bits | R274 | 0 -/
  failures : Nat := 0
  /-- sample points kept: epoch and value, newest first | at least 60.1 s | R256 | none -/
  hist : List (Nat × Int) := []
deriving DecidableEq, Repr, Inhabited

/-- A threshold (R255). -/
structure Threshold where
  /-- 0 unused, 1 armed, 2 crossed | 8 bits | R274 | 0 -/
  state : Nat := 0
  /-- run count | 8 bits | R255 | 0 -/
  run : Nat := 0
  /-- crossings since boot | 32 bits | R274 | 0 -/
  crossings : Nat := 0
deriving DecidableEq, Repr, Inhabited

/-- Thermal state of a local outlet (R260, R261). -/
structure OutletHeat where
  /-- thermal ceiling, 0.1 A, with the part below 0.1 A that the rise has gained, in 1/1,000 of 0.1 A | 32 bits | R260 | 0 -/
  ceil : Nat := 0
  fine : Nat := 0
  /-- I_t, 0.1 A | 32 bits | R260 | 0 -/
  target : Nat := 0
  /-- binding term | 8 bits | R274 | 0 -/
  bind : Nat := 0
  /-- local stop demand | 1 bit | R261 | 0 -/
  stop : Bool := false
  /-- hot-spot estimate | - | R259 | unused -/
  hot : Input := {}
  /-- mean conductor temperature, 0.01 degC | signed 32 bits | R258 | 0 -/
  mean : Int := 0
  /-- last good mean, and its substitute while the estimate is failed, 0.01 degC | 2 x signed 32 bits | R259, R262 | 0 -/
  meanGood : Int := 0
  meanSub : Int := 0
  /-- overruns of the observer's group seen at the last sample point | count | R259 | 0 -/
  overSeen : Nat := 0
  /-- P_loss and Q_rem, W | 2 x signed 32 bits | R257 | 0 -/
  loss : Int := 0
  removal : Int := 0
deriving DecidableEq, Repr, Inhabited

/-- Heat state that a reset clears. -/
structure Heat where
  /-- TIN0 to 31 | - | R249 | unused -/
  tin : List Input := List.replicate 32 {}
  /-- FIN0 to 7 | - | R251 | unused -/
  fin : List Input := List.replicate 8 {}
  /-- thresholds | 64 | R255 | unused -/
  thr : List Threshold := List.replicate 64 {}
  /-- local outlets A, B, C | - | R260 | 0 -/
  out : List OutletHeat := [{}, {}, {}]
  /-- die sensors D0 to D7 | - | R266 | valid, no reading -/
  die : List Input := List.replicate 8 { state := 1, period := 10 }
  /-- the four throttle thresholds | - | R267, R268 | armed -/
  throttle : List Threshold := List.replicate 4 { state := 1 }
  /-- SYS_STATUS.THROTTLE | 3 bits | R268 | 0 -/
  level : Nat := 0
  /-- consecutive samples at or above 135 degC per die sensor | 8 counts | R270 | 0 -/
  hotRun : List Nat := List.replicate 8 0
  /-- die thermal shutdown confirmed | 1 bit | R270 | 0 -/
  shutdown : Bool := false
deriving DecidableEq, Repr

/-- Thermal history area of MRAM and the supervisor's readings (R265, R270 to R273). -/
structure HeatNv where
  /-- failed inputs: kind, index, last good value, substitute | - | R265 | none -/
  failed : List (Nat × Nat × Int × Int) := []
  /-- shutdown count | 32 bits | R274 | DESIGN CHOICE 0 (log entry 8) -/
  count : Nat := 0
  /-- operating seconds of the last shutdowns, newest first | 3 x 64 bits | R273 | none -/
  seconds : List Nat := []
  /-- die values of the last shutdown record | 8 x signed 16 bits | R270 | none -/
  record : List Int := []
  /-- hold values of the failed die sensors | 8, none where there is none | R271 | none -/
  hold : List (Option Int) := List.replicate 8 none
  /-- consecutive valid supervisor readings per die sensor | 8 counts | R271 | 0 -/
  holdRun : List Nat := List.replicate 8 0
  /-- consecutive supervisor readings with every sensor below 100 degC | count | R271 | 0 -/
  coolRun : Nat := 0
  /-- previous supervisor readings | 8, none before the first | R266, R271 | none -/
  prev : List (Option Int) := List.replicate 8 none
deriving DecidableEq, Repr

/-- Non-volatile cells of the outlets. -/
structure OutletNv where
  /-- weld detected, per slot | 3 bits | R232 | DESIGN CHOICE 0 (log entry 8) -/
  weld : List Bool := [false, false, false]
  /-- weld unchecked, per slot | 3 bits | R232 | DESIGN CHOICE 0 (log entry 8) -/
  unchecked : List Bool := [false, false, false]
  /-- session counter, per slot | 3 x 32 bits | R246, R223 | DESIGN CHOICE 0 (log entry 8) -/
  counter : List Nat := [0, 0, 0]
deriving DecidableEq, Repr

end Sys2Proof.Machine
end

