-- ==== Sys2Proof/Machine/TypesSafe.lean ====
section
/-!
DEFINITION. State of the safety cores (chapters 13 and 14), the load channels (15) and the buffer stack (16). Each
field's note reads: what it is | width | rule | value at reset. Safety ticks are counted from boot.
-/
namespace Sys2Proof.Machine

/-! ### Safe inputs -/

/-- A channel of a safe input, or of a fault loop, as one core filters it (R360). -/
structure SafeChan where
  /-- last sample, and the number of consecutive samples that showed it | 1 bit, count | R230, R355 | 0, 0 -/
  raw : Bool := false
  run : Nat := 0
  /-- filtered value | 1 bit | R360 | DESIGN CHOICE 0, open (log entry 20) -/
  value : Bool := false
  /-- tick of the first sample of a run of the other value | 64 bits or none | R360 | none -/
  first : Option Nat := none
  /-- tick at which the last change of the filtered value is timed | 64 bits | R360 | 0 -/
  timed : Nat := 0
deriving DecidableEq, Repr, Inhabited

/-- A safe input. -/
structure SafeInput where
  /-- channels A and B as S0 sees them | - | R355 | see SafeChan -/
  a : SafeChan := {}
  b : SafeChan := {}
  /-- channels A and B as S1 sees them | - | R355 | see SafeChan -/
  a1 : SafeChan := {}
  b1 : SafeChan := {}
  /-- latched fault: 0 none, 1 discrepancy, 2 cross-short | 8 bits | R362, R365 | 0 -/
  fault : Nat := 0
  /-- both channels have been in the safe state together since the latch | 1 bit | R365 | 0 -/
  bothSafe : Bool := false
  /-- a change that the other channel has to follow: its tick, and whether B is the one that has to follow | - | R363 | none -/
  pend : Option (Nat × Bool) := none
  /-- last difference observed, ticks | 16 bits | R392 | 0 -/
  lastDiff : Nat := 0
  /-- cross-short count | 32 bits | R392 | 0 -/
  cross : Nat := 0
  /-- a channel that read 0 at its test sample while reading 1 before, A and B | 2 bits | R362 | 0 -/
  dipA : Bool := false
  dipB : Bool := false
  /-- tick at which channel A of a reset input was timed to 1 | - | R378 | none -/
  press : Option Nat := none
  /-- length of a press that has ended and is not yet judged, ticks | - | R378 | none -/
  pressed : Option Nat := none
  /-- tick since which the input is wholly in its active state | - | R371 | none -/
  since : Option Nat := none
deriving DecidableEq, Repr, Inhabited

/-- A safety function instance. -/
structure Inst where
  /-- permit | 1 bit | R366 | 0 -/
  permit : Bool := false
  /-- cause of the last stop | 8 bits | R392 | 0 -/
  cause : Nat := 0
  /-- stops since boot | 32 bits | R392 | 0 -/
  stops : Nat := 0
  /-- tick at which the permit fell; none if it has not risen | - | R367 | none -/
  fell : Option Nat := none
  /-- both hands, or both muting sensors, have been released together since the last use | 1 bit | R374, R377 | 1 -/
  armed : Bool := true
  /-- tick at which muting began; none while not muted | - | R376 | none -/
  mute : Option Nat := none
  /-- unlock commanded and not yet driven | 1 bit | R373 | 0 -/
  unlocking : Bool := false
  /-- the lock is driven to unlock by command | 1 bit | R373 | 0 -/
  unlocked : Bool := false
  /-- tick of the last drive change whose feedback has not followed, and whether it locks | - | R373 | none -/
  driven : Option (Nat × Bool) := none
  /-- lock feedback and door position at the last tick | 2 bits | R373 | 0 -/
  wasLocked : Bool := false
  wasClosed : Bool := false
  /-- lock fault latched; both inputs in the safe state together since | 2 bits | R373 | 0 -/
  lockFault : Bool := false
  lockSafe : Bool := false
deriving DecidableEq, Repr, Inhabited

/-- A safe output pair. -/
structure Pair where
  /-- requested | 1 bit | R385 | 0 -/
  request : Bool := false
  /-- commanded in the record computed last, launched at the next edge | 1 bit | R28, R355 | 0 -/
  next : Bool := false
  /-- both switches on | 1 bit | R385 | off (R77) -/
  on : Bool := false
  /-- tick of the last switch-on | 64 bits | R387 | 0 -/
  onTick : Nat := 0
  /-- V(SOnH) and V(SOnL) at the last edge, 0.1 V | 2 x 16 bits | R386, R392 | 0 -/
  vHigh : Nat := 0
  vLow : Nat := 0
  /-- current, mA | 16 bits | R388, R392 | 0 -/
  current : Nat := 0
  /-- the open-load report stands | 1 bit | R388 | 0 -/
  light : Bool := false
  /-- consecutive edges with a wrong read-back | count | R386 | 0 -/
  bad : Nat := 0
  /-- consecutive edges with a right read-back while off and faulted | count | R388 | 0 -/
  good : Nat := 0
  /-- latched fault: 0 none, 1 read-back, 2 dark test, 3 overcurrent | 8 bits | R388, R392 | 0 -/
  fault : Nat := 0
  /-- the next dark test is of the low side | 1 bit | R387 | 0 -/
  lowSide : Bool := false
  /-- tick of the last dark test since switch-on; none before the first | - | R387 | none -/
  darkTick : Option Nat := none
  /-- operating second of the last dark test | 64 bits | R392 | 0 -/
  tested : Nat := 0
deriving DecidableEq, Repr, Inhabited

/-! ### Safe transport -/

/-- A connection (R395 to R404). -/
structure Conn where
  /-- a new SEQ has been taken since the connection started | 1 bit | R413 | 0 -/
  heard : Bool := false
  /-- tick at which the degraded state was entered; none while not degraded | - | R402 | none -/
  degraded : Option Nat := none
  /-- latched transport fault: 0 none, 1 watchdog, 2 disagreement, 3 hold expired | 8 bits | R404, R413 | 0 -/
  fault : Nat := 0
  /-- tick of the fault | 64 bits | R404 | 0 -/
  faultTick : Nat := 0
  /-- CYCLE and SEQ last accepted, SET_SIG of the sender | 16, 32, 32 bits | R400, R413 | none, 0 -/
  cycle : Option Nat := none
  seq : Nat := 0
  sig : Nat := 0
  /-- open skew window: its tick and bytes 0-31 of the first copy | - | R401 | none -/
  window : Option (Nat × Bytes) := none
  /-- tick of the last copy on the Spoke-line or PLT path, and on the ETH0 path | 2 x 64 bits or none | R413, R541 | none -/
  spoke : Option Nat := none
  eth : Option Nat := none
  /-- paired, single, different, discarded and advance copies | 5 x 32 bits | R413 | 0 -/
  counts : List Nat := [0, 0, 0, 0, 0]
  /-- consecutive paired SEQs | count | R402 | 0 -/
  run : Nat := 0
  /-- tick since which only paired SEQs have been delivered | - | R404 | none -/
  clean : Option Nat := none
  /-- tick at which the watchdog last started; none before its first start | - | R402 | none -/
  watch : Option Nat := none
  /-- STOP_CH and STOP0 as they act | 2 x 16 bits | R401, R403 | 0 -/
  stopCh : Nat := 0
  stop0 : Nat := 0
  /-- outlets under STOP1 with the tick at which MAX_RAMP is reached | - | R403 | none -/
  stop1 : List (Nat × Nat) := []
  /-- AT_ZERO taken | 16 bits | R403 | 0 -/
  atZero : Nat := 0
deriving DecidableEq, Repr, Inhabited

/-- A safety parameter set (R406). -/
structure SafeSet where
  /-- header, 16 bytes -/
  header : Bytes := List.replicate 16 0
  inputs : List Bytes := (List.range 16).map fun i => BitVec.ofNat 8 i :: List.replicate 7 0
  insts : List Bytes := (List.range 32).map fun i => BitVec.ofNat 8 i :: List.replicate 15 0
  pairs : List Bytes := (List.range 6).map fun i => BitVec.ofNat 8 i :: List.replicate 7 0
  conns : List Bytes := (List.range 8).map fun i => BitVec.ofNat 8 i :: List.replicate 15 0
  exports : Bytes := List.replicate 16 255
deriving DecidableEq, Repr, Inhabited

/-- The edit session (R408). -/
structure Edit where
  ch : Nat
  handle : Nat
  /-- operating second at which it was opened or last written | 64 bits | R408 | - -/
  since : Nat := 0
  staging : SafeSet
deriving DecidableEq, Repr, Inhabited

/-- Safety state that a reset clears. -/
structure Saf where
  /-- safety tick count | 64 bits | R392 | 0 -/
  tick : Nat := 0
  /-- SI0 to SI15 | - | R359 | see SafeInput -/
  inputs : List SafeInput := List.replicate 16 {}
  /-- TP0 to TP3 low after the present edge | 4 bits | R361 | 0 -/
  tp : List Bool := [false, false, false, false]
  /-- instances 0 to 31, then the implicit external stops of outlets A, B, C | 35 | R366, R371 | see Inst -/
  insts : List Inst := List.replicate 35 {}
  /-- pairs SO0 to SO5 | - | R385 | see Pair -/
  pairs : List Pair := List.replicate 6 {}
  /-- connections | 8 | R395 | see Conn -/
  conns : List Conn := List.replicate 8 {}
  /-- category of the stop demand on each outlet 1 to 12, as launched | 12 | R367, R382 | none -/
  demand : List (Option Nat) := List.replicate 12 none
  /-- the same as computed last | 12 | R28 | none -/
  demandNext : List (Option Nat) := List.replicate 12 none
  /-- STOP_CH, STOP0, STOP1 as computed last | 3 x 16 bits | R397 | 0 -/
  stopBits : List Nat := [0, 0, 0]
  /-- an advance frame goes out at the next edge | 1 bit | R398 | 0 -/
  advance : Bool := false
  /-- SEQ of the next periodic frame, last ADV_IDX used | 32, 8 bits | R398 | 0 -/
  seq : Nat := 0
  advIdx : Nat := 0
  /-- last periodic frame, for the sender's slot | 36 bytes or none | R398 | none -/
  frame : Bytes := []
  /-- safety tick at which it was handed to the Spoke-line | 64 bits | R333 | 0 -/
  frameTick : Nat := 0
  /-- the digests of the last tick differ | 1 bit | R356 | 0 -/
  differ : Bool := false
  /-- consecutive edges missed by S0, S1 | 2 counts | R357 | 0 -/
  missed : List Nat := [0, 0]
  /-- cross-comparison failures | 32 bits | R392 | 0 -/
  compareFails : Nat := 0
  /-- consecutive ticks that compared equal | count | R99 | 0 -/
  compareOk : Nat := 0
  /-- consecutive edges at which every pair read back right | count | R99 | 0 -/
  pairsOk : Nat := 0
  /-- the cores have stopped feeding the load watchdog | 1 bit | R356 | 0 -/
  feedStop : Bool := false
  /-- feed words written and waiting for the next launch | 1 bit | R28, R430 | 0 -/
  feedNext : Bool := false
  /-- edit session | - | R408 | none -/
  edit : Option Edit := none
  /-- tick of the last dark test of any pair | - | R387 | none -/
  darkTick : Option Nat := none
deriving DecidableEq, Repr

/-- A copy of the safety parameter set in MRAM (R409). -/
structure SafeCopy where
  /-- no uncorrectable error is found in the copy (R40) -/
  readable : Bool := true
  /-- integrity tag: none for the tag that R459 gives over the copy, some for other bytes in the cells -/
  tag : Option Bytes := none
  generation : Nat := 0
  acked : Bool := false
  set : Option SafeSet := none
deriving DecidableEq, Repr, Inhabited

/-- Safety area of MRAM. -/
structure SafNv where
  /-- the two copies | 2 x 848 bytes with state and generation | R409 | DESIGN CHOICE none held, as leaving manufacture (R410, log entry 8) -/
  copies : List SafeCopy := [{}, {}]
  /-- password salt, 16 bytes, and SHAKE256 digest, 32 bytes | - | R407 | DESIGN CHOICE none set (log entry 8) -/
  password : Option (Bytes × Bytes) := none
  /-- consecutive wrong passwords; lock-outs without an intervening success; operating second at which a lock-out ends | 8, 8, 64 bits | R407 | DESIGN CHOICE 0, 0, none (log entry 8) -/
  fails : Nat := 0
  lockouts : Nat := 0
  lockUntil : Option Nat := none
  /-- change-log head, newest first: bytes of commit and acknowledgement records | 32 x 64 bytes | R411 | DESIGN CHOICE none (log entry 8) -/
  log : List Bytes := []
deriving DecidableEq, Repr

/-! ### Load channels -/

/-- A load channel. -/
structure Load where
  /-- request | 1 bit | R418 | 0 (R429) -/
  request : Bool := false
  /-- on | 1 bit | R418 | off (R77) -/
  on : Bool := false
  /-- faults that hold it off: [0] short to ground, [1] overtemperature, [2] overload | 8 bits | R424, R433 | 0 -/
  fault : Nat := 0
  /-- reports: [0] open load on, [1] open load off, [2] short to VLOAD | 8 bits | R421, R433 | 0 -/
  report : Nat := 0
  /-- overtemperature latch | 1 bit | R423 | 1 -/
  latch : Bool := true
  /-- consecutive samples below 140 degC | count | R423 | 0 -/
  cool : Nat := 0
  /-- RETRY_LEFT | 8 bits | R424 | RETRY_MAX of the entry at boot, else 0 -/
  left : Nat := 0
  /-- ms since the retry delay began; none while none runs | - | R424 | none -/
  retry : Option Nat := none
  /-- exhausted | 1 bit | R424 | 0 -/
  exhausted : Bool := false
  /-- the waiting switch-on is a retry | 1 bit | R424 | 0 -/
  byRetry : Bool := false
  /-- order of the waiting switch-on; none while none waits | - | R427 | none -/
  waiting : Option Nat := none
  /-- ms for which the switch-on has waited | count | R427 | 0 -/
  waitMs : Nat := 0
  /-- ms since the last switch-on | count | R421, R425 | 0 -/
  onMs : Nat := 0
  /-- ms since the last turn-off; none if there was none | - | R428 | none -/
  offMs : Option Nat := none
  /-- 1 ms means, newest first, mA | 10 values | R421 | none -/
  means : List Nat := []
  /-- channel temperature, 0.1 degC | signed 16 bits | R421 | 0 -/
  temp : Int := 0
  /-- consecutive means below OL_MIN | count | R421 | 0 -/
  low : Nat := 0
  /-- it has been switched on by a retry since RETRY_LEFT last reloaded | 1 bit | R435 | 0 -/
  retried : Bool := false
  /-- faults since boot | 32 bits | R433 | 0 -/
  faults : Nat := 0
  /-- MODE 2: on-edge after the generator's period start and on-time that the next on-edge takes, counts | 2 counts | R419, R420
  | 0 -/
  pulse : Nat × Nat := (0, 0)
deriving DecidableEq, Repr, Inhabited

/-- The load switches and their watchdog. -/
structure Ldc where
  /-- LD0 to LD23 | - | R416 | see Load -/
  chans : List Load := List.replicate 24 {}
  /-- duty code set by command, per generator | 8 x 11 bits | R419 | 0 -/
  duty : List Nat := List.replicate 8 0
  /-- number of the next waiting switch-on | count | R427 | 0 -/
  order : Nat := 0
  /-- VLOAD measured, 0.1 V | 16 bits | R433 | 0 -/
  vload : Nat := 0
  /-- the load watchdog has tripped and the trip is latched | 1 bit | R430 | 0 -/
  tripped : Bool := false
  /-- last valid feed words of S0 and S1 | 2 x 8 bits | R430 | 0x5A -/
  word : List Nat := [0x5A, 0x5A]
  /-- tick of the last valid feed of S0 and S1 | 2 x 64 bits | R430 | 0 -/
  feed : List Nat := [0, 0]
  /-- consecutive ticks at which both cores have fed | count | R431 | 0 -/
  fed : Nat := 0
deriving DecidableEq, Repr

/-! ### Buffer stack -/

/-- A companion as the part knows it. -/
structure Comp where
  /-- last clean slot | 48 bytes | R456 | zeros -/
  slot : Bytes := List.replicate 48 0
  /-- epoch at which its values were sampled; none before the first | 64 bits | R451, R456 | none -/
  at_ : Option Nat := none
  /-- read in the present sweep | 1 bit | R450 | 0 -/
  read : Bool := false
  /-- stale, new, replaced | 3 bits | R451, R452, R440 | 0 -/
  stale : Bool := false
  fresh : Bool := false
  replaced : Bool := false
  /-- balancing mask last commanded or read | 24 bits | R444, R456 | 0 -/
  balance : Nat := 0
deriving DecidableEq, Repr, Inhabited

/-- A Pannier chain. -/
structure Pannier where
  /-- 0 unused, 1 whole, 2 broken, 3 asleep, 4 enumeration fault | 8 bits | R456 | 0 -/
  state : Nat := 0
  /-- counter returned by the last ENUMERATE | 8 bits | R440 | 0 -/
  counter : Nat := 0
  /-- ENUMERATE attempts that returned a wrong counter in a row | count | R440 | 0 -/
  tries : Nat := 0
  /-- enumeration is due before the next sweep | 1 bit | R440 | 1 -/
  enumDue : Bool := true
  /-- position below the break, 0 for none | 8 bits | R450 | 0 -/
  break_ : Nat := 0
  /-- sweep number | 16 bits | R439, R456 | 0 -/
  sweep : Nat := 0
  /-- a READ_ALL is on the line: none, from A, from B | - | R441, R450 | none -/
  reading : Option Bool := none
  /-- highest position read from the A end in the present sweep | 8 bits | R450 | 0 -/
  fromA : Nat := 0
  /-- partial sweeps | 32 bits | R456 | 0 -/
  partials : Nat := 0
  /-- SEQ of the next frame | 8 bits | R438 | DESIGN CHOICE 0 (log entry 8) -/
  seq : Nat := 0
  /-- frames sent since the last sweep started, preamble to CRC, oldest first | - | R438, R439 | none -/
  sent : List Bytes := []
  /-- companions at positions 1 to 48 | - | R439 | see Comp -/
  comps : List Comp := List.replicate 48 {}
  /-- fault loop as the cores filter it | - | R448 | open (log entry 20) -/
  loop : SafeChan := {}
  /-- loop permit | 1 bit | R448 | 0 -/
  permit : Bool := false
deriving DecidableEq, Repr, Inhabited

/-- A string of the buffer. -/
structure StackStr where
  /-- in service | 1 bit | R449 to R452 | 0 -/
  service : Bool := false
  /-- slots of its companions in the latest plausible sweep, ascending | at most 48 x 48 bytes | R444, R454 | none -/
  slots : List Bytes := []
  /-- lowest, highest cell and cell sum of the latest plausible sweep, 100 uV | 3 x 32 bits | R452, R454 | 0 -/
  vMin : Nat := 0
  vMax : Nat := 0
  vSum : Nat := 0
  /-- lowest and highest temperature of it, 0.1 degC | 2 x signed 16 bits | R454 | 0 -/
  tMin : Int := 0
  tMax : Int := 0
  /-- charge, mA for 125 us each | R454 | DESIGN CHOICE 0 (log entry 8) -/
  charge : Nat := 0
  /-- I_dis and I_chg, A | 2 x 16 bits | R454 | 0 -/
  iDis : Nat := 0
  iChg : Nat := 0
deriving DecidableEq, Repr, Inhabited

/-- The buffer stack. -/
structure Stk where
  /-- chains 0 and 1 | - | R436 | see Pannier -/
  chains : List Pannier := [{}, {}]
  /-- strings 1 to 4 | - | R453 | see StackStr -/
  strings : List StackStr := List.replicate 4 {}
  /-- discharge and charge limits, kW, and state of charge, per mille, delivered to the Derailleur | 2 x 32, 16 bits | R454 | 0 -/
  dis : Nat := 0
  chg : Nat := 0
  soc : Nat := 0
  /-- they have been delivered since the last epoch boundary | 1 bit | R110, R454 | 0 -/
  fresh : Bool := false
deriving DecidableEq, Repr

/-- Stack area of MRAM. -/
structure StkNv where
  /-- serial of every position of both chains | 2 x 48 x 48 bits, or none | R440 | DESIGN CHOICE none (log entry 8) -/
  serials : List (List (Option Nat)) := [List.replicate 48 none, List.replicate 48 none]
deriving DecidableEq, Repr

end Sys2Proof.Machine
end

