-- ==== Sys2Proof/Machine/TypesTandem.lean ====
section
/-!
DEFINITION. State of the tandem pair and of peloton mode (chapter 19). Each field's note reads: what it is | width |
rule | value at reset.
-/
namespace Sys2Proof.Machine

/-- Tandem states (table of tandem states); `none` outside a pair. -/
inductive TandemState where
  | none
  | active
  | standby
  | syncing
  | alone
  | fenced
deriving DecidableEq, Repr, Inhabited

/-- The code of a tandem state in SYS_STATUS.TANDEM. -/
def TandemState.code : TandemState → Nat
  | .none => 0
  | .active => 1
  | .standby => 2
  | .syncing => 3
  | .alone => 4
  | .fenced => 5

/-- Tandem link and authority state. -/
structure Tdm where
  /-- tandem state, SYS_STATUS.TANDEM | 3 bits | R502, R519 | 0, not in a pair -/
  state : TandemState := .none
  /-- TND_AUTH_O, own authority claim, and with it the own heartbeat, which the link carries while it is high | 1 bit | R498, R499,
  R77 | 0 -/
  authO : Bool := false
  /-- TND_AUTH_I, the partner's claim as seen | 1 bit | R498 | 0 -/
  authI : Bool := false
  /-- the 20 us guard of a claim is running | 1 bit | R501 | 0 -/
  guardRuns : Bool := false
  /-- time since the last launch that restarted the authority timer, us | - | R503 | 0 -/
  sinceNew : Nat := 0
  /-- the partner's heartbeat is present | 1 bit | R499 | 0 -/
  heartbeat : Bool := false
  /-- partner state as known from its frames | 3 bits | R519 | 0 -/
  partner : Nat := 0
  /-- consecutive clean shadow epochs | 32 bits | R509 | 0 -/
  eligible : Nat := 0
  /-- epochs since the last complete shadow frame; none if there has been none | - | R519, R541 | none -/
  shadowAge : Option Nat := Option.none
  /-- consecutive missing shadow frames | count | R509 | 0 -/
  missing : Nat := 0
  /-- takeovers since boot | 32 bits | R519 | 0 -/
  takeovers : Nat := 0
  /-- fence cause: 0 none, 1 tie, 2 authority line, 3 foreign master | 8 bits | R519 | 0 -/
  fenceCause : Nat := 0
  /-- SHARED_DIGEST of the partner matches | 1 bit | R508, R519 | 0 -/
  digestMatch : Bool := false
  /-- operating second of the last takeover | 64 bits | R519 | 0 -/
  lastTakeover : Nat := 0
  /-- the bulk transfer has been received since SYNCING was entered | 1 bit | R509 | 0 -/
  bulk : Bool := false
  /-- a switch-over is pending | 1 bit | R520 | 0 -/
  switchPending : Bool := false
  /-- SWITCH has gone out in a shadow frame | 1 bit | R507 | 0 -/
  switchSent : Bool := false
  /-- the last complete shadow frame received | at most 32 KiB | R507 | none -/
  shadow : Option ShadowFrame := Option.none
  /-- the shadow frame sent at the last boundary | at most 32 KiB | R507 | none -/
  sent : Option ShadowFrame := Option.none
deriving DecidableEq, Repr

/-- A peloton member as this part sees it. -/
structure Member where
  /-- 0 absent, 1 present, 2 lost | 8 bits | R519 | 0 -/
  state : Nat := 0
  /-- missed frames | 32 bits | R519 | 0 -/
  missed : Nat := 0
  /-- consecutive missing or faulty frames | count | R518 | 0 -/
  run : Nat := 0
  /-- consecutive good frames while lost | count | R518 | 0 -/
  good : Nat := 0
  /-- a good frame has come in the running epoch | 1 bit | R518 | 0 -/
  heard : Bool := false
  /-- the member is in Kickstand, FLAGS[0] | 1 bit | R514 | 0 -/
  kick : Bool := false
  /-- P_OUT of its outlets, kW | 3 x signed 32 bits | R514 | 0 -/
  pOut : List Int := [0, 0, 0]
deriving DecidableEq, Repr, Inhabited

/-- Peloton bus state. -/
structure Peloton where
  /-- the four members | - | R514 | absent -/
  members : List Member := [{}, {}, {}, {}]
  /-- G received from member 0, kW | signed 32 bits | R514, R519 | 0 -/
  g : Int := 0
  /-- P_OTHER received from member 0, kW | signed 32 bits | R514 | 0 -/
  pOther : Int := 0
  /-- BUF_SET received from member 0, kW | signed 32 bits | R514 | 0 -/
  bufSet : Int := 0
  /-- grid values valid | 1 bit | R514 | 0 -/
  gridValid : Bool := false
  /-- the frame of this member's slot, captured at the last boundary | 100 bytes | R514 | none -/
  sent : Bytes := []
  /-- PLT_SYNC lost: epochs timed from the own reference | 1 bit | R518 | 0 -/
  syncLost : Bool := false
deriving DecidableEq, Repr

end Sys2Proof.Machine
end

