-- ==== Sys2Proof/Machine/State.lean ====
section
/-!
DEFINITION. The state of the block, all of it plain data, with the queue of waiting commands; the reasons a step can
stop; and the state right after reset.
-/
namespace Sys2Proof.Machine

/-- Reasons for a fault. There is none: the block has no behaviour that the spec ends in a stop (NOTES.md, Stops). -/
inductive Fault where
deriving DecidableEq, Repr

/-- Reasons for a refusal. -/
inductive Refusal where
  /-- Raised by Dispatch.lean for a command that has no meaning yet; safe. -/
  | notModelled (mnemonic : String)
deriving DecidableEq, Repr

/-- Supplies, the level of RESET_N and the wall clock, which are no register of the part and which a reset leaves alone. -/
structure Env where
  /-- the conditions of R74 are met: rails in range, the reference has run for 2 ms | 1 bit | R74 | DESIGN CHOICE not yet (log entry 8) -/
  rails : Bool := false
  /-- VDDIO in range | 1 bit | R74, R104 | DESIGN CHOICE not yet (log entry 8) -/
  vddio : Bool := false
  /-- level of RESET_N | 1 bit | R76, R78 | DESIGN CHOICE high (log entry 8) -/
  resetN : Bool := true
  /-- held time measured by the counter in the VBAT domain and not yet latched by a boot, ms; none if there was no hold | 32 bits | R78 | none -/
  heldMs : Option Nat := none
  /-- VLOAD in range | 1 bit | R75, R429 | DESIGN CHOICE in range (log entry 8) -/
  vload : Bool := true
  /-- VSOUT in range | 1 bit | R75, R527 | DESIGN CHOICE in range (log entry 8) -/
  vsout : Bool := true
  /-- VLINE in range | 1 bit | R75, R316 | DESIGN CHOICE in range (log entry 8) -/
  vline : Bool := true
  /-- VBAT present | 1 bit | R75, R78, R527 | DESIGN CHOICE present (log entry 8) -/
  vbat : Bool := true
  /-- wall time, s since 1970 | signed 64 bits | R485, R298 | DESIGN CHOICE 0 (log entry 8) -/
  wall : Int := 0
  /-- milliseconds beyond it | 10 bits | R298 | DESIGN CHOICE 0 (log entry 8) -/
  wallMs : Nat := 0
  /-- wall-time quality good | 1 bit | R34, R298 | DESIGN CHOICE 0 (log entry 8) -/
  wallGood : Bool := false
deriving DecidableEq, Repr

/-- The state of the block. -/
structure State where
  sys : Sys := {}
  win : Win := {}
  mbx : Mbx := {}
  keys : Keys := {}
  recd : Recorder := {}
  /-- the configuration image in service; its fields are those of {} when none is | - | R85 | none -/
  cfg : ConfigImage := {}
  alc : Alc := {}
  cad : Cadence := {}
  chr : Chainring := {}
  /-- vehicle links of outlets A, B, C | - | chapter 08 | see Link -/
  links : List Link := [{}, {}, {}]
  /-- sessions of outlets A, B, C | - | chapter 09 | see Session -/
  ses : List Session := [{}, {}, {}]
  /-- milliseconds since a grant was last accepted; none before the first | - | R243 | none -/
  grantAge : Option Nat := none
  /-- GPIO levels seen high (bridge association) | 16 bits | R213 | 0 -/
  gpio : Nat := 0
  heat : Heat := {}
  spk : Spoke := {}
  mtr : Mtr := {}
  saf : Saf := {}
  ldc : Ldc := {}
  stk : Stk := {}
  tdm : Tdm := {}
  plt : Peloton := {}
  nv : SysNv := {}
  nvRec : RecNv := {}
  nvHub : HubNv := {}
  nvOut : OutletNv := {}
  nvHeat : HeatNv := {}
  nvMtr : MtrNv := {}
  nvSaf : SafNv := {}
  nvStk : StkNv := {}
  /-- the 256 key slots | 256 x 2 x 4 KiB | R459, R460 | DESIGN CHOICE every slot empty (log entry 8) -/
  slots : List KeySlot := List.replicate 256 {}
  env : Env := {}
  /-- the model's own field: number of free values drawn so far | - | log entry 4 | DESIGN CHOICE 0 -/
  free : Nat := 0
  /-- commands waiting, first in first out | - | the block form of the model | empty -/
  pending : List Instr := []
deriving DecidableEq, Repr

/-- The block right after reset. -/
def State.reset : State := {}

end Sys2Proof.Machine
end

