-- ==== Sys2Proof/Machine/Flags.lean ====
section
/-!
DEFINITION. Status codes, event sources, pending bits and bell lines (status code table, R10, R71, R72, R73), and
the status bits of WIN_ERR.
-/
namespace Sys2Proof.Machine

/-! ### Status codes -/

abbrev stOk : Nat := 0x00
abbrev stAccepted : Nat := 0x01
abbrev stBusy : Nat := 0x02
abbrev stBadOpcode : Nat := 0x10
abbrev stBadLength : Nat := 0x11
abbrev stBadArg : Nat := 0x12
abbrev stBadCrc : Nat := 0x13
abbrev stDeniedWorld : Nat := 0x20
abbrev stDeniedLifecycle : Nat := 0x21
abbrev stDeniedCredential : Nat := 0x22
abbrev stSealed : Nat := 0x23
abbrev stSafetyLocked : Nat := 0x24
abbrev stKeyBadSlot : Nat := 0x30
abbrev stKeyParentRevoked : Nat := 0x31
abbrev stKeyAttr : Nat := 0x32
abbrev stOverBudget : Nat := 0x40
abbrev stNotInRole : Nat := 0x41
abbrev stKickstand : Nat := 0x50
abbrev stTagInUse : Nat := 0x60
abbrev stTimeout : Nat := 0x61
abbrev stInternal : Nat := 0x7F

/-! ### Events (R71) -/

/-- The bell line a source is routed to: EV_ROUTEm[2j+1:2j]. -/
def routeOf (s : State) (n : Nat) : Nat := (s.win.route.extractLsb' (2 * n) 2).toNat

/-- A source is both pending and enabled. -/
def active (s : State) (n : Nat) : Bool := s.win.pend.getLsbD n && s.win.en.getLsbD n

/-- A bell line is asserted: the mailbox is live (R73) and a source routed to it is pending and enabled (R71). -/
def bellAsserted (s : State) (line : Nat) : Bool :=
  s.sys.live && (List.range 128).any fun n => active s n && routeOf s n == line

/-- The 2 us release of R72: the line is asserted already, PULSE is set, and a further source becomes active. -/
def pulseIf (s : State) (n : Nat) : List Nat :=
  if s.win.pulse.getLsbD (routeOf s n) && s.win.en.getLsbD n && !s.win.pend.getLsbD n && bellAsserted s (routeOf s n)
  then upd s.win.pulses (routeOf s n) (· + 1) else s.win.pulses

/-- Setting the pending bit of an event source, enabled or not. -/
def raise (n : Nat) (s : State) : State :=
  { s with win.pend := s.win.pend ||| (1#128 <<< n), win.pulses := pulseIf s n }

/-- Setting an event source on a condition. -/
def raiseIf (c : Bool) (n : Nat) (s : State) : State := if c then raise n s else s

abbrev evSysLive : Nat := 0
abbrev evSysKickstand : Nat := 1
abbrev evSysReleased : Nat := 2
abbrev evSysSupply : Nat := 3
abbrev evSysLate : Nat := 4
abbrev evSysLifecycle : Nat := 5
abbrev evSysFirewall : Nat := 6
abbrev evSysMemory : Nat := 7
/-- EV_MBX_RSPn is source 8 + n. -/
abbrev evMbxRsp : Nat := 8
abbrev evMbxFraming : Nat := 12
abbrev evMbxCred : Nat := 13
abbrev evMbxLink : Nat := 14
abbrev evMbxChannelReset : Nat := 15
abbrev evKeySlotBad : Nat := 112
abbrev evKeyRolledBack : Nat := 113
abbrev evKeyRevoked : Nat := 114
abbrev evKeyChanged : Nat := 115
abbrev evRecWrap : Nat := 116
abbrev evRecCleared : Nat := 117
abbrev evRecLost : Nat := 118
abbrev evRecStorage : Nat := 119

/-! ### WIN_ERR (R46, R53) -/

/-- Setting bit `n` of WIN_ERR. -/
def winErr (n : Nat) (s : State) : State := { s with win.err := s.win.err ||| (1#32 <<< n) }

/-- The late flags with that of a launch register set. -/
def withLate (reg : Nat) (l : List Nat) : List Nat := if l.contains reg then l else l ++ [reg]

/-- Setting the sticky late flag of a launch register, with EV_SYS_LATE when SYS_STATUS.LATE goes to 1 (R29, event table). -/
def setLate (reg : Nat) (s : State) : State :=
  raiseIf s.sys.late.isEmpty evSysLate { s with sys.late := withLate reg s.sys.late }

/-- The launch registers with a sticky late flag (R29, field sys.late). -/
abbrev lateRing (r : Nat) : Nat := r
abbrev lateAlc : Nat := 2
abbrev lateSafety (core : Nat) : Nat := 3 + core
abbrev lateGroup (g : Nat) : Nat := 16 + g

end Sys2Proof.Machine
end

