-- ==== Sys2Proof/Machine/Ops.lean ====
section
/-!
DEFINITION. The named operations that every family shares: fresh values, the life-cycle state, making a record
(R484, R487, R491, R495), sending a response (R54, R65 to R67), and the order of request checks (R64).
-/
namespace Sys2Proof.Machine

/-- The answer of a meaning. -/
abbrev Res := Host.Outcome State Fault Refusal

/-! ### Free values (log entry 4) -/

/-- One draw taken: the counter the next free value depends on. -/
def drawn (s : State) : State := { s with free := s.free + 1 }

/-- Fresh random bytes at the present draw. -/
def fresh (s : State) (n : Nat) : Bytes := slice (Config.freshBytes s.free n) 0 n

/-! ### Integrity tags (R459) -/

/-- The key that the key engine derives from the hardware-unique key for a use (R459). -/
def derivedKey (use : Bytes) : Bytes := slice (Config.shake256 (Config.huk ++ use) 32) 0 32

/-- The integrity or commit tag of a message under the derived key of its use (R459). -/
def integrityTag (use msg : Bytes) : Bytes := slice (Config.kmac256 (derivedKey use) [] msg) 0 8

/-- What the cells of a tag hold is the right tag. -/
def tagRight (held : Option Bytes) (right : Bytes) : Bool :=
  match held with
  | none => true
  | some t => t == right

/-! ### Life-cycle (R91, R94) -/

/-- A copy of the life-cycle word as its tag covers it (R459; layout: log entry 26). -/
def lcBytes (c : LcCopy) : Bytes := u8 c.state ++ u32 c.generation

/-- A copy of the life-cycle word is valid (R94, R459). -/
def lcGood (c : LcCopy) : Bool := c.readable && tagRight c.tag (integrityTag (ascii "DRINOV-LCS") (lcBytes c))

/-- The valid copy of the life-cycle word with the higher generation. -/
def lcWinner (l : List LcCopy) : LcCopy :=
  match l with
  | [x, y] => if !lcGood x then y else if !lcGood y then x else if y.generation > x.generation then y else x
  | x :: _ => x
  | [] => {}

/-- The life-cycle state, 1 to 7. -/
def lifecycle (s : State) : Nat := (lcWinner s.nv.lc).state

abbrev lcManufacture : Nat := 1
abbrev lcProvisioned : Nat := 2
abbrev lcIntegration : Nat := 3
abbrev lcField : Nat := 4
abbrev lcService : Nat := 5
abbrev lcReturned : Nat := 6
abbrev lcScrapped : Nat := 7

/-- Every life-cycle state, as a mask. -/
abbrev lcAll : Nat := 0xFE
/-- INTEGRATION, FIELD and SERVICE. -/
abbrev lcIFS : Nat := 0x38
/-- INTEGRATION and FIELD. -/
abbrev lcIF : Nat := 0x18
/-- INTEGRATION and SERVICE. -/
abbrev lcIS : Nat := 0x28
/-- MANUFACTURE to SERVICE. -/
abbrev lcMPIFS : Nat := 0x3E

/-- Stages, contactors and load channels may be energised (table of R91). -/
def mayEnergise (s : State) : Bool := lifecycle s == lcIntegration || lifecycle s == lcField || lifecycle s == lcService

/-- Charging sessions are permitted (table of R91). -/
def maySession (s : State) : Bool := lifecycle s == lcIntegration || lifecycle s == lcField

/-- The part is in Kickstand (R97). -/
def kicked (s : State) : Bool := !s.sys.kicks.isEmpty

/-- The part has finished its boot and serves its role (R80). -/
def up (s : State) : Bool := s.sys.phase == .running

/-! ### Key slots (R460, R464) -/

/-- Bytes 0 to 63 of a slot copy. -/
def copyHead (k : KeyCopy) : Bytes :=
  u16 k.magic ++ u8 k.state ++ u8 k.alg ++ u32 k.generation ++ u8 k.usage ++ u8 k.masters ++ u8 k.world ++ u8 k.lifecycles ++
    u8 k.flags ++ u8 k.parent ++ u16 k.material.length ++ u32 k.epoch ++ u32 k.parentEpoch ++ slice k.label 0 32 ++
    List.replicate 8 0

/-- The TAG of a copy in slot `n`: over bytes 0 to 4,087 and the slot number (R459, slot copy table). -/
def copyTag (n : Nat) (k : KeyCopy) : Bytes :=
  integrityTag (ascii "DRINOV-KEY") (copyHead k ++ slice k.material 0 4016 ++ List.replicate 8 0 ++ u8 n)

/-- A copy in slot `n` is good (R460). -/
def copyGood (n : Nat) (k : KeyCopy) : Bool := k.magic == 0x5D4B && k.readable && tagRight k.tag (copyTag n k)

/-- The winner of slot `n`: the good copy with the higher generation, copy A where equal (R460). -/
def slotWinner (n : Nat) (k : KeySlot) : Option KeyCopy :=
  match copyGood n k.a, copyGood n k.b with
  | true, true => some (if k.b.generation > k.a.generation then k.b else k.a)
  | true, false => some k.a
  | false, true => some k.b
  | false, false => none

/-- The winner of slot `n`; none where the slot is bad. -/
def winner (s : State) (n : Nat) : Option KeyCopy := slotWinner n (nth s.slots n)

/-- FLAGS.PRIVATE of a slot copy. -/
def keyPrivate (k : KeyCopy) : Bool := bit k.flags 1

/-- The public part of a slot copy (note under the table of algorithms). -/
def keyPublic (k : KeyCopy) : Bytes := if keyPrivate k then Config.publicPart k.alg k.material else k.material

/-- The public part of slot `n`, empty where it holds no valid key. -/
def publicOf (s : State) (n : Nat) : Bytes :=
  match winner s n with
  | some k => if k.state = 1 then keyPublic k else []
  | none => []

/-- A digest of 32 bytes (SHAKE256). -/
def digest32 (b : Bytes) : Bytes := slice (Config.shake256 b 32) 0 32

/-- The device identity digest (R464). -/
def identity (s : State) : Bytes := digest32 (publicOf s 0)

/-- A signature verifies under a public key over a message (log entry 5). -/
def sigOk (g : Sig) (key msg : Bytes) : Bool := key != [] && g.key == key && g.msg == msg

/-! ### Making a record (R484 to R495) -/

/-- Partition number 1 to 4 of a record code (R482). -/
def partOf (code : Nat) : Nat := code / 4096

abbrev srcA0 : Nat := 0x01
abbrev srcA1 : Nat := 0x02
abbrev srcSafety : Nat := 0x05
abbrev srcMetrology : Nat := 0x06
abbrev srcCadence : Nat := 0x07
abbrev srcSpoke : Nat := 0x08
abbrev srcPilot : Nat := 0x09
abbrev srcKey : Nat := 0x0A
abbrev srcHousekeeping : Nat := 0x0B
abbrev srcBoot : Nat := 0x0C
abbrev srcHost : Nat := 0x0D

/-- Capacity of the LEGAL partition (R481). -/
abbrev legalCapacity : Nat := 8192

/-- LEGAL records held and waiting to be committed (R492, R495). -/
def legalHeld (s : State) : Nat :=
  (nth s.nvRec.parts 0).next - max (nth s.nvRec.parts 0).oldest (nth s.nvRec.parts 0).floor +
    (s.recd.intake.filter fun d => partOf d.code == 1).length + s.recd.waiting.length

/-- The LEGAL partition is full (R495). -/
def legalFull (s : State) : Bool := legalCapacity ≤ legalHeld s

/-- The drop counters after the loss of one record of partition `p` (R487). -/
def dropOne (p : Nat) (s : State) : State :=
  raise evRecLost { s with
    nvRec.parts := upd s.nvRec.parts (p - 1) fun q => { q with drops := q.drops + 1 }
    recd.dropped := upd s.recd.dropped (p - 1) (· + 1)
    recd.dropFirst := if s.recd.dropped.all (· == 0) then s.nv.opSeconds else s.recd.dropFirst
    recd.dropLast := s.nv.opSeconds }

/-- The queue without the most recently queued record of partition `p`. -/
def dropLast (p : Nat) (q : List Draft) : Option (List Draft) :=
  match q.reverse.findIdx? fun d => partOf d.code == p with
  | some i => some (q.reverse.eraseIdx i).reverse
  | none => none

/-- Whether a record of partition `p` finds a place in the intake queue (R487). -/
def hasPlace (p : Nat) (s : State) : Bool :=
  if p = 1 then s.recd.intake.length < 1024
  else if p = 4 then s.recd.intake.length < 768
  else s.recd.intake.length < 1008

/-- A record that takes a place in the queue. -/
def append (d : Draft) (s : State) : State := { s with recd.intake := s.recd.intake ++ [d] }

/-- A LEGAL record made without a command where all places are in use (R487). -/
def displace (d : Draft) (s : State) : State :=
  match dropLast 4 s.recd.intake with
  | some q => append d (dropOne 4 { s with recd.intake := q })
  | none => match dropLast 3 s.recd.intake with
    | some q => append d (dropOne 3 { s with recd.intake := q })
    | none => match dropLast 2 s.recd.intake with
      | some q => append d (dropOne 2 { s with recd.intake := q })
      | none => { s with recd.waiting := s.recd.waiting ++ [d] }

/-- A record of SAFETY, SECURITY or GENERAL into the intake queue. -/
def intakeOther (d : Draft) (s : State) : State :=
  if hasPlace (partOf d.code) s then append d s else dropOne (partOf d.code) s

/-- The record as it stands when it is made: operating second, power cycles, wall time (record table). -/
def draft (code source : Nat) (params : Bytes) (s : State) : Draft :=
  { code := code, source := source, params := params, opSeconds := s.nv.opSeconds, cycles := s.nv.powerCycles,
    wall := s.env.wall, wallGood := s.env.wallGood, full := legalFull s }

/-- A made record into the intake queue, or into the boot firmware's hold before image verification ends (R489). -/
def intake (d : Draft) (s : State) : State :=
  match s.sys.phase with
  | .held | .heatHold | .wipe | .verify => { s with recd.boot := s.recd.boot ++ [d] }
  | _ =>
    if partOf d.code = 1 then
      if legalFull s then
        raise evRecLost (intakeOther (draft 0x4D04 srcA0 (u16 d.code ++ u32 (s.nvRec.overflow + 1)) s)
          { s with nvRec.overflow := s.nvRec.overflow + 1 })
      else if !s.recd.waiting.isEmpty then { s with recd.waiting := s.recd.waiting ++ [d] }
      else if hasPlace 1 s then append d s
      else displace d s
    else intakeOther d s

/-- The rate-limit entry of a code: N and WINDOW (table of rate-limit entries). -/
def limitOf (s : State) (code : Nat) : Option (Nat × Nat) :=
  (s.cfg.limits.find? fun e => g16 e 0 == code).map fun e => (g8 e 2, g16 e 4)

/-- The end of a rate-limit window: its summary where something was suppressed (R491). -/
def closeWindow (code : Nat) (s : State) : State :=
  match s.recd.windows.find? fun w => w.code == code with
  | none => s
  | some w =>
    let s' := { s with recd.windows := s.recd.windows.filter fun v => v.code != code }
    if w.suppressed = 0 then s'
    else intake { draft (partOf code * 4096 + 0xD01) srcA0
      (u16 code ++ u32 w.suppressed ++ u64 w.first ++ u64 w.last) s' with summary := true } s'

/-- Making a record: rate limit first, then the intake queue (R491). -/
def record (code source : Nat) (params : Bytes) (s : State) : State :=
  match limitOf s code with
  | none => intake (draft code source params s) s
  | some (n, len) =>
    match s.recd.windows.find? fun w => w.code == code with
    | some w =>
      if s.nv.opSeconds < w.start + w.length then
        if w.seen < w.limit then
          intake (draft code source params s)
            { s with recd.windows := s.recd.windows.map fun v => if v.code == code then { v with seen := v.seen + 1 } else v }
        else { s with recd.windows := s.recd.windows.map fun v => if v.code == code then
            { v with
              suppressed := v.suppressed + 1
              first := if v.suppressed = 0 then s.nv.opSeconds else v.first
              last := s.nv.opSeconds } else v }
      else
        let s' := closeWindow code s
        intake (draft code source params s)
          { s' with recd.windows := s'.recd.windows ++ [{ code := code, start := s.nv.opSeconds, length := len, limit := n, seen := 1 }] }
    | none =>
      intake (draft code source params s)
        { s with recd.windows := s.recd.windows ++ [{ code := code, start := s.nv.opSeconds, length := len, limit := n, seen := 1 }] }

/-- Making a record on a condition. -/
def recordIf (c : Bool) (code source : Nat) (params : Bytes) (s : State) : State :=
  if c then record code source params s else s

/-- The code of a record that the spec names without a code, of the form R482 gives every code: a partition 1 to 4, the
opcode group, a free low byte (log entry 23). -/
def unstatedCode (group kind : Nat) : Nat :=
  4096 * (1 + Config.recordCode group kind / 256 % 4) + 256 * group + Config.recordCode group kind % 256

/-- A LEGAL place can be reserved for a command that needs one (R487, R307). -/
def legalPlace (s : State) : Bool := hasPlace 1 s && s.recd.waiting.isEmpty

/-! ### Channels (R51 to R58) -/

/-- Channel `ch`. -/
def chan (s : State) (ch : Nat) : Channel := (s.mbx.channels.getD ch {})

/-- Changing channel `ch`. -/
def onChan (ch : Nat) (f : Channel → Channel) (s : State) : State :=
  { s with mbx.channels := upd s.mbx.channels ch f }

/-- Adding one to counter `i` of the eight channel counters (SYS_GET_CHANNEL_STATS). -/
def count (ch i : Nat) (s : State) : State := onChan ch (fun c => { c with stats := upd c.stats i (· + 1) }) s

abbrev statFrames : Nat := 0
abbrev statFraming : Nat := 1
abbrev statCrc : Nat := 2
abbrev statTag : Nat := 3
abbrev statServed : Nat := 4
abbrev statAbsorbed : Nat := 5
abbrev statCred : Nat := 6
abbrev statReset : Nat := 7

/-- Base of the request ring of a channel (quad-SPI address table). -/
def reqBase (ch : Nat) : Nat := 0x100000 + ch * 0x20000

/-- Base of the response ring of a channel. -/
def rspBase (ch : Nat) : Nat := 0x180000 + ch * 0x20000

/-- The response ring is full: its indices differ in bit 5 only (R51). -/
def rspFull (c : Channel) : Bool := (c.rspProd + 64 - c.rspCons % 64) % 64 == 32

/-- The header of a frame with its CRC_AUTH field and CRC given (frame header table). -/
def header (op tag flags world status len seq handle : Nat) (auth : Bytes) (crc : Nat) : Bytes :=
  [0xA1, 0xD2] ++ u16 op ++ u8 tag ++ u8 flags ++ u8 world ++ u8 status ++ u16 len ++ [0, 0] ++ u32 seq ++
    u32 handle ++ slice auth 0 8 ++ u32 crc

/-- The authenticator of a frame under a session key (R60). -/
def frameAuth (key : Bytes) (frame : Bytes) : Bytes := slice (Config.kmac256 key (ascii "DRINOV-MBX") frame) 0 8

/-- A response frame: authenticated under `key` where the request was (R60), with its CRC (R59). DESIGN CHOICE (log entry 31):
beyond TAG and SEQUENCE it echoes OPCODE, WORLD and CRED_HANDLE, and RETRY and FENCE are 0. -/
def responseFrame (r : Req) (op flags status : Nat) (key : Option Bytes) (payload : Bytes) : Bytes :=
  let bare := header op r.tag flags r.world status payload.length r.seq r.handle [] 0
  let auth := match key with
    | some k => frameAuth k (bare ++ payload)
    | none => List.replicate 8 0
  let h := header op r.tag flags r.world status payload.length r.seq r.handle auth 0
  header op r.tag flags r.world status payload.length r.seq r.handle auth (crc32c (h.take 28 ++ payload)) ++ payload

/-- A completed response out on the channel: into the response ring with EV_MBX_RSPn, held while the ring is full,
or onto the stream (R54, R58). -/
def sendFrame (ch : Nat) (frame : Bytes) (s : State) : State :=
  let c := chan s ch
  if c.binding = 0 then
    if rspFull c || !c.held.isEmpty then onChan ch (fun c => { c with held := c.held ++ [frame] }) s
    else raise (evMbxRsp + ch) (onChan ch (fun c => { c with rspProd := (c.rspProd + 1) % 64 })
      { s with mbx.ring := memWrites s.mbx.ring (rspBase ch + c.rspProd % 32 * 4096) frame })
  else if c.connected then onChan ch (fun c => { c with streamOut := c.streamOut ++ [frame] }) s
  else s

/-- Tag `tag` of a channel. -/
def tagOf (c : Channel) (tag : Nat) : Tag := c.tags.getD tag {}

/-- Changing a tag of a channel. -/
def onTag (ch tag : Nat) (f : Tag → Tag) (s : State) : State := onChan ch (fun c => { c with tags := upd c.tags tag f }) s

/-- The host can be answered on the channel: a command whose connection has ended completes without a response (R55, R58). -/
def reachable (c : Channel) : Bool := c.binding == 0 || c.connected

/-- The final response of a command: the tag is free from it and keeps it (R62, R67). -/
def finish (r : Req) (op status : Nat) (key : Option Bytes) (payload : Bytes) (s : State) : State :=
  let f := responseFrame r op 1 status key payload
  if reachable (chan s r.ch) then sendFrame r.ch f (onTag r.ch r.tag (fun t => { t with used := false, kept := some (r.seq, f) }) s)
  else s

/-- A response that leaves the tag's state unchanged (R62, R65, R67). -/
def answerOnly (r : Req) (op status : Nat) (key : Option Bytes) (payload : Bytes) (s : State) : State :=
  sendFrame r.ch (responseFrame r op 1 status key payload) s

/-! ### Request checks (R64) -/

/-- The functions of R18 by which a command is owned. -/
inductive Own where
  /-- System, Keys, Recorder and the five metering commands of R540 -/
  | every
  /-- any role at all: every other function that R18 gives every role (R16, R540) -/
  | anyRole
  /-- Derailleur and Chainring -/
  | hub
  /-- Cadence, which runs in every role; a standby part mirrors it (R18, R169) -/
  | cadence
  /-- a part with local outlets (R246) -/
  | outlet
  /-- Spoke-line -/
  | spoke
  /-- buffer stack (R457) -/
  | stack
  /-- tandem pair -/
  | tandem
  /-- peloton -/
  | peloton
deriving DecidableEq, Repr

/-- A mailbox command as the command tables give it. -/
structure Cmd where
  op : Nat
  own : Own := .every
  /-- Secure in the Worlds column -/
  secure : Bool := false
  /-- life-cycle states, bit c for state c -/
  states : Nat := lcAll
  /-- 0 no credential; 1 owner, for which an operator counts; 2 owner or Alrelet; 3 owner, operator or Alrelet (R471, R105) -/
  cred : Nat := 0
  /-- permitted in Kickstand (R103) -/
  kick : Bool := true
  /-- a reading command, which a standby part answers from its shadow (R138, R457) -/
  reads : Bool := false
  /-- the opcode is defined in the interface revision in service (check 5) -/
  defined : Bool := true
  /-- LENGTH matches the opcode (check 3) -/
  fits : Bool := true
deriving DecidableEq, Repr

/-- The part holds authority in a pair (table of tandem states). -/
def holds (s : State) : Bool := s.tdm.state == .active || s.tdm.state == .alone

/-- A STANDBY-HUB part that is not active (R138, R457). -/
def standingBy (s : State) : Bool := s.sys.role == 5 && !holds s

/-- Check 6: the role owns the command's function (R16, R18, R540). -/
def owned (k : Cmd) (s : State) : Bool :=
  match k.own with
  | .every => true
  | .anyRole => s.sys.role != 0
  | .hub => [1, 3, 4, 6].contains s.sys.role || (s.sys.role == 5 && (k.reads || holds s))
  | .cadence => [1, 2, 3, 4, 6].contains s.sys.role || (s.sys.role == 5 && (k.reads || holds s))
  | .outlet => [2, 3, 6].contains s.sys.role
  | .spoke => [1, 2, 3, 4, 5].contains s.sys.role
  | .stack => [1, 3, 4].contains s.sys.role || (s.sys.role == 6 && s.sys.nodeStrap == 0) ||
      (s.sys.role == 5 && (k.reads || holds s))
  | .tandem => s.sys.role == 4 || s.sys.role == 5
  | .peloton => s.sys.role == 6

/-- The open credential that a request names. -/
def credOf (s : State) (r : Req) : Option Cred := (chan s r.ch).creds.find? fun c => c.handle == r.handle

/-- The request is authenticated under an open credential of its channel (R60). -/
def authentic (s : State) (r : Req) : Bool := r.handle != 0 && r.auth && (credOf s r).isSome

/-- The session key under which the response goes, where the request is authenticated (R60). -/
def authKey (s : State) (r : Req) : Option Bytes := if authentic s r then (credOf s r).map (·.key) else none

/-- The kind of the open credential a request carries: 0 for none (R470). -/
def credKind (s : State) (r : Req) : Nat :=
  if r.handle = 0 then 0 else match credOf s r with
  | some c => c.kind
  | none => 0

/-- Check 9: a credential that is present is authentic and its SEQUENCE is newer than the last accepted (R61). -/
def credFails (s : State) (r : Req) : Bool :=
  r.handle != 0 && match credOf s r with
  | none => true
  | some c => !r.auth || match c.last with
    | some q => !newer 32 r.seq q
    | none => false

/-- Check 9: the kind of credential the command needs (R471). -/
def credMeets (k : Cmd) (kind : Nat) : Bool :=
  match k.cred with
  | 0 => true
  | 1 => kind == 1 || kind == 2
  | 2 => kind == 1 || kind == 3
  | _ => kind != 0

/-- The opcodes that the boot ROM serves (R86). -/
def romServes (op : Nat) : Bool := [0x0101, 0x0102, 0x0103, 0x0110, 0x0117, 0x0118].contains op

/-- Check 5: the opcode is defined, and served by what runs on the part (R50, R70, R86). -/
def opServed (k : Cmd) (s : State) : Bool := k.defined && (s.sys.phase != .failed || romServes k.op)

/-- Checks 5 to 10 of R64: the status of the first that fails. DESIGN CHOICE (log entry 31): no channel restricts the worlds,
and a WORLD above 1, which the header table gives no meaning, is no permitted world (check 7). -/
def verdict (k : Cmd) (r : Req) (s : State) : Option Nat :=
  if !opServed k s then some stBadOpcode
  else if !owned k s then some stNotInRole
  else if k.secure && r.world != 1 then some stDeniedWorld
  else if r.world > 1 then some stDeniedWorld
  else if !bit k.states (lifecycle s) then some stDeniedLifecycle
  else if credFails s r || !credMeets k (credKind s r) then some stDeniedCredential
  else if !k.kick && kicked s then some stKickstand
  else none

/-- One more consecutive failure under a handle; the fifth closes the credential (R61). -/
def failCred (handle : Nat) (l : List Cred) : List Cred :=
  (l.map fun d => if d.handle == handle then { d with fails := d.fails + 1 } else d).filter fun d =>
    d.handle != handle || d.fails < 5

/-- The SEQUENCE of an accepted request, and the end of a run of failures (R61). -/
def passCred (handle seq : Nat) (l : List Cred) : List Cred :=
  l.map fun d => if d.handle == handle then { d with last := some seq, fails := 0 } else d

/-- The credential bookkeeping of check 9 (R61): a failure under a handle counts, sets EV_MBX_CRED, and the fifth in a
row closes the credential; a pass takes the SEQUENCE. -/
def noteCred (r : Req) (failed : Bool) (s : State) : State :=
  if r.handle = 0 then s
  else if failed then
    raise evMbxCred (count r.ch statCred (onChan r.ch (fun c => { c with creds := failCred r.handle c.creds }) s))
  else onChan r.ch (fun c => { c with creds := passCred r.handle r.seq c.creds }) s

/-- Whether check 9 is reached, that is, whether checks 5 to 8 pass. -/
def reachesCred (k : Cmd) (r : Req) (s : State) : Bool :=
  opServed k s && owned k s && !(k.secure && r.world != 1) && r.world ≤ 1 &&
    bit k.states (lifecycle s)

/-- The mailbox serves a channel: it is live, and the channel is enabled and bound (R55, R56, R80, R86). -/
def serves (s : State) (ch : Nat) : Bool :=
  s.sys.live && ch < 4 && (chan s ch).enable && (chan s ch).binding != 3 &&
    (s.sys.phase != .failed || (ch == 0 && (chan s ch).binding == 0))

/-- What becomes of a request at checks 3 to 10. -/
inductive Gate where
  /-- nothing is started: the mailbox is not serving, or a retry was absorbed or served -/
  | drop (s : State)
  /-- the request is answered with a status, and no command starts -/
  | stop (s : State)
  /-- the command starts -/
  | go (s : State)

/-- Whether a request with FLAGS.RETRY counts as a retry: without a credential, or authentic (R67). -/
def mayRetry (s : State) (r : Req) : Bool := r.retry && (r.handle == 0 || authentic s r)

/-- FLAGS.RETRY on the tag and SEQUENCE of a kept response, with a wrong authenticator (R67). -/
def badRetry (s : State) (r : Req) : Bool :=
  r.retry && !mayRetry s r && match (tagOf (chan s r.ch) r.tag).kept with
  | some (q, _) => q == r.seq
  | none => false

/-- The state once the command has started: the frame counted, the SEQUENCE taken, the tag in use. -/
def started (r : Req) (s : State) : State :=
  noteCred r false (onTag r.ch r.tag (fun t => { t with used := true, seq := r.seq }) (count r.ch statFrames s))

/-- A request refused at checks 5 to 10; an authenticated request gets an authenticated response, whatever the status (R60). -/
def refuse (k : Cmd) (r : Req) (st : Nat) (s : State) : State :=
  let key := authKey s r
  let s1 := count r.ch statFrames s
  let s2 := if reachesCred k r s then noteCred r (credFails s r) s1 else s1
  if badRetry s r then answerOnly r k.op st key [] s2 else finish r k.op st key [] s2

/-- A request refused at check 3: its tag, where a command holds it, stays as it is. -/
def badLength (op : Nat) (r : Req) (s : State) : State :=
  let s1 := count r.ch statFrames s
  if (tagOf (chan s r.ch) r.tag).used then answerOnly r op stBadLength (authKey s r) [] s1
  else finish r op stBadLength (authKey s r) [] s1

/-- Checks 3 to 10 of R64 on a request that has passed checks 1 and 2. An opcode that the interface revision in service does not
define has no payload length for check 3 to hold it to (R50, R86). -/
def gate (k : Cmd) (r : Req) (s : State) : Gate :=
  if !serves s r.ch then .drop s
  else if opServed k s && !k.fits then .stop (badLength k.op r s)
  else
    let t := tagOf (chan s r.ch) r.tag
    if t.used then
      if mayRetry s r && t.seq == r.seq then .drop (count r.ch statAbsorbed (count r.ch statFrames s))
      else .stop (answerOnly r k.op stTagInUse (authKey s r) [] (count r.ch statTag (count r.ch statFrames s)))
    else match t.kept with
      | some (q, f) =>
        if mayRetry s r && q == r.seq then
          .drop (sendFrame r.ch f (count r.ch statServed (count r.ch statFrames s)))
        else match verdict k r s with
          | some st => .stop (refuse k r st s)
          | none => .go (started r s)
      | none => match verdict k r s with
        | some st => .stop (refuse k r st s)
        | none => .go (started r s)

/-- What a command's own checks and effect come to: the state, the status, the response payload. -/
structure Reply where
  state : State
  status : Nat
  payload : Bytes := []

/-- A reply that changes nothing. -/
abbrev Reply.no (s : State) (status : Nat) : Reply := ⟨s, status, []⟩

/-- ST_OK with a payload and no effect. -/
abbrev Reply.ok (s : State) (payload : Bytes := []) : Reply := ⟨s, stOk, payload⟩

/-- The response of a command that has started: ST_ACCEPTED leaves the tag in use, any other status is final (R62). -/
def deliver (k : Cmd) (r : Req) (key : Option Bytes) (p : Reply) : State :=
  if p.status = stAccepted then answerOnly r k.op p.status key p.payload p.state
  else
    let s' := if p.status = stInternal then
        record 0x4108 srcA0 (u16 k.op ++ u8 r.tag ++ u8 r.ch) p.state else p.state
    finish r k.op p.status key p.payload s'

/-- A mailbox command: the request checks of R64, then the command's own checks and effect, then its response. -/
def command (k : Cmd) (r : Req) (body : State → Reply) (s : State) : Res :=
  match gate k r s with
  | .drop s' => .next s'
  | .stop s' => .next s'
  | .go s' => .next (deliver k r (authKey s' r) (body s'))

/-- A command that will answer later: ST_ACCEPTED with its bound in ms, and its work kept (R66). -/
def accept (k : Cmd) (r : Req) (bound : Nat) (w : Work) (s : State) : Reply :=
  ⟨onChan r.ch (fun c => { c with running := c.running ++ [{ req := r, opcode := k.op, work := w }] }) s,
    stAccepted, u32 bound⟩

/-- The final response of an accepted command (R66): the tag is freed and the command runs no more. -/
def settle (w : Running) (status : Nat) (payload : Bytes) (s : State) : State :=
  finish w.req w.opcode status (authKey s w.req) payload
    (onChan w.req.ch (fun c => { c with running := c.running.filter fun v => v.req.tag != w.req.tag }) s)

/-- The running command that holds a tag. -/
def runningAt (s : State) (ch tag : Nat) : Option Running := (chan s ch).running.find? fun w => w.req.tag == tag

/-! ### Checks as a chain -/

/-- A command's own checks in order: the status of the first that holds (R64, checks 11 to 13). -/
def firstOf : List (Bool × Nat) → Option Nat
  | [] => none
  | (c, st) :: l => if c then some st else firstOf l

/-- A command body: refused by the first check that holds, else its effect. -/
def checked (checks : List (Bool × Nat)) (s : State) (effect : State → Reply) : Reply :=
  match firstOf checks with
  | some st => .no s st
  | none => effect s

end Sys2Proof.Machine
end

