-- ==== Sys2Proof/Machine/MeterCore.lean ====
section
/-!
DEFINITION. The metrology core's parameters and points (R276, R277, R302 to R306), its commit block (R290) and the
conditions its records carry.
-/
namespace Sys2Proof.Machine

abbrev evMtrRecord : Nat := 64
abbrev evMtrRing : Nat := 65
abbrev evMtrCalMode : Nat := 66
abbrev evMtrChannelFault : Nat := 67
abbrev evMtrReversal : Nat := 68
abbrev evMtrTime : Nat := 69
abbrev evMtrParameters : Nat := 70
abbrev evMtrLegalLog : Nat := 71

/-! ### Sealed header (log entry 15), channel entry, table, point entry -/

def hdInterval (b : Bytes) : Nat := g8 b 0
def hdEcdsaSlot (b : Bytes) : Nat := g8 b 1
def hdCurve (b : Bytes) : Nat := g8 b 2
def hdFalconSlot (b : Bytes) : Nat := g8 b 3
def hdPulsePoint (b : Bytes) (n : Nat) : Nat := g8 b (4 + 10 * n)
def hdPulseQty (b : Bytes) (n : Nat) : Nat := g8 b (5 + 10 * n)
def hdPulseC (b : Bytes) (n : Nat) : Nat := g32 b (6 + 10 * n)
def hdPulseWidth (b : Bytes) (n : Nat) : Nat := g32 b (10 + 10 * n)
def ceQuantity (b : Bytes) : Nat := g8 b 1
def ceMclk (b : Bytes) : Nat := g8 b 2
def ceTin (b : Bytes) : Nat := g8 b 3
def ceFullScale (b : Bytes) : Nat := g32 b 4
def ceOffset (b : Bytes) : Int := gi32 b 8
def ceFbGain (b : Bytes) : Int := gi32 b 12
def ceFbOffset (b : Bytes) : Int := gi32 b 16
def ceDelay (b : Bytes) : Int := gi32 b 20
def ceTable (b : Bytes) : Nat := g8 b 24
def tbGain (b : Bytes) (j : Nat) : Nat := g32 b (8 + 8 * j)
def tbPhase (b : Bytes) (j : Nat) : Int := gi32 b (12 + 8 * j)
def ptFlags (b : Bytes) : Nat := g8 b 1
def ptStart (b : Bytes) : Nat := g32 b 4
def ptRated (b : Bytes) : Nat := g32 b 8
def ptLcRes (b : Bytes) : Nat := g32 b 12
def ptLcAlpha (b : Bytes) : Nat := g16 b 16
/-- LC_T_FB, 0.1 degC. -/
def ptLcTfb (b : Bytes) : Int := gi16 b 18

/-- The entry of a channel, the table of a channel, the entry of a point. -/
def chanEntry (s : State) (c : Nat) : Bytes := nth s.nvMtr.chans c
def chanTable (s : State) (c : Nat) : Bytes := nth s.nvMtr.tables c
def pointEntry (s : State) (p : Nat) : Bytes := nth s.nvMtr.points p

/-! ### Ownership of the channels (R18 to R21) -/

/-- The part of a peloton board or the hub with local outlets, or a post (outlet limit table). -/
def hasOutlets (s : State) : Bool := [2, 3, 6].contains s.sys.role

/-- A slot that the role and the vehicle-link entries give the part (R193, R205). -/
def localSlot (s : State) (slot : Nat) : Bool :=
  hasOutlets s && slot < 3 && (slot < 2 || s.sys.role == 6) &&
    match entryAt s.cfg.links slot with
    | some e => lkType e != 0
    | none => false

/-- The role owns the ball of a modulator channel; where it does not, the input is ignored and nothing is diagnosed (R18 to
R20). -/
def channelOwned (s : State) (c : Nat) : Bool :=
  if c < 24 then [1, 3, 4, 5].contains s.sys.role || (s.sys.role == 6 && s.sys.nodeStrap == 0)
  else if c < 32 then hasOutlets s
  else c < 40 && s.sys.role != 0

/-- The channel is assigned to an outlet of the part: MDAT32 to 35 only where outlet C is used, else they are free (R20). -/
def outletInput (s : State) (c : Nat) : Bool :=
  hasOutlets s && 24 ≤ c && (c < 32 || (c < 36 && localSlot s 2))

/-- The role owns the balls PULSE0 and PULSE1 (R18). -/
def ownsPulses (s : State) : Bool := hasOutlets s

/-! ### Points (R276, R277) -/

/-- The part holds a point (R277). -/
def holdsPoint (role node p : Nat) : Bool :=
  if p ≤ 6 then [1, 3, 5].contains role || role == 4 || (role == 6 && node == 0)
  else if p = 8 || p = 9 then [2, 3, 6].contains role
  else p == 10 && role == 6

/-- An AC point. -/
def acPoint (p : Nat) : Bool := p == 0 || p == 1 || p == 6

/-- A legal point (R276). -/
def legalPoint (p : Nat) : Bool := p ≤ 1 || 8 ≤ p

/-- The channels of a point (R276): voltage and current pairs, then the neutral current where there is one. -/
def pointPairs (p : Nat) : List (Nat × Nat) :=
  match p with
  | 0 => [(0, 3), (1, 4), (2, 5)]
  | 1 => [(7, 10), (8, 11), (9, 12)]
  | 2 => [(14, 15)]
  | 3 => [(16, 17)]
  | 4 => [(18, 19)]
  | 5 => [(20, 21)]
  | 6 => [(22, 23)]
  | 8 => [(25, 24)]
  | 9 => [(29, 28)]
  | 10 => [(33, 32)]
  | _ => []

def neutralOf (p : Nat) : Option Nat := if p = 0 then some 6 else if p = 1 then some 13 else none

/-- Every channel of a point, ascending. -/
def pointChannels (p : Nat) : List Nat :=
  if p = 0 then [0, 1, 2, 3, 4, 5, 6] else if p = 1 then [7, 8, 9, 10, 11, 12, 13]
  else (pointPairs p).flatMap fun x => [min x.1 x.2, max x.1 x.2]

/-- The part holds the point, its entry enables it, and none of its channels is a free measurement channel, which is never
accumulated (R21). -/
def pointOn (s : State) (p : Nat) : Bool :=
  holdsPoint s.sys.role s.sys.nodeStrap p && bit (ptFlags (pointEntry s p)) 0 && (p != 10 || localSlot s 2) &&
    (pointChannels p).all fun c => ceQuantity (chanEntry s c) != 3

/-- The enabled points of the part, ascending. -/
def pointsOn (s : State) : List Nat := (List.range 11).filter (pointOn s)

def mpoint (s : State) (p : Nat) : MPoint := nth s.mtr.points p
def onPoint (p : Nat) (f : MPoint → MPoint) (s : State) : State := { s with mtr.points := upd s.mtr.points p f }
def mchan (s : State) (c : Nat) : MChan := nth s.mtr.chans c
def onChannel (c : Nat) (f : MChan → MChan) (s : State) : State := { s with mtr.chans := upd s.mtr.chans c f }

/-- A channel of the point is faulted (R280), or the sample is one of those that a takeover spoils (R511). -/
def pointFaulted (s : State) (p : Nat) : Bool := s.mtr.takeover != 0 || (pointChannels p).any fun c => (mchan s c).faulted

/-- 2^32. -/
abbrev two32 : Nat := 4294967296

/-- The four registers as reported: the whole part, mWh (R288). -/
def wholeRegs (r : Regs) : List Nat := [r.eImp / two32, r.eExp / two32, r.lImp / two32, r.lExp / two32]

/-! ### Load of the metrology core (R311) -/

/-- Load of the metrology core per sample in instructions, against 26,250. -/
def meterCost (channels dc ac pulses : Nat) : Nat := 2000 + 350 * channels + 600 * dc + 1500 * ac + 250 * pulses

/-- The load that a set of sealed parameters asks for in a role (R42, R311). -/
def meterLoad (s : State) : Nat :=
  let on := (List.range 11).filter (pointOn s)
  meterCost ((List.range 40).filter fun c => channelOwned s c && ceQuantity (chanEntry s c) != 0).length
    (on.filter fun p => !acPoint p).length (on.filter fun p => acPoint p).length
    (if ownsPulses s then (([0, 1] : List Nat).filter fun n => hdPulsePoint s.nvMtr.header n != 255).length else 0)

/-- 70 % of the guaranteed capacity of the metrology core in a sample (R42, R311). -/
abbrev meterBudget : Nat := 26250

/-! ### Legal state -/

/-- The firmware image in use. -/
def fwInUse (s : State) : FwImage := (nth s.nv.fw (if s.sys.imageB then 1 else 0)).image

/-- LEGAL_DIGEST: over the legal software digest and the sealed-parameter digest (record layout). -/
def legalDigest (s : State) : Bytes := digest32 (slice (fwInUse s).legalDigest 0 32 ++ slice s.nvMtr.digest 0 32)

/-- Record flags that hold at the moment: WALL_LOW, UNSEALED, INTEGRATION, LEGAL_FULL (table of record flags). -/
def condFlags (s : State) : Nat :=
  (if s.env.wallGood then 0 else 0x20) + (if s.nvMtr.isSealed then 0 else 0x40) +
    (if lifecycle s = lcIntegration then 0x80 else 0) + (if legalFull s then 0x800 else 0)

/-- A record opened now with registers `r`. -/
def openNow (s : State) (r : Regs) (session : Nat) (boundary : Int) : OpenRec :=
  { session := session, opStart := s.nv.opSeconds, wallStart := s.env.wall, cycStart := s.nv.powerCycles
    goodStart := s.env.wallGood, start := wholeRegs r, flags := condFlags s, boundary := boundary }

/-- Changing every open record of a point: its interval, and the session record of its outlet slot. -/
def onOpenRecs (p : Nat) (f : OpenRec → OpenRec) (s : State) : State :=
  let s := onPoint p (fun m => { m with interval := m.interval.map f }) s
  if 8 ≤ p then { s with mtr.sessions := upd s.mtr.sessions (p - 8) fun o => o.map fun r => if r.cut.isSome then r else f r }
  else s

/-! ### The record layout -/

/-- Bytes 0 to 251 of a record. -/
def recBody (r : MRec) : Bytes :=
  u64 r.mseq ++ u8 r.kind ++ u8 r.point ++ u16 r.flags ++ u32 r.session ++ u64 r.opStart ++ u64 r.opEnd ++ i64 r.wallStart ++
    i64 r.wallEnd ++ u32 r.cycStart ++ u32 r.cycEnd ++ u8 r.protocol ++ u8 r.method ++ u8 r.endFirst ++ u8 r.endCode ++
    u16 r.reversals ++ u8 (min 64 r.ident.length) ++ u8 r.wallQ ++
    u64 (nth r.start 0) ++ u64 (nth r.start 1) ++ u64 (nth r.start 2) ++ u64 (nth r.start 3) ++
    u64 (nth r.stop 0) ++ u64 (nth r.stop 1) ++ u64 (nth r.stop 2) ++ u64 (nth r.stop 3) ++ slice r.ident 0 64 ++
    u32 r.fb ++ u32 r.lcfb ++ u32 r.fault ++ u32 r.legalCount ++ slice r.legalDigest 0 32 ++ u64 r.merged ++ [0, 0, 0, 0]

/-- The 256 bytes of a record, with its CRC. -/
def recBytes (r : MRec) : Bytes := recBody r ++ u32 (crc32c (recBody r))

/-! ### Commit block (R290) -/

/-- A record under construction in the record layout: what is not known before its close is 0. -/
def openBytes (kind p : Nat) (o : OpenRec) : Bytes :=
  recBody { mseq := 0, kind := kind, point := p, flags := o.flags, session := o.session, opStart := o.opStart, opEnd := 0,
            wallStart := o.wallStart, wallEnd := 0, cycStart := o.cycStart, cycEnd := 0, protocol := o.protocol, method := o.method,
            endFirst := 0, endCode := 0, reversals := o.reversals, wallQ := if o.goodStart then 1 else 0, start := o.start,
            stop := [0, 0, 0, 0], ident := o.ident, fb := o.fb, lcfb := o.lcfb, fault := o.fault, legalCount := 0, legalDigest := [] }

/-- An energy register: whole mWh and fraction. -/
def regBytes (r : Nat) : Bytes := u64 (r / two32) ++ u32 (r % two32) ++ u32 0

/-- What an open record has beyond its first 192 bytes: its counters, its boundary, and where it was cut off. -/
def openRest (o : OpenRec) : Bytes :=
  u32 o.fb ++ u32 o.lcfb ++ u32 o.fault ++ i64 o.boundary ++ match o.cut with
    | none => u8 0
    | some c => u8 1 ++ regBytes c.regs.eImp ++ regBytes c.regs.eExp ++ regBytes c.regs.lImp ++ regBytes c.regs.lExp ++
        u64 c.opSeconds ++ i64 c.wall ++ u8 c.kind

/-- Bytes 0 to 0x1FF7 of a commit block: the table of R290, and after it what log entry 16 adds, in an order of the model's own
(DESIGN CHOICE, log entry 16). -/
def commitBytes (c : MCommit) : Bytes :=
  let held (kind p : Nat) (o : Option OpenRec) : Bytes := match o with
    | none => [0]
    | some o => 1 :: slice (openBytes kind p o) 0 192 ++ openRest o
  slice ((List.range 11).flatMap (fun p =>
      let r := nth c.regs p
      regBytes r.eImp ++ regBytes r.eExp ++ regBytes r.lImp ++ regBytes r.lExp)) 0 0x300 ++
    (List.range 3).flatMap (fun i => slice (match nth c.sessions i with
      | some o => openBytes 1 (8 + i) o
      | none => []) 0 192 ++ List.replicate 64 0) ++
    slice (u64 c.head ++ u64 c.tail ++ i64 c.wall ++ u64 c.opSeconds ++ u32 c.kind ++ u32 c.generation ++
      (List.range 3).flatMap (fun i => held 1 (8 + i) (nth c.sessions i)) ++
      (List.range 11).flatMap (fun p => held 2 p (nth c.intervals p)) ++ c.waiting.flatMap recBytes) 0 (0x1FF8 - 0x600)

/-- A copy of the commit block is valid (R290, R459). -/
def commitGood (c : MCommit) : Bool := c.readable && tagRight c.tag (integrityTag (ascii "DRINOV-MTR") (commitBytes c))

/-- The valid copy with the higher generation. -/
def mtrWinner (l : List MCommit) : Option MCommit :=
  match l with
  | [a, b] => if commitGood a && commitGood b then some (if b.generation > a.generation then b else a)
      else if commitGood a then some a else if commitGood b then some b else none
  | _ => none

/-- The copies with a commit in the older one. -/
def putCommit (l : List MCommit) (c : MCommit) : List MCommit :=
  match l with
  | [a, b] => if commitGood b && (!commitGood a || a.generation < b.generation) then [c, b] else [a, c]
  | _ => l

/-- A commit of kind 0 periodic, 1 PFW_N, 2 record, 3 life-cycle (R290); none where both copies have failed. -/
def meterCommit (kind : Nat) (s : State) : State :=
  match mtrWinner s.nvMtr.copies with
  | none => s
  | some w =>
    if !s.mtr.running then s
    else
      let c : MCommit :=
        { generation := (w.generation + 1) % two32, regs := s.mtr.points.map (·.regs), sessions := s.mtr.sessions
          intervals := s.mtr.points.map (·.interval), waiting := s.mtr.waiting, head := s.nvMtr.head, tail := s.nvMtr.tail, wall := s.env.wall
          opSeconds := s.nv.opSeconds, kind := kind }
      { s with nvMtr.copies := putCommit s.nvMtr.copies c }

/-- A LEGAL record (R307): EV_MTR_LEGAL_LOG at 7,936 records and when the partition is full. -/
def recordLegal (code : Nat) (params : Bytes) (s : State) : State :=
  let t := record code srcMetrology params s
  raiseIf ((legalHeld s < 7936 && 7936 ≤ legalHeld t) || (legalHeld s < 8192 && 8192 ≤ legalHeld t)) evMtrLegalLog t

end Sys2Proof.Machine
end

