-- ==== Sys2Proof/Machine/Kick.lean ====
section
/-!
DEFINITION. Kickstand (R97 to R103) and reset (R77, R79): entering with a cause, marking a cause gone, and what a
reset keeps.
-/
namespace Sys2Proof.Machine

/-- Causes that persist over a reset (Kickstand cause table). -/
def kickPersists (cause : Nat) : Bool := [0x0207, 0x0301, 0x0302, 0x0303, 0x0304, 0x0401, 0x0701].contains cause

/-- Causes that are gone at once (Kickstand cause table). -/
def kickAtOnce (cause : Nat) : Bool := [0x0202, 0x0401, 0x0601].contains cause

/-- Causes that need a safety reset after they have gone (R101). -/
def kickSafety (cause : Nat) : Bool := cause / 256 == 3

/-- The engine that makes the record of a cause (R545). -/
def kickSource (cause : Nat) : Nat :=
  if cause / 256 = 1 then srcBoot else if cause / 256 = 3 then srcSafety
  else if cause = 0x0205 || cause = 0x0206 || cause = 0x0207 then srcMetrology
  else if cause / 256 = 6 then srcA0 else srcHousekeeping

/-- The causes after one arises: listed once, in the order of first arising, its gone bit cleared (R99). -/
def addCause (cause : Nat) (l : List KickCause) : List KickCause :=
  if l.any (·.code == cause) then
    l.map fun c => if c.code == cause then { c with gone := kickAtOnce cause, resetGiven := false } else c
  else l ++ [{ code := cause, gone := kickAtOnce cause }]

/-! ### What entry does (R97, R98, R503, R506) -/

/-- End causes of a session from the highest precedence to the lowest (R240). -/
def endOrder : List Nat :=
  [0x11, 0x10, 0x0E, 0x0D, 0x0C, 0x0A, 0x0B, 0x0F, 0x06, 0x05, 0x04, 0x07, 0x08, 0x09, 0x02, 0x01, 0x03]

/-- End cause `a` has a higher precedence than `b`; any cause has it over none. -/
def prevails (a b : Nat) : Bool := b == 0 || endOrder.idxOf a < endOrder.idxOf b

/-- The stop class of an end cause (R240); none where no contactor has closed. -/
def classOf (code : Nat) : StopClass :=
  if code = 0x11 then .interrupted
  else if code = 0x10 || code = 0x0E then .kickstand
  else if code = 0x0D || code = 0x0C then .safety
  else if [0x07, 0x08, 0x02, 0x01].contains code then .orderly
  else .urgent

/-- The stop that is sent to the vehicle for an end cause, where a message to it is possible: the data link is up and a protocol
agreed (R240). -/
def stopNotice (l : Link) (code : Nat) : Option Notice :=
  if !l.up || l.protocol = 0 then none
  else if l.protocol = 3 then some .terminate
  else if classOf code = .safety || classOf code = .kickstand then some .stopEmergency
  else some .stopCharging

/-- END_FIRST and END_CODE with one more cause (R241). -/
def takeCode (code : Nat) (x : Session) : Session :=
  { x with
    endFirst := if x.endFirst = 0 then code else x.endFirst
    endCode := if prevails code x.endCode then code else x.endCode
    noted := if x.noted.contains code then x.noted else x.noted ++ [code] }

/-- A session under a cause of the Kickstand class: its contactors open at once, and it stops (R238, R240, R242). -/
def kickSession (tick code : Nat) (l : Link) (x : Session) : Session :=
  let n := match stopNotice l code with | some m => some m | none => x.notice
  if x.state < 2 || 12 ≤ x.state then x
  else if x.state ≤ 4 then { takeCode code x with state := 12, mode := 0, waiting := false, leave := true, notice := n }
  else { takeCode code x with
    state := 10, mode := 6, stop := some .kickstand, weld := .none, want := none, pos := false, neg := false, notice := n
    confirmed := x.confirmed && !x.pos && !x.neg, cmdTick := if x.pos || x.neg then tick else x.cmdTick }

/-- A pair at the entry into Kickstand. -/
def kickPair (p : Pair) : Pair := { p with request := false, next := false, on := false, current := 0, light := false }

/-- A load channel at the entry into Kickstand: off, its request off (R429). -/
def kickLoad (l : Load) : Load :=
  { l with request := false, on := false, waiting := none, byRetry := false, offMs := if l.on then some 0 else l.offMs }

/-- The tandem state at the entry: authority is given up to a STANDBY partner, and a part in Kickstand is never STANDBY
(R503, R506). -/
def kickTandem (t : Tdm) : Tdm :=
  if t.state = .active then { t with authO := false, state := .syncing, eligible := 0, bulk := false, switchPending := false, switchSent := false }
  else if t.state = .standby then { t with state := .syncing, eligible := 0, bulk := false }
  else t

/-- Entry into Kickstand (R97, R98, R503, R506): safe outputs and load channels off, sessions ended, the meter registers
committed, authority given up. Zero references follow from the state at every launch. -/
def kickOutputs (cause : Nat) (s : State) : State :=
  let code := if cause = 0x0602 then 0x0E else 0x10
  let live := s.ses.any fun x => 2 ≤ x.state && x.state ≤ 11
  let s1 := { s with
    saf.pairs := s.saf.pairs.map kickPair
    ldc.chans := s.ldc.chans.map kickLoad
    ses := s.ses.zipIdx.map fun (p : Session × Nat) => kickSession s.saf.tick code (nth s.links p.2) p.1
    tdm := kickTandem s.tdm
    mtr.takeover := if s.tdm.state = .active then 3 else s.mtr.takeover }
  raiseIf (s1.tdm.state != s.tdm.state) 120
    (raiseIf (s.ses.any fun x => 2 ≤ x.state && x.state ≤ 4) 48 (raiseIf live 50 (meterCommit 0 s1)))

/-- A Kickstand cause arises (R98, R99, R102). -/
def enterKick (cause : Nat) (s : State) : State :=
  if s.sys.kicks.any fun c => c.code == cause && !c.gone then s
  else
    let first := s.sys.kicks.isEmpty
    let s1 := { s with
      sys.kicks := addCause cause s.sys.kicks
      sys.kickSecond := if first then s.nv.opSeconds else s.sys.kickSecond
      nv.causes := if kickPersists cause && !s.nv.causes.contains cause then s.nv.causes ++ [cause] else s.nv.causes }
    (if first then kickOutputs cause else id) (record 0x4103 (kickSource cause) (u16 cause) (raiseIf first evSysKickstand s1))

/-- A cause is gone (R99). -/
def goneKick (cause : Nat) (s : State) : State :=
  { s with sys.kicks := s.sys.kicks.map fun c => if c.code == cause then { c with gone := true } else c }

/-- A cause is listed and not gone. -/
def hasKick (s : State) (cause : Nat) : Bool := s.sys.kicks.any fun c => c.code == cause && !c.gone

/-- A safety reset reaches the part's Kickstand causes: those 0x03xx that are gone (R101). -/
def kickReset (s : State) : State :=
  { s with sys.kicks := s.sys.kicks.map fun c => if kickSafety c.code && c.gone then { c with resetGiven := true } else c }

/-- A session that a reset interrupts after its contactors have closed: its post-check is deferred (R232). -/
def cutClosed (x : Session) : Bool := 5 ≤ x.state && x.state ≤ 11 && x.closed

/-- A reset from an internal source or from RESET_N (R77, R79): everything volatile at its reset value, the part held
with the cause latched; MRAM, NOR and supplies keep (R81, R96), as do the level of PFW_N, the I/O mode (R529) and the loss
of the RTC crystal with its record (R34). Of several causes the lowest code stands. Nothing ends a shutdown hold (R271). -/
def resetPart (cause : Nat) (s : State) : State :=
  if s.sys.phase = .heatHold then s
  else { ({} : State) with
    sys := { ({} : Sys) with
      phase := .held
      resetCause := if s.sys.phase == .held then min cause s.sys.resetCause else cause
      pfwLow := s.sys.pfwLow, io33 := s.sys.io33, rtcLost := s.sys.rtcLost, rtcNoted := s.sys.rtcNoted }
    nv := s.nv, nvRec := s.nvRec, nvHub := s.nvHub
    nvOut := { s.nvOut with unchecked := s.nvOut.unchecked.zipIdx.map fun (p : Bool × Nat) => p.1 || cutClosed (nth s.ses p.2) }
    nvHeat := s.nvHeat, nvMtr := s.nvMtr,
    nvSaf := s.nvSaf, nvStk := s.nvStk,
    slots := s.slots, env := s.env, free := s.free, pending := s.pending }

end Sys2Proof.Machine
end

