-- ==== Sys2Proof/Machine/Access.lean ====
section
/-!
DEFINITION. Readings of one function by another: measured values, contactor pairs, the numbering of outlets.
-/
namespace Sys2Proof.Machine

/-- The island outlet number of a local slot: the local outlet entries in order; a post's own numbers follow its post
number as in the Kettle Yard table (log entry 12). -/
def outletOf (s : State) (slot : Nat) : Nat :=
  if s.sys.role = 2 then 2 * s.sys.nodeStrap - 1 + slot
  else match (s.cfg.outlets.filter fun e => outPost e == 0)[slot]? with
    | some e => outNumber e
    | none => 0

/-- The local slot of an island outlet number. -/
def slotOf (s : State) (n : Nat) : Option Nat := [0, 1, 2].find? fun k => localSlot s k && outletOf s k == n && n != 0

/-- First modulator channel of a local outlet (R20). -/
def outletChannel (slot : Nat) : Nat := 24 + 4 * slot

/-- Latest corrected sample of a channel, mV or mA (R283). -/
def corrected (s : State) (ch : Nat) : Int := nth s.mtr.samples ch

/-- Magnitude of the outlet current, mA. -/
def outletAmps (s : State) (slot : Nat) : Nat := (corrected s (outletChannel slot)).natAbs

/-- Vehicle-side, supply-side and pole voltage of an outlet, 0.1 V (R20). -/
def vehicleVolts (s : State) (slot : Nat) : Nat := (roundDiv (corrected s (outletChannel slot + 1)) 100).natAbs
def supplyVolts (s : State) (slot : Nat) : Nat := (roundDiv (corrected s (outletChannel slot + 2)) 100).natAbs
def poleVolts (s : State) (slot : Nat) : Nat := (roundDiv (corrected s (outletChannel slot + 3)) 100).natAbs

/-- RATED_VOLTAGE of a local outlet, V: its entry, or the largest rating where the image holds none (log entry 12). -/
def ratedVolts (s : State) (slot : Nat) : Nat :=
  match outEntry s.cfg.outlets (outletOf s slot) with
  | some e => outVoltage e
  | none => 1250

/-- RATED_CURRENT of a local outlet, A. -/
def ratedAmps (s : State) (slot : Nat) : Nat :=
  match outEntry s.cfg.outlets (outletOf s slot) with
  | some e => outCurrent e
  | none => 3000

/-- The vehicle-link entry of a local slot. -/
def linkCfg (s : State) (slot : Nat) : Bytes := (entryAt s.cfg.links slot).getD []

/-- The session entry of a local slot. -/
def sesCfg (s : State) (slot : Nat) : Bytes := (entryAt s.cfg.sessions slot).getD []

/-- The link and the session of a local slot. -/
def link (s : State) (slot : Nat) : Link := nth s.links slot
def ses (s : State) (slot : Nat) : Session := nth s.ses slot

/-- Changing the link or the session of a local slot. -/
def onLink (slot : Nat) (f : Link → Link) (s : State) : State := { s with links := upd s.links slot f }
def onSes (slot : Nat) (f : Session → Session) (s : State) : State := { s with ses := upd s.ses slot f }

/-- Setting the request of a safe output pair. -/
def requestPair (pair : Nat) (on : Bool) (s : State) : State :=
  { s with saf.pairs := upd s.saf.pairs pair fun p => { p with request := on } }

/-- Changing a competition group. -/
def onGroup (g : Nat) (f : Group → Group) (s : State) : State := { s with cad.groups := upd s.cad.groups g f }
def group (s : State) (g : Nat) : Group := nth s.cad.groups g

/-- The competition group with a target (R152). -/
def groupOf (s : State) (target : Nat) : Option Nat :=
  (List.range 16).find? fun g => gSink (group s g).desc == 1 && gTarget (group s g).desc == target

/-- Changing the stage, the assignment, the outlet inputs of the hub. -/
def onStage (i : Nat) (f : Stage → Stage) (s : State) : State := { s with chr.stages := upd s.chr.stages i f }
def onRing (i : Nat) (f : Ring → Ring) (s : State) : State := { s with chr.rings := upd s.chr.rings i f }
def onAssign (i : Nat) (f : Assign → Assign) (s : State) : State := { s with alc.assign := upd s.alc.assign i f }
def onOut (n : Nat) (f : OutletIn → OutletIn) (s : State) : State := { s with alc.out := upd s.alc.out (n - 1) f }
def stage (s : State) (i : Nat) : Stage := nth s.chr.stages i
def ring (s : State) (i : Nat) : Ring := nth s.chr.rings i
def assignOf (s : State) (i : Nat) : Assign := nth s.alc.assign i
def outIn (s : State) (n : Nat) : OutletIn := nth s.alc.out (n - 1)

/-- Ring positions with an entry, ascending. -/
def positions (s : State) : List Nat := (List.range 48).filter fun i => (posEntry s.cfg.positions i).isSome

/-- The entry of ring position `i`. -/
def posOf (s : State) (i : Nat) : Bytes := (posEntry s.cfg.positions i).getD []

/-- Outlets with an entry, ascending. -/
def outlets (s : State) : List Nat := ((List.range 13).drop 1).filter fun n => (outEntry s.cfg.outlets n).isSome

/-- The entry of outlet `n`. -/
def outCfg (s : State) (n : Nat) : Bytes := (outEntry s.cfg.outlets n).getD []

/-- The part belongs to a tandem pair (R498). -/
def paired (s : State) : Bool := s.sys.role == 4 || s.sys.role == 5

/-- The drivers of the shared groups are enabled (R500). -/
def gateOpen (s : State) : Bool := s.tdm.authO && !s.tdm.authI

/-- The part drives the stage rings (R180, R500, R516): no pair, or authority held and the gate open. -/
def masters (s : State) : Bool := [1, 3, 6].contains s.sys.role || (paired s && holds s && gateOpen s)

/-- A part of a pair without authority. -/
def shadowing (s : State) : Bool := paired s && !holds s

/-- The part does the hub's work: no pair, or authority held (R18, R511). -/
def working (s : State) : Bool := !paired s || holds s

end Sys2Proof.Machine
end

