-- ==== Sys2Proof/Machine/RingLine.lean ====
section
/-!
DEFINITION. The Chainring line and frame (R172 to R175, R178): symbols and their 8b/10b code groups, the start and end
delimiters, the header, the outbound block with OUT_CRC, and the reading of a frame that comes back.
-/
namespace Sys2Proof.Machine

/-! ### Code groups (R172; PRESUMED tables of IEEE 802.3 Clause 36, log entry 34) -/

/-- Ones among the ten bits of a code group. -/
def weight10 (c : Nat) : Nat := ((List.range 10).filter c.testBit).length

/-- The six-bit groups of the values 0 to 31 at negative running disparity. -/
def group6 : List Nat :=
  [0b100111, 0b011101, 0b101101, 0b110001, 0b110101, 0b101001, 0b011001, 0b111000,
   0b111001, 0b100101, 0b010101, 0b110100, 0b001101, 0b101100, 0b011100, 0b010111] ++
  [0b011011, 0b100011, 0b010011, 0b110010, 0b001011, 0b101010, 0b011010, 0b111010,
   0b110011, 0b100110, 0b010110, 0b110110, 0b001110, 0b101110, 0b011110, 0b101011]

/-- The four-bit groups of the values 0 to 7 at negative running disparity. -/
def group4 : List Nat := [0b1011, 0b1001, 0b0101, 0b1100, 0b1101, 0b1010, 0b0110, 0b1110]

/-- A sub-block at the running disparity `rd` (true: positive): unbalanced ones, and `alt`, are complemented. -/
def subBlock (width : Nat) (alt rd : Bool) (c : Nat) : Nat :=
  if rd && (alt || 2 * weight10 c != width) then 2 ^ width - 1 - c else c

/-- The code group of a data byte. -/
def dataGroup (rd : Bool) (b : Byte) : Nat :=
  let x := b.toNat % 32
  let y := b.toNat / 32
  let six := subBlock 6 (x == 7) rd (nth group6 x)
  let rd4 := if weight10 six = 3 then rd else !rd
  let a7 := y == 7 && (if rd4 then x == 11 || x == 13 || x == 14 else x == 17 || x == 18 || x == 20)
  16 * six + subBlock 4 (y == 3) rd4 (if a7 then 0b0111 else nth group4 y)

/-- The ten-bit code group of a symbol; a code error is no code group. -/
def codeGroup (rd : Bool) : RingSymbol → Nat
  | .data b => dataGroup rd b
  | .k28_5 => if rd then 0b1100000101 else 0b0011111010
  | .k27_7 => if rd then 0b0010010111 else 0b1101101000
  | .k29_7 => if rd then 0b0100010111 else 0b1011101000
  | .codeError => 0

/-- The code groups of a run of symbols from a running disparity on. -/
def codeGroups : Bool → List RingSymbol → List Nat
  | _, [] => []
  | rd, x :: l => codeGroup rd x :: codeGroups (if weight10 (codeGroup rd x) = 5 then rd else !rd) l

/-! ### Symbols of a frame (R172) -/

/-- What the sender puts on the line between frames. -/
def ringIdle : RingSymbol := .k28_5

/-- The symbols of a frame: start sequence, bytes in the order of R4, end delimiter. -/
def ringSymbols (frame : Bytes) : List RingSymbol := [.k28_5, .k28_5, .k27_7] ++ frame.map .data ++ [.k29_7]

/-- What follows the first start sequence of a run of symbols. -/
def afterStart : List RingSymbol → Option (List RingSymbol)
  | .k28_5 :: .k28_5 :: .k27_7 :: rest => some rest
  | _ :: l => afterStart l
  | [] => none

/-- The byte a symbol stands for. -/
def symByte : RingSymbol → Option Byte
  | .data b => some b
  | _ => none

/-- `len` bytes at an offset of the symbols after a start sequence; none where a symbol is missing or no data byte. -/
def bytesAt (l : List RingSymbol) (off len : Nat) : Option Bytes :=
  let b := ((l.drop off).take len).filterMap symByte
  if b.length = len then some b else none

/-! ### The frame (R173, R174) -/

/-- An outbound slot. -/
def refBytes (f : Ref) : Bytes :=
  u16 f.refI ++ u16 f.vCeil ++ u8 ((if f.dir then 1 else 0) + (if f.enable then 2 else 0)) ++
    u8 ((if f.mtxValid then 128 else 0) + (if f.mtxClose then 64 else 0) + f.mtxOutlet) ++ u8 f.mtxSeq ++ u8 0

/-- An outbound slot as it is read. -/
def refOf (b : Bytes) : Ref :=
  { refI := g16 b 0, vCeil := g16 b 2, dir := bit (g8 b 4) 0, enable := bit (g8 b 4) 1, mtxValid := bit (g8 b 5) 7
    mtxClose := bit (g8 b 5) 6, mtxOutlet := field (g8 b 5) 0 4, mtxSeq := g8 b 6 }

/-- The frame header, HOP 0. -/
def ringHeader (master gen seq n tick flags : Nat) : Bytes :=
  u8 0x5A ++ u8 master ++ u16 gen ++ u32 seq ++ u8 n ++ u8 0 ++ u16 tick ++ u8 flags ++ [0, 0, 0]

/-- OUT_CRC over header and outbound block, HOP taken as 0 (R174). -/
def outCrc (b : Bytes) : Nat := crc32c (b.take 9 ++ u8 0 ++ b.drop 10)

/-- A frame as the master forms it: header, outbound block, OUT_CRC, inbound bytes of 0x00. -/
def formFrame (header : Bytes) (refs : List Ref) : Bytes :=
  let b := header ++ refs.flatMap refBytes
  b ++ u32 (outCrc b) ++ List.replicate (16 * refs.length) 0#8

/-- Header and outbound block of a frame of N slots that came back: start sequence and OUT_CRC valid, TYPE and N right. -/
def ringHead (n : Nat) (l : List RingSymbol) : Option Bytes :=
  match (afterStart l).bind fun d => bytesAt d 0 (20 + 8 * n) with
  | some b =>
    if g32 b (16 + 8 * n) = outCrc (b.take (16 + 8 * n)) && g8 b 0 == 0x5A && g8 b 8 == n then some (b.take (16 + 8 * n)) else none
  | none => none

/-- MASTER_ID, AUTH_GEN and TICK_SEQ of a header. -/
def hdMaster (b : Bytes) : Nat := g8 b 1
def hdGen (b : Bytes) : Nat := g16 b 2
def hdSeq (b : Bytes) : Nat := g32 b 4

/-- The outbound slot at `p` (position less 1) of a header and outbound block. -/
def headRef (b : Bytes) (p : Nat) : Ref := refOf (slice b (16 + 8 * p) 8)

/-- The inbound slot at `p` of a frame of N slots, where every byte of it arrived. -/
def inSlot (n : Nat) (l : List RingSymbol) (p : Nat) : Option Bytes :=
  (afterStart l).bind fun d => bytesAt d (20 + 8 * n + 16 * p) 16

end Sys2Proof.Machine
end

