-- ==== Sys2Proof/Machine/Chain.lean ====
section
/-!
DEFINITION. Chainring (chapter 07): launching frames, judging the returned slots, supervision of the stages, and the
telemetry side of stage moves (R131 to R133).
-/
namespace Sys2Proof.Machine

abbrev evChrStageLost : Nat := 32
abbrev evChrStageClean : Nat := 33
abbrev evChrRingBreak : Nat := 34
abbrev evChrRingRestored : Nat := 35
abbrev evChrPositionConflict : Nat := 36
abbrev evChrStageFault : Nat := 37
abbrev evChrMatrix : Nat := 38
abbrev evChrForeignMaster : Nat := 39
abbrev evAlcAssignDone : Nat := 19
abbrev evAlcAssignFault : Nat := 20
abbrev evAlcStageAdmitted : Nat := 21

/-- MASTER_ID byte of a part on a ring (frame header table). -/
def masterId (s : State) (r : Nat) : Nat :=
  (if s.sys.role = 5 then 2 else if s.sys.role = 6 then 8 + s.sys.nodeStrap else 1) + 128 * r

/-- The ring is enabled by the configuration (Chainring section); a peloton member has ring 0 only (R516). -/
def ringEnabled (s : State) (r : Nat) : Bool :=
  [1, 3, 4, 5, 6].contains s.sys.role && nth s.cfg.chain.enabled r && (s.sys.role != 6 || r == 0)

/-- Slots N of a ring. -/
def ringSlots (s : State) (r : Nat) : Nat := nth s.cfg.chain.slots r

/-- Configured ring positions of a ring. -/
def ringPositions (s : State) (r : Nat) : List Nat := (positions s).filter fun i => i / 24 == r

/-- SLOT_CRC of a slot (R175). -/
def slotCrc (slot : Bytes) (tickSeq idx : Nat) : Nat := crc16 (slice slot 0 14 ++ u32 tickSeq ++ u8 (posByte idx))

/-- A stage is healthy as it reports itself (R187, R188). -/
def slotHealthy (b : Bytes) : Bool := slHealthy b && !slFaultBit b && slFault b == 0

/-- An outbound slot rewritten by the fabric, which makes the ring's record a new one (R28). -/
def setRef (i : Nat) (f : Ref → Ref) (s : State) : State :=
  onRing (i / 24) (fun t => { t with written := true }) { s with chr.next := upd s.chr.next i f }

/-- The move of a stage is abandoned: capacity 0, no further operation until it is returned to service (R133). -/
def abandonMove (i : Nat) (s : State) : State :=
  raise evAlcAssignFault
    (record 0x4203 srcA0 (u8 (posByte i) ++ u8 (g8 (stage s i).slot 10) ++ u8 (slFault (stage s i).slot))
      (onAssign i (fun a => { a with phase := .idle, fault := true, counted := 0, admitted := false })
        (setRef i (fun f => { f with mtxValid := false }) s)))

/-- A stage becomes lost: its references and counted capacity are 0, and a move under way is abandoned (R187, R133). One that is
lost already only starts its clean run again. -/
def loseStage (i : Nat) (s : State) : State :=
  if (stage s i).state = 4 then onStage i (fun t => { t with clean := 0 }) s
  else
  let s1 := raise evChrStageLost (onStage i (fun t => { t with state := 4, clean := 0 }) s)
  let s2 := onAssign i (fun a => { a with counted := 0, admitted := false, ready := false }) s1
  if (assignOf s i).phase != .idle then abandonMove i s2 else s2

/-- A configured stage is due to be lost: three unclean slots, or a clean slot that reports a fault (R187). -/
def stageDueLost (t : Stage) : Bool :=
  (t.state == 1 || t.state == 3) && (3 ≤ t.unclean || (t.since == some 0 && !slotHealthy t.slot))

/-- A stage is due to be present: three clean healthy frames (R188). -/
def stageDuePresent (t : Stage) : Bool := (t.state == 1 || t.state == 4) && 3 ≤ t.clean

/-- A stage becomes present and is reported to the Derailleur (R188, R135). -/
def gainStage (i : Nat) (s : State) : State :=
  raise evChrStageClean (onAssign i (fun a => { a with ready := true }) (onStage i (fun t => { t with state := 3 }) s))

/-- The supervision of one stage after its counts have moved. -/
def settleStage (i : Nat) (s : State) : State :=
  if stageDueLost (stage s i) then loseStage i s
  else if stageDuePresent (stage s i) then gainStage i s else s

/-- The current of a stage is at most 1 % of RATED_CURRENT (R131); I_OUT is in 0.1 A. -/
def stageZero (e slot : Bytes) : Bool := 10 * (slI slot).natAbs ≤ posCurrent e

/-- The contact state that the last matrix operation commanded of a stage. -/
def commanded (s : State) (i : Nat) : Option Nat :=
  let f := nth s.chr.next i
  if f.mtxOutlet = 0 then none else some (if f.mtxClose then f.mtxOutlet else 0)

/-- A contact state that no operation commanded (R192): neither the one last confirmed nor, while an operation is under way or
after one was abandoned, the one it commanded. -/
def uncommanded (s : State) (i c : Nat) : Bool :=
  let a := assignOf s i
  c != a.at_ && !((a.phase == .opening || a.phase == .closing || a.fault) && commanded s i == some c)

/-- Telemetry of a commanded matrix operation (R131 to R133, R185); a stage without one stands where its telemetry shows it. -/
def assignTelemetry (i : Nat) (slot : Bytes) (s : State) : State :=
  let a := assignOf s i
  let z := if stageZero (posOf s i) slot then a.zeroRun + 1 else 0
  let s := onAssign i (fun a => { a with zeroRun := z }) s
  match a.phase with
  | .idle => onAssign i (fun a => { a with at_ := slContact slot, dest := slContact slot }) s
  | .zero => if 3 ≤ z then onAssign i (fun a => { a with phase := .openDue }) s else s
  | .openDue => s
  | .closeDue => s
  | .opening =>
    if slEcho slot == a.seq && 4 ≤ slFault slot && slFault slot ≤ 7 then abandonMove i s
    else if slEcho slot == a.seq && slContact slot == 0 && !slMoving slot then
      let s := setRef i (fun f => { f with mtxValid := false }) s
      if a.dest = 0 then raise evAlcAssignDone (onAssign i (fun a => { a with at_ := 0, phase := .idle }) s)
      else onAssign i (fun a => { a with at_ := 0, phase := .closeDue }) s
    else s
  | .closing =>
    if slEcho slot == a.seq && 4 ≤ slFault slot && slFault slot ≤ 7 then abandonMove i s
    else if slEcho slot == a.seq && slContact slot == a.dest && !slMoving slot then
      raise evAlcAssignDone (onAssign i (fun a => { a with at_ := a.dest, phase := .idle, ready := true })
        (setRef i (fun f => { f with mtxValid := false }) s))
    else s

/-- A clean slot of a stage (R187): the telemetry kept, the runs counted, changes reported. -/
def cleanSlot (i : Nat) (slot : Bytes) (s : State) : State :=
  let t := stage s i
  let s := raiseIf (slFault slot != 0 && slFault slot != slFault t.slot) evChrStageFault s
  let s := raiseIf (slFeedback slot || ((t.since == none || slContact slot != slContact t.slot) &&
    uncommanded s i (slContact slot))) evChrMatrix s
  let s := onStage i (fun t => { t with
    slot := slot, since := some 0, unclean := 0, clean := if slotHealthy slot then min 255 (t.clean + 1) else 0 }) s
  settleStage i (assignTelemetry i slot s)

/-- A slot that is not clean, counted. -/
def countUnclean (i : Nat) (s : State) : State :=
  onStage i (fun t => { t with
    clean := 0, unclean := t.unclean + 1, total := (t.total + 1) % 2 ^ 32, since := t.since.map (· + 1) }) s

/-- An unclean slot of a stage. -/
def uncleanSlot (i : Nat) (s : State) : State := settleStage i (countUnclean i s)

/-- The slot at a ring position, with SLOT_CRC valid for a TICK_SEQ (R175, R187). -/
def validSlot (n seq : Nat) (line : List RingSymbol) (i : Nat) : Option Bytes :=
  match inSlot n line (i % 24) with
  | some slot => if g16 slot 14 = slotCrc slot seq i then some slot else none
  | none => none

/-- Judging the slots of one frame in ascending position; `prev` is the last clean slot's HOP_SEEN and position (R187). -/
def judgeSlots (n seq : Nat) (line : List RingSymbol) : List Nat → Option (Nat × Nat) → State → State
  | [], _, s => s
  | i :: rest, prev, s =>
    match validSlot n seq line i, prev with
    | some slot, some (hop, j) =>
      if slHop slot ≤ hop then
        judgeSlots n seq line rest prev (raise evChrPositionConflict (loseStage i (loseStage j (countUnclean i s))))
      else judgeSlots n seq line rest (some (slHop slot, i)) (cleanSlot i slot s)
    | some slot, none => judgeSlots n seq line rest (some (slHop slot, i)) (cleanSlot i slot s)
    | none, _ => judgeSlots n seq line rest prev (uncleanSlot i s)

/-- The slots a part receives as standby (R180, R191): telemetry kept and counted, without a loss, which is counted only on frames
the part launched itself (R187). -/
def listenSlots (n seq : Nat) (line : List RingSymbol) : List Nat → State → State
  | [], s => s
  | i :: rest, s =>
    match validSlot n seq line i with
    | some slot => listenSlots n seq line rest (onStage i (fun t => { t with
        slot := slot, since := some 0, clean := if slotHealthy slot then min 255 (t.clean + 1) else 0 }) s)
    | none => listenSlots n seq line rest (onStage i (fun t => { t with
        clean := 0, total := (t.total + 1) % 2 ^ 32, since := t.since.map (· + 1) }) s)

/-- The last good header and outbound block that a standby has received (R180, R191, R511). -/
def listenHead (r : Nat) (head : Bytes) (s : State) : State :=
  onRing r (fun t => { t with tickSeq := hdSeq head, heard := hdMaster head })
    { s with
      chr.authGen := hdGen head
      chr.sent := (List.range 48).map fun i => if i / 24 = r then headRef head (i % 24) else nth s.chr.sent i }

/-- A declared ring break (R189). -/
def settleBroken (r : Nat) (s : State) : State :=
  if 3 ≤ (ring s r).failRun && !(ring s r).broken then
    raise evChrRingBreak (onRing r (fun t => { t with broken := true, breaks := t.breaks + 1 }) s)
  else s

/-- A voltage ceiling in 0.1 V from the Q3.28 output bound under R150 (R176). -/
def ceilOf (v : Int) : Nat := (clampI 0 65534 (v * 12500 / one28)).toNat

/-- A used loop binds the voltage ceiling of group `gi` (R150). -/
def ceilBound (s : State) (gi : Nat) : Bool := s.cad.loops.any fun l => loopUsed l.desc && l.out.contains (0x0800 + gi)

/-- The voltage ceiling launched for group `gi` at a Chainring tick: what a SINK 1 group, whose tick that is, has pending for it,
or else what is in force (R141, R150, R152). -/
def boundCeil (s : State) (gi : Nat) : Option Int :=
  if !ceilBound s gi then none
  else match ((s.cad.groups.filter fun t => gSink t.desc == 1).flatMap (·.pend)).reverse.find? fun d => d.1 == 0x0800 + gi with
    | some d => some d.2
    | none => (group s gi).vCeil

/-- The references a frame carries for a stage: zero in Kickstand (R190) and in a life-cycle state that energises nothing (R91). -/
def launchRef (kick live : Bool) (f : Ref) : Ref :=
  if kick then { f with refI := 0, enable := false, mtxValid := false }
  else if live then f else { f with refI := 0, enable := false }

/-- The record of one position at a launch: as last written, with the voltage ceiling of the group whose split holds it. -/
def launched (s : State) (i : Nat) : Ref :=
  let f := nth s.chr.next i
  launchRef (kicked s) (mayEnergise s)
    (match ((List.range 16).find? fun gi => gSink (group s gi).desc == 1 && (group s gi).split.contains i).bind (boundCeil s) with
    | some v => { f with vCeil := ceilOf v }
    | none => f)

/-- FLAGS of the frame a ring launches (R173, R180, R190). -/
def ringFlags (s : State) (r : Nat) : Nat := (if kicked s then 1 else 0) + (if (ring s r).takeover then 2 else 0)

/-- Every SINK 1 group that is not in the group Kickstand has written a record since the last launch (R503). -/
def allFresh (s : State) : Bool := s.cad.groups.all fun t => gSink t.desc != 1 || t.kick || t.fresh

/-- What a launch does to the authority timer (R503), once per tick: at the first ring that is enabled. -/
def restartTimer (r : Nat) (s : State) : State :=
  if r != 0 && ringEnabled s 0 then s
  else { s with
    tdm.sinceNew := if allFresh s then 0 else s.tdm.sinceNew + s.cfg.chain.tick
    cad.groups := s.cad.groups.map fun t => { t with fresh := false } }

/-- The launch of the next frame on a ring (R173, R178): its TICK_SEQ, header, OUT_CRC and delimiters are the island's own; a record
that no group has written since the last launch goes out again and sets the late flag (R29). -/
def launch (r : Nat) (s : State) : State :=
  let t := ring s r
  let s := restartTimer r (if t.written || t.frame == [] then s else setLate (lateRing r) s)
  let refs := (List.range 24).map fun p => launched s (24 * r + p)
  let seq := (t.tickSeq + 1) % 2 ^ 32
  let header := ringHeader (masterId s r) s.chr.authGen seq (ringSlots s r) s.cfg.chain.tick (ringFlags s r)
  onRing r (fun t => { t with
      tickSeq := seq, takeover := false, written := false, frame := formFrame header (refs.take (ringSlots s r)) })
    { s with chr.sent := (List.range 48).map fun i => if i / 24 = r then nth refs (i % 24) else nth s.chr.sent i }

/-- The symbols a ring's transmitter sends in a tick: the frame launched in it (R172). -/
def ringLine (s : State) (r : Nat) : List RingSymbol :=
  if (ring s r).frame == [] then [ringIdle] else ringSymbols (ring s r).frame

/-- The tandem state changes. -/
def tdmEnter (x : TandemState) (s : State) : State := raiseIf (s.tdm.state != x) 120 { s with tdm.state := x }

/-- Back to SYNCING, with nothing counted (R509). -/
def tdmSync (s : State) : State :=
  tdmEnter .syncing { s with
    tdm.eligible := 0, tdm.bulk := false, tdm.missing := 0, tdm.switchPending := false, tdm.switchSent := false, tdm.guardRuns := false }

/-- TND_AUTH_O goes low and authority is given up (R503). -/
def lowerAuth (s : State) : State :=
  if holds s then
    tdmSync { s with tdm.authO := false, tdm.partner := if s.tdm.state == .active then 4 else s.tdm.partner, mtr.takeover := 3 }
  else { s with tdm.authO := false, tdm.guardRuns := false }

/-- The authority timer has run for 300 us without a launch that restarts it (R503). -/
def settleTimer (s : State) : State := if paired s && holds s && 300 ≤ s.tdm.sinceNew then lowerAuth s else s

/-- The consequence of R182 in a pair: authority is given up and the part is fenced (R503). -/
def fence (cause : Nat) (s : State) : State :=
  raise 120 (raise 123 (record 0x4E02 srcA0 (u8 cause) (enterKick 0x0603
    { s with
      tdm.state := .fenced, tdm.authO := false, tdm.guardRuns := false, tdm.fenceCause := cause, tdm.eligible := 0
      tdm.switchPending := false, tdm.switchSent := false, mtr.takeover := if holds s then 3 else s.mtr.takeover })))

/-- A foreign frame returned (R182, R544): the ring is left, its stages are lost. -/
def foreignMaster (r : Nat) (head : Bytes) (s : State) : State :=
  let t := ring s r
  let s1 := record 0x4401 srcCadence (u8 r ++ u8 (masterId s r) ++ u16 s.chr.authGen ++ u32 t.tickSeq ++
    u8 (hdMaster head) ++ u16 (hdGen head) ++ u32 (hdSeq head)) (raise evChrForeignMaster
      (onRing r (fun t => { t with off := true, foreign := (t.foreign + 1) % 2 ^ 32 }) s))
  let s2 := (ringPositions s r).foldl (fun s i => loseStage i s) s1
  if s.sys.role == 4 || s.sys.role == 5 then fence 3 s2 else s2

/-- The identity of a frame is that of the one last launched on the ring (R182). -/
def ownHead (s : State) (r : Nat) (head : Bytes) : Bool :=
  hdMaster head == masterId s r && hdGen head == s.chr.authGen && hdSeq head == (ring s r).tickSeq

/-- Whether the last frame of a ring returned (R189). -/
def ringReturn (r : Nat) (intact : Bool) (s : State) : State :=
  if intact then
    raiseIf (ring s r).broken evChrRingRestored (onRing r (fun t => { t with failRun := 0, broken := false }) s)
  else settleBroken r (onRing r (fun t => { t with failRun := t.failRun + 1, failed := (t.failed + 1) % 2 ^ 32 }) s)

/-- A tick of a ring that the part masters: the next frame is launched from the record as it stands at the edge, and the frame that
was launched at the last edge is judged by what came back (R28, R177, R182, R187, R189). -/
def masterTick (r : Nat) (line : List RingSymbol) (s : State) : State :=
  let n := ringSlots s r
  if (ring s r).frame == [] then launch r s
  else match ringHead n line with
    | some head =>
      if ownHead s r head then
        judgeSlots n (ring s r).tickSeq line (ringPositions s r) none (launch r (ringReturn r true s))
      else foreignMaster r head s
    | none => judgeSlots n (ring s r).tickSeq line (ringPositions s r) none (launch r (ringReturn r false s))

/-- A tick of a ring to which a part only listens (R180, R191). -/
def listenTick (r : Nat) (line : List RingSymbol) (s : State) : State :=
  match ringHead (ringSlots s r) line with
  | some head => listenSlots (ringSlots s r) (hdSeq head) line (ringPositions s r) (listenHead r head s)
  | none =>
    let seq := match (afterStart line).bind fun d => bytesAt d 4 4 with
      | some b => leNat b
      | none => 0
    listenSlots (ringSlots s r) seq line (ringPositions s r) s

/-- CHAINRING_FRAME_RETURN (R177): `line` is what the ring's receiver decoded since the last tick. -/
def execChainringFrameReturn (r : Nat) (line : List RingSymbol) (s : State) : Res :=
  .next (
    if !(up s && r < 2 && ringEnabled s r) then s
    else if !masters s then listenTick r line s
    else if !(ring s r).running || (ring s r).off then s
    else settleTimer (masterTick r line s))

/-- STAGE_LOST (R187). -/
def execStageLost (position : Nat) (s : State) : Res :=
  .next (if stageDueLost (stage s (posIndex position)) then loseStage (posIndex position) s else s)

/-- STAGE_PRESENT (R188). -/
def execStagePresent (position : Nat) (s : State) : Res :=
  .next (if stageDuePresent (stage s (posIndex position)) then gainStage (posIndex position) s else s)

/-- RING_BROKEN (R189). -/
def execRingBroken (r : Nat) (s : State) : Res := .next (settleBroken r s)

/-- MATRIX_CONFIRM_TIMEOUT (R133): 50 ms have passed since the command. -/
def execMatrixConfirmTimeout (position : Nat) (s : State) : Res :=
  let i := posIndex position
  .next (match (assignOf s i).phase with
    | .opening => abandonMove i s
    | .closing => abandonMove i s
    | _ => s)

/-- The matrix operations due at a switching window (R131, R338): each stage waiting for one is commanded, where the
Derailleur is not late (R109), the part is not in Kickstand (R136) and no operation started in the last 2 s. -/
def windowMatrix (s : State) : State :=
  if kicked s || s.alc.lateRun != 0 || !masters s then s
  else (positions s).foldl (fun s i =>
    let a := assignOf s i
    let free := match a.lastOp with
      | some e => e + 2000 ≤ s.alc.epoch
      | none => true
    let seq := (a.seq + 1) % 256
    match a.phase with
    | .openDue =>
      if free && bit (posReach (posOf s i)) (a.at_ - 1) && (slContact (stage s i).slot == 0 || 3 ≤ a.zeroRun) then
        onAssign i (fun a => { a with phase := .opening, lastOp := some s.alc.epoch, seq := seq })
          (setRef i (fun f => { f with mtxValid := true, mtxClose := false, mtxOutlet := a.at_, mtxSeq := seq }) s)
      else s
    | .closeDue =>
      if slContact (stage s i).slot == 0 && !slMoving (stage s i).slot then
        onAssign i (fun a => { a with
            phase := .closing, seq := seq,
            lastOp := if free then some s.alc.epoch else a.lastOp })
          (setRef i (fun f => { f with mtxValid := true, mtxClose := true, mtxOutlet := a.dest, mtxSeq := seq }) s)
      else s
    | _ => s) s

/-! ### Commands (R191) -/

/-- State byte of CHR_GET_RING. -/
def ringCode (s : State) (r : Nat) : Nat :=
  if !ringEnabled s r then 0 else if (ring s r).off then 4 else if !masters s then 3
  else if !(ring s r).running then 0 else if (ring s r).broken then 2 else 1

/-- CHR_GET_RING. -/
def execChrGetRing (r : Req) (n : Nat) (s : State) : Res :=
  command { op := 0x0401, own := .hub, reads := true } r (fun s =>
    checked [(2 ≤ n, stBadArg)] s fun s =>
      let t := ring s n
      .ok s (u8 (ringCode s n) ++ u8 (if masters s then masterId s n else (ring s n).heard) ++ u16 s.chr.authGen ++ u32 t.tickSeq ++ u8 (ringSlots s n) ++
        u16 s.cfg.chain.tick ++ u32 t.failed ++ u32 t.breaks ++ u32 t.foreign)) s

/-- State byte of CHR_GET_STAGE. -/
def stageCode (t : Stage) : Nat := if (t.state == 1 || t.state == 4) && t.clean != 0 then 2 else t.state

/-- A POSITION byte is well formed (R130). -/
def posOk (p : Nat) : Bool := p < 256 && 1 ≤ p % 32 && p % 32 ≤ 24

/-- CHR_GET_STAGE. -/
def execChrGetStage (r : Req) (position : Nat) (s : State) : Res :=
  command { op := 0x0402, own := .hub, reads := true } r (fun s =>
    checked [(!posOk position, stBadArg)] s fun s =>
      let t := stage s (posIndex position)
      .ok s (u8 (stageCode t) ++ u8 t.clean ++ u32 t.total ++ u32 (age32 (t.since.getD 0xFFFFFFFF)) ++ slice t.slot 0 16)) s

/-- CHR_CLEAR_COUNTERS. -/
def execChrClearCounters (r : Req) (n : Nat) (s : State) : Res :=
  command { op := 0x0403, own := .hub, secure := true, states := lcIFS, cred := 1 } r (fun s =>
    checked [(2 ≤ n, stBadArg)] s fun s =>
      .ok (onRing n (fun t => { t with failed := 0, breaks := 0, foreign := 0 }) s)) s

end Sys2Proof.Machine
end

