-- ==== Sys2Proof/Machine/SafeCore.lean ====
section
/-!
DEFINITION. The safety parameter set in service (R406, R409, R410), the fields of its entries, and the load channels
as the safety functions and their own diagnostics switch them (R368, R418, R424, R427).
-/
namespace Sys2Proof.Machine

abbrev evSafStop : Nat := 80
abbrev evSafPermit : Nat := 81
abbrev evSafDiscrepancy : Nat := 82
abbrev evSafCrossShort : Nat := 83
abbrev evSafPairFault : Nat := 84
abbrev evSafReset : Nat := 85
abbrev evSafMuting : Nat := 86
abbrev evSafTwoHand : Nat := 87
abbrev evSafDoorLock : Nat := 88
abbrev evSafCompare : Nat := 89
abbrev evSafLinkFault : Nat := 90
abbrev evSafLinkDegraded : Nat := 91
abbrev evSafCfgEdit : Nat := 92
abbrev evSafCfgCommit : Nat := 93
abbrev evSafCfgAck : Nat := 94
abbrev evSafCfgLockout : Nat := 95
abbrev evLdcFault : Nat := 96
abbrev evLdcExhausted : Nat := 97
abbrev evLdcOvertemp : Nat := 98
abbrev evLdcOpenLoad : Nat := 99
abbrev evLdcSupply : Nat := 100
abbrev evLdcWatchdog : Nat := 101
abbrev evLdcPackage : Nat := 102
abbrev evLdcRecovered : Nat := 103

/-! ### Safe input, instance, pair and connection entries -/
def siMode (b : Bytes) : Nat := g8 b 1
def siTp (b : Bytes) (chB : Bool) : Nat := g8 b (if chB then 3 else 2)
def siFilter (b : Bytes) : Nat := g8 b 4
/-- DISCREPANCY, ms. -/
def siDiscrepancy (b : Bytes) : Nat := g16 b 6
def inKind (b : Bytes) : Nat := g8 b 1
def inSi1 (b : Bytes) : Nat := g8 b 2
def inSi2 (b : Bytes) : Nat := g8 b 3
def inCat (b : Bytes) : Nat := g8 b 4
def inReset (b : Bytes) : Nat := g8 b 5
def inRamp (b : Bytes) : Nat := g16 b 6
def inTargets (b : Bytes) : Nat := g16 b 8
def inParam1 (b : Bytes) : Nat := g16 b 10
def inParam2 (b : Bytes) : Nat := g16 b 12
def inLoad (b : Bytes) : Nat := g8 b 14
/-- FLAGS[0]: the door lock is power-to-unlock. -/
def inPowerUnlock (b : Bytes) : Bool := bit (g8 b 15) 0
def prMode (b : Bytes) : Nat := g8 b 1
def prMask (b : Bytes) : Nat := g32 b 2
def prDark (b : Bytes) : Nat := g8 b 6
def prOpenLoad (b : Bytes) : Bool := bit (g8 b 7) 0
def cnSrc (b : Bytes) : Nat := g8 b 1
def cnEnabled (b : Bytes) : Bool := bit (g8 b 2) 0
def cnPaired (b : Bytes) : Bool := bit (g8 b 2) 1
def cnCat (b : Bytes) : Nat := g8 b 3
def cnLoss (b : Bytes) : Nat := g16 b 4
def cnMap (b : Bytes) : Nat := g16 b 6
def cnWatchdog (b : Bytes) : Nat := g16 b 8
def cnSkew (b : Bytes) : Nat := g8 b 10
def cnEth (b : Bytes) : Nat := g8 b 11
def cnHold (b : Bytes) : Nat := g16 b 12
def cnRamp (b : Bytes) : Nat := g8 b 14
/-- ISLAND_ID. -/
def shIsland (h : Bytes) : Nat := g32 h 0
/-- TP_PERIOD, ms. -/
def shPeriod (h : Bytes) : Nat := g16 h 4
/-- Part reset source. -/
def shReset (h : Bytes) : Nat := g8 h 6

/-- Milliseconds as safety ticks. -/
abbrev ticksOf (ms : Nat) : Nat := 4 * ms

/-! ### The set in service (R409, R410) -/

/-- The bytes of a set in the order of R406. -/
def setBytes (t : SafeSet) : Bytes := t.header ++ t.inputs.flatten ++ t.insts.flatten ++ t.pairs.flatten ++ t.conns.flatten ++ t.exports

/-- A copy of the safety set as its tag covers it (R409, R459; layout: log entry 26). -/
def safeCopyBytes (c : SafeCopy) : Bytes :=
  (match c.set with | some t => setBytes t | none => []) ++ u32 c.generation ++ uFlag c.acked

/-- A copy of the safety set is valid (R409, R459). -/
def safeGood (c : SafeCopy) : Bool := c.readable && tagRight c.tag (integrityTag (ascii "DRINOV-SAF") (safeCopyBytes c))

/-- The valid copy with the higher generation, copy A where equal. -/
def safeWinner (n : SafNv) : Option SafeCopy :=
  match n.copies.filter safeGood with
  | [] => none
  | c :: l => some (l.foldl (fun best d => if d.generation > best.generation then d else best) c)

/-- The set held, acknowledged or not. -/
def safeHeld (s : State) : Option SafeSet := match safeWinner s.nvSaf with | some c => c.set | none => none

/-- The set in service; every entry unused where none is held. -/
def safeSet (s : State) : SafeSet := (safeHeld s).getD {}

/-- An acknowledged set is held, so that instances may give permits (R358). -/
def safeRunning (s : State) : Bool := match safeWinner s.nvSaf with | some c => c.set.isSome && c.acked | none => false

/-- A set is held that awaits acknowledgement. -/
def safeAwaiting (s : State) : Bool := match safeWinner s.nvSaf with | some c => c.set.isSome && !c.acked | none => false

/-- The set signature (R406). -/
def setSignature (t : SafeSet) : Nat := crc32c (setBytes t)

def siCfg (s : State) (i : Nat) : Bytes := nth (safeSet s).inputs i
def pairCfg (s : State) (n : Nat) : Bytes := nth (safeSet s).pairs n
def connCfg (s : State) (c : Nat) : Bytes := nth (safeSet s).conns c

/-- Outlet mask bit of an outlet number. -/
def outletBit (n : Nat) : Nat := if n = 0 then 0 else 2 ^ (n - 1)

/-- The entry of instance `j`; 32 to 34 are the implicit external stops of the insulation monitors (R371). -/
def instCfg (s : State) (j : Nat) : Bytes :=
  if j < 32 then nth (safeSet s).insts j
  else if localSlot s (j - 32) && seImdSi (sesCfg s (j - 32)) < 16 then
    u8 j ++ u8 5 ++ u8 (seImdSi (sesCfg s (j - 32))) ++ u8 255 ++ u8 1 ++ u8 255 ++ u16 100 ++
      u16 (outletBit (outletOf s (j - 32))) ++ u16 0 ++ u16 0 ++ u8 255 ++ u8 0
  else []

/-- Instances in use. -/
def instances (s : State) : List Nat := (List.range 35).filter fun j => inKind (instCfg s j) != 0

def sinput (s : State) (i : Nat) : SafeInput := nth s.saf.inputs i
def onInputSi (i : Nat) (f : SafeInput → SafeInput) (s : State) : State := { s with saf.inputs := upd s.saf.inputs i f }
def inst (s : State) (j : Nat) : Inst := nth s.saf.insts j
def onInst (j : Nat) (f : Inst → Inst) (s : State) : State := { s with saf.insts := upd s.saf.insts j f }
def pairOf (s : State) (n : Nat) : Pair := nth s.saf.pairs n
def onPair (n : Nat) (f : Pair → Pair) (s : State) : State := { s with saf.pairs := upd s.saf.pairs n f }
def conn (s : State) (c : Nat) : Conn := nth s.saf.conns c
def onConn (c : Nat) (f : Conn → Conn) (s : State) : State := { s with saf.conns := upd s.saf.conns c f }

/-- The node number of the part (R546); in peloton mode the member index (R517). -/
def ownNode (s : State) : Nat :=
  if s.sys.role = 6 then s.sys.nodeStrap
  else 8 * s.cfg.spoke.network + (if s.sys.role = 5 then 1 else if s.sys.role = 2 then s.sys.nodeStrap + 1 else 0)

/-- The SRC byte of the part's safety frames: node number and network (safety frame table, R517). -/
def ownSrc (s : State) : Nat := if s.sys.role = 6 then ownNode s else 32 * s.cfg.spoke.network + ownNode s

/-! ### Load channel and generator entries (R417) -/
def ldMode (b : Bytes) : Nat := g8 b 1
def ldGen (b : Bytes) : Nat := g8 b 2
def ldOffDiag (b : Bytes) : Bool := bit (g8 b 3) 0
def ldOpenEvent (b : Bytes) : Bool := bit (g8 b 3) 1
def ldPhase (b : Bytes) : Nat := g16 b 4
def ldTrip (b : Bytes) : Nat := g16 b 6
def ldOlMin (b : Bytes) : Nat := g16 b 8
def ldInrush (b : Bytes) : Nat := g8 b 10
def ldRetryMax (b : Bytes) : Nat := g8 b 11
/-- RETRY_DELAY, 10 ms units. -/
def ldRetryDelay (b : Bytes) : Nat := g16 b 12
def ldClamp (b : Bytes) : Nat := g8 b 14
def gnEnabled (b : Bytes) : Bool := bit (g8 b 1) 0
def gnFreq (b : Bytes) : Nat := g16 b 2

def loadCfg (s : State) (c : Nat) : Bytes := (entryAt s.cfg.loads c).getD []
def genCfg (s : State) (g : Nat) : Bytes := (entryAt s.cfg.gens g).getD []
def load (s : State) (c : Nat) : Load := nth s.ldc.chans c
def onLoad (c : Nat) (f : Load → Load) (s : State) : State := { s with ldc.chans := upd s.ldc.chans c f }

/-- PERIOD of a generator, counts of 400 MHz (R419). -/
def pwmPeriod (freq : Nat) : Nat := (2 * 400000000 + freq) / (2 * freq)

/-- Counts from the generator's period start to the on-edge (R419). -/
def pwmStart (period phase : Nat) : Nat := phase * period / 1024

/-- On-time in counts: not produced below 400, and on throughout where the off-time is below 400 (R419). -/
def pwmOn (period duty : Nat) : Nat :=
  let t := duty * period / 1024
  if t < 400 then 0 else if period - t < 400 then period else t

/-- The SINK 2 group that drives a generator (R158). -/
def genGroup (s : State) (g : Nat) : Option Nat :=
  (List.range 16).find? fun i => gSink (group s i).desc == 2 && gTarget (group s i).desc == g

/-- Duty code of a generator (R419). -/
def genDuty (s : State) (g : Nat) : Nat :=
  match genGroup s g with
  | some i => (group s i).duty
  | none => nth s.ldc.duty g

/-- The channels of a generator take a new duty code from their next on-edge (R419, R420). -/
def newPulses (g : Nat) (s : State) : State :=
  let period := pwmPeriod (gnFreq (genCfg s g))
  { s with ldc.chans := s.ldc.chans.zipIdx.map fun (x : Load × Nat) =>
      let e := loadCfg s x.2
      if ldMode e = 2 && ldGen e == g then { x.1 with pulse := (pwmStart period (ldPhase e), pwmOn period (genDuty s g)) } else x.1 }

/-- A channel named in LOAD_CH of the set in service (R368). -/
def loadOwned (s : State) (c : Nat) : Bool :=
  (List.range 32).any fun j => inKind (instCfg s j) != 0 && inLoad (instCfg s j) == c

/-- A condition that holds every channel off (R429). -/
def loadsHeld (s : State) : Bool := !up s || kicked s || s.ldc.tripped || !s.env.vload || !mayEnergise s

/-- Package term of a channel, mA: inside its inrush window or not (R427). -/
def loadTerm (e : Bytes) (onMs : Nat) : Nat := if onMs < ldInrush e then 4000 else ldTrip e

/-- Package current, mA (R427). -/
def packageCurrent (s : State) : Nat :=
  (s.ldc.chans.zipIdx.map fun (x : Load × Nat) => if x.1.on then loadTerm (loadCfg s x.2) x.1.onMs else 0).sum

/-- Waiting switch-ons ahead of a channel's: earlier, or as early on a lower channel (R427). -/
def loadsAhead (s : State) (c : Nat) : Nat :=
  match (load s c).waiting with
  | none => 0
  | some o => (s.ldc.chans.zipIdx.filter fun (x : Load × Nat) => match x.1.waiting with
      | some p => p < o || (p == o && x.2 < c)
      | none => false).length

/-- The turn-off delay and temperature condition of R428. -/
def loadRested (s : State) (c : Nat) : Bool :=
  let l := load s c
  if 20 < ldClamp (loadCfg s c) then
    (match l.offMs with | some t => decide (10000 ≤ t) | none => true) && l.temp ≤ 850
  else match l.offMs with | some t => decide (100 ≤ t) | none => true

/-- A waiting switch-on may be admitted (R427, R428). -/
def loadAdmissible (s : State) (c : Nat) : Bool :=
  let l := load s c
  l.waiting.isSome && l.request && !l.on && !l.latch && l.fault == 0 && !loadsHeld s && loadRested s c &&
    packageCurrent s + loadTerm (loadCfg s c) 0 ≤ 24000 &&
    (loadsAhead s c == 0 || 100 * loadsAhead s c ≤ l.waitMs)

/-- The switch-on of a channel (R418, R424). -/
def admitLoad (c : Nat) (s : State) : State :=
  onLoad c (fun l => { l with
    on := true, waiting := none, waitMs := 0, onMs := 0, low := 0, byRetry := false
    left := if l.byRetry then l.left - 1 else l.left
    retried := l.retried || l.byRetry }) s

/-- Admission of one waiting switch-on where it is due. -/
def tryAdmit (c : Nat) (s : State) : State := if loadAdmissible s c then admitLoad c s else s

/-- A switch-on asked for: it enters the order of requests and is admitted at once where it may be (R427). -/
def askOn (c : Nat) (s : State) : State :=
  let l := load s c
  if l.on || !l.request || l.latch || l.fault != 0 || loadsHeld s then s
  else
    let s1 := tryAdmit c { s with
      ldc.chans := upd s.ldc.chans c fun l => { l with waiting := some s.ldc.order, waitMs := 0 }
      ldc.order := s.ldc.order + 1 }
    raiseIf (!(load s1 c).on) evLdcPackage s1

/-- A turn-off (R418). -/
def turnOff (c : Nat) (s : State) : State :=
  onLoad c (fun l => { l with on := false, waiting := none, offMs := if l.on then some 0 else l.offMs }) s

/-- Setting a channel's request: off is a turn-off and cancels what waits; on asks for a switch-on (R418, R425). -/
def requestLoad (c : Nat) (on : Bool) (s : State) : State :=
  if !on then onLoad c (fun l => { l with request := false, byRetry := false }) (turnOff c s)
  else if (load s c).request then s
  else askOn c (onLoad c (fun l => { l with request := true }) s)

/-- What follows a fault once the latch is clear: the retry delay, or exhaustion (R424). -/
def afterFault (c : Nat) (s : State) : State :=
  let l := load s c
  if l.fault = 0 || l.latch then s
  else if 0 < l.left then onLoad c (fun l => { l with retry := some 0 }) s
  else if l.exhausted then s
  else record 0x4A02 srcHousekeeping (u8 c ++ u8 0) (raise evLdcExhausted (onLoad c (fun l => { l with exhausted := true }) s))

/-- A channel fault: [0] short to ground, [1] overtemperature, [2] overload (R421, R424). -/
def loadFault (c kind : Nat) (s : State) : State :=
  let s1 := onLoad c (fun l => { l with
    fault := l.fault ||| 2 ^ kind, faults := l.faults + 1, retry := none
    latch := l.latch || kind == 1, cool := if kind = 1 then 0 else l.cool }) (turnOff c s)
  let s2 := raiseIf (kind == 1 && !(load s c).latch) evLdcOvertemp s1
  afterFault c (raise evLdcFault (record 0x4A01 srcHousekeeping
    (u8 c ++ u8 kind ++ u16 ((load s c).means.headD 0) ++ i16 (load s c).temp) s2))

/-- LDC_CLEAR_FAULT on one channel (R425). -/
def clearLoad (c : Nat) (s : State) : State :=
  let l := load s c
  let s1 := onLoad c (fun l => { l with
    fault := 0, report := 0, exhausted := false, retry := none, left := ldRetryMax (loadCfg s c) }) s
  askOn c (recordIf (l.fault != 0 || l.exhausted) 0x4A02 srcHousekeeping (u8 c ++ u8 1) (raiseIf (l.report != 0 && ldOpenEvent (loadCfg s c)) evLdcOpenLoad s1))

/-- Every channel off at once (R429). -/
def loadsOff (s : State) : State := (List.range 24).foldl (fun s c => turnOff c s) s

/-- Faults of a muting lamp (R422): every condition of the table, and retries exhausted. -/
def lampFault (s : State) (c : Nat) : Bool := (load s c).fault != 0 || (load s c).report != 0 || (load s c).exhausted

end Sys2Proof.Machine
end

