-- ==== Sys2Proof/Machine/Cadence.lean ====
section
/-!
DEFINITION. The control tick of the Cadence engine: inputs, selection, direction and zero hold, stop ramp, split over
the stages, overrun and group Kickstand (R148 to R164), and the Cadence events.
-/
namespace Sys2Proof.Machine

abbrev evCadSaturation : Nat := 24
abbrev evCadOverrun : Nat := 25
abbrev evCadGroupKickstand : Nat := 26
abbrev evCadHoldDone : Nat := 27
abbrev evCadStopZero : Nat := 28
abbrev evCadWinner : Nat := 29
abbrev evCadSplit : Nat := 30
abbrev evCadCommit : Nat := 31

/-- Changing a loop. -/
def onLoop (i : Nat) (f : Loop → Loop) (s : State) : State := { s with cad.loops := upd s.cad.loops i f }
def loop (s : State) (i : Nat) : Loop := nth s.cad.loops i

/-- Setting sticky flags of a loop (R146): each that goes from 0 to 1 sets its event and writes a record. The conditions of the
present tick are kept, for a flag set in the tick in which it is cleared stays set. -/
def setFlags (i bits : Nat) (s : State) : State :=
  onLoop i (fun l => { l with fresh := bits }) <| (List.range 5).foldl (fun s f =>
    if bit bits f && !bit (loop s i).flags f then
      record 0x4301 srcCadence (u8 i ++ u8 f)
        (raise (if f = 4 then evCadOverrun else evCadSaturation) (onLoop i (fun l => { l with flags := l.flags ||| 2 ^ f }) s))
    else s) s

/-- The telemetry of a ring position may be used: its last clean slot is at most two frames old (R187). -/
def heardLately (s : State) (i : Nat) : Bool :=
  match (stage s i).since with
  | some n => n ≤ 2
  | none => false

/-- The stages that feed the measured current and voltage of a group: those whose telemetry shows the contact to the group's target
closed; for the buffer converter all its positions (R149, log entry 13). -/
def feeding (s : State) (target : Nat) : List Nat :=
  (positions s).filter fun i => heardLately s i &&
    (if target = 0x80 then posKind (posOf s i) == 2
     else posKind (posOf s i) == 1 && slContact (stage s i).slot == target)

/-- Group current, 0.1 A (R149, R176). -/
def groupAmps (s : State) (target : Nat) : Int := ((feeding s target).map fun i => slI (stage s i).slot).sum

/-- Group voltage, 0.01 V: the mean of V_OUT x 10. -/
def groupVolts (s : State) (target : Nat) : Int :=
  let l := feeding s target
  if l.isEmpty then 0 else roundDiv (((l.map fun i => 10 * slV (stage s i).slot).sum : Nat) : Int) l.length

/-- The grant in force of a target outlet. -/
def grantOf (s : State) (target : Nat) : Grant := if target = 0 || 12 < target then {} else nth s.alc.grants (target - 1)

/-- Raw value of an input source for a loop of group `gi` (R149). -/
def source (s : State) (gi src : Nat) : Int :=
  let n := src % 256
  let exp := (group s gi).mode == 1
  let target := gTarget (group s n).desc
  match src / 256 with
  | 0x00 => if n = 0xFF then 1 else 0
  | 0x01 => if exp then -(10 * groupAmps s target) else 10 * groupAmps s target
  | 0x02 => groupVolts s target
  | 0x03 => if exp && ceQuantity (chanEntry s n) == 2 then -(corrected s n) else corrected s n
  | 0x05 => (nth s.heat.tin n).value
  | 0x06 => if (nth s.heat.fin n).state ≤ 1 then (nth s.heat.fin n).last.getD 0 else 0
  | 0x07 => nth s.cad.exports n
  | 0x10 => (grantOf s target).i
  | 0x11 => (grantOf s target).p
  | 0x12 => (grantOf s target).iTarget
  | 0x13 => (grantOf s target).vMax
  | 0x14 => (grantOf s target).iTherm
  | 0x15 => s.alc.bufferOut.natAbs
  | 0x16 => nth s.cad.refs n
  | _ => 0

/-- The inputs z of a loop, with ACC_SAT on a clamp (R148). -/
def inputs (s : State) (l : Loop) : List Int × Nat :=
  let r := l.inp.map fun b => scaleIn (source s l.group b.1) b.2.1 b.2.2
  (r.map (·.1), flagIf (r.any (·.2)) flAcc)

/-- The loops of a group that are computed: enabled ones, ascending. -/
def groupLoops (s : State) (gi : Nat) : List Nat :=
  (List.range 64).filter fun i => loopUsed (loop s i).desc && (loop s i).group == gi && (loop s i).enabled

/-- The direction a group is asked for: the grant's, or that of the buffer setpoint. A setpoint of 0 has none: the group goes on with
what it was asked for, so that a hold under way goes on (R159, R160, log entry 35). -/
def askedDir (s : State) (gi : Nat) : Nat :=
  let t := gTarget (group s gi).desc
  if t = 0x80 then
    (if 0 < s.alc.bufferOut then 1 else if s.alc.bufferOut < 0 then 0
     else if (group s gi).hold then 1 - (group s gi).mode else (group s gi).mode)
  else (grantOf s t).dir

/-- The group current is counted as zero (ZERO_BAND). -/
def groupZero (s : State) (gi : Nat) : Bool :=
  (groupAmps s (gTarget (group s gi).desc)).natAbs ≤ gZeroBand (group s gi).desc

/-- A zero hold is complete: the timer has reached ZERO_HOLD (R159). -/
def holdDue (t : Group) : Bool :=
  t.hold && match t.holdUs with
  | some us => gZeroHold t.desc * 1000 ≤ us
  | none => false

/-- The completion of a zero hold (R159). -/
def completeHold (gi : Nat) (s : State) : State :=
  let m := 1 - (group s gi).mode
  raise evCadHoldDone (record 0x4303 srcCadence (u8 gi ++ u8 m)
    (onGroup gi (fun t => { t with mode := m, hold := false, holdUs := none, holdDone := true }) s))

/-- Direction and hold at the start of a tick (R159, R160). -/
def tickHold (gi : Nat) (s : State) : State :=
  let t := group s gi
  if gSink t.desc != 1 then s
  else if askedDir s gi = t.mode then onGroup gi (fun t => { t with hold := false, holdUs := none }) s
  else
    let z := groupZero s gi
    let us := match t.holdUs with
      | some v => if z then some (v + gTick t.desc) else some 0
      | none => if t.g == 0 && z then some 0 else none
    let s := onGroup gi (fun t => { t with hold := true, holdUs := us }) s
    if holdDue (group s gi) then completeHold gi s else s

/-- Stop ramp at the start of a tick (R162). -/
def tickStop (gi : Nat) (s : State) : State :=
  let t := group s gi
  if !t.stopDemand then onGroup gi (fun t => { t with stop := none, atZero := false }) s
  else
    let v := match t.stop with
      | none => t.g
      | some v => max 0 (v - gStopStep t.desc)
    let s := onGroup gi (fun t => { t with stop := some v }) s
    if t.g == 0 && groupZero s gi && !t.atZero then raise evCadStopZero (onGroup gi (fun t => { t with atZero := true }) s)
    else s

/-- Stages of the split of a SINK 1 group (R156). -/
def splitOf (s : State) (target : Nat) : List Nat :=
  (positions s).filter fun i => (stage s i).state == 3 && 0 < (assignOf s i).counted &&
    (if target = 0x80 then posKind (posOf s i) == 2
     else posKind (posOf s i) == 1 && (assignOf s i).at_ == target && (assignOf s i).dest == target &&
      (assignOf s i).phase == .idle)

/-- c_s of a stage in 0.1 A (R156). -/
def stageCap (s : State) (i : Nat) : Frac :=
  ⟨10 * posCurrent (posOf s i) * (assignOf s i).counted, max 1 (posRating (posOf s i))⟩

/-- A current in 0.1 A as a competitor (R153). -/
def competitor (num : Int) (den fullScale : Nat) : Int := (sat28 (roundDiv (num * one28) (max 1 den * max 1 fullScale))).1

/-- The capacity competitor (R153). -/
def capacity (s : State) (split : List Nat) (fullScale : Nat) : Int :=
  let c : Frac := split.foldl (fun a i => Frac.add a (stageCap s i)) ⟨0, 1⟩
  competitor c.num c.den fullScale

/-- The least of the competitors and the first that gives it (R154). -/
def least : List (Nat × Int) → Nat × Int
  | [] => (0x40, 0)
  | x :: l => l.foldl (fun b y => if y.2 < b.2 then y else b) x

/-- The zero competitor is present (R153). -/
def zeroPresent (s : State) (gi : Nat) : Bool :=
  let t := group s gi
  kicked s || (gSink t.desc == 1 && (t.hold || !bit (gDirections t.desc) (askedDir s gi)))

/-- g(k) from g_sel(k) (R154). -/
def applied (desc : Bytes) (prev sel : Int) : Int :=
  let g := min (max sel 0) (gMax desc)
  if gSlew desc = 0 then g else min g (prev + gSlew desc)

/-- V_CEIL of a group's references (R176). -/
def voltCeil (s : State) (gi : Nat) : Nat :=
  let t := group s gi
  match (if ceilBound s gi then t.vCeil else none) with
  | some v => ceilOf v
  | none => if gTarget t.desc = 0x80 then 65535 else match outEntry s.cfg.outlets (gTarget t.desc) with
    | some e => min 65535 (10 * outVoltage e)
    | none => 65535

/-- The outbound slot of one position as a group writes it: its share, zero where it has left the split, else unchanged. -/
def splitRef (t : Group) (shares : List (Nat × Nat)) (v : Nat) (old : List Ref) (i : Nat) : Ref :=
  match shares.find? fun x => x.1 == i with
  | some x => { nth old i with refI := min 65535 x.2, vCeil := v, dir := t.mode == 1, enable := true }
  | none =>
    if t.split.contains i then { nth old i with refI := 0, vCeil := v, dir := t.mode == 1, enable := false } else nth old i

/-- The references of a SINK 1 group into the launch buffer (R157, R176). -/
def writeSplit (gi : Nat) (split : List Nat) (g : Int) (s : State) : State :=
  let t := group s gi
  let fs := gFullScale t.desc
  let shares := waterFill 49 ⟨(g * fs).toNat, one28.toNat⟩
    (split.map fun i => { id := i, weight := (assignOf s i).counted, cap := stageCap s i })
  { s with
    chr.next := (List.range 48).map (splitRef t shares (voltCeil s gi) s.chr.next)
    chr.rings := s.chr.rings.map fun r => { r with written := true }
    cad.groups := upd s.cad.groups gi fun t => { t with fresh := true } }

/-- The outputs written at the last tick are launched: export slots, voltage ceilings, duty (R150, R158). -/
def launchOutputs (gi : Nat) (s : State) : State :=
  let t := group s gi
  let s := onGroup gi (fun t => { t with pend := [], duty := t.pendDuty }) s
  let s := if gSink t.desc = 2 then newPulses (gTarget t.desc) s else s
  t.pend.foldl (fun s d =>
    if d.1 / 256 = 7 then { s with cad.exports := s.cad.exports.set (d.1 % 256) d.2 }
    else if d.1 / 256 = 8 then onGroup (d.1 % 256) (fun t => { t with vCeil := some d.2 }) s
    else s) s

/-- The launch buffer of a group with its zero record (R164). -/
def zeroRecord (gi : Nat) (s : State) : State :=
  onGroup gi (fun t => { t with g := 0, pendDuty := 0, pend := [] })
    { s with
      chr.next := (List.range 48).map fun i =>
        if (group s gi).split.contains i then { nth s.chr.next i with refI := 0, enable := false } else nth s.chr.next i
      chr.rings := s.chr.rings.map fun r => { r with written := true } }

/-- The membership of a group's split is followed (R156). -/
def followSplit (gi : Nat) (split : List Nat) (s : State) : State :=
  raiseIf (split != (group s gi).split) evCadSplit (onGroup gi (fun t => { t with split := split }) s)

/-- The stages in the split of a group (R156); none where it drives no stages. -/
def splitNow (s : State) (gi : Nat) : List Nat :=
  if gSink (group s gi).desc = 1 then splitOf s (gTarget (group s gi).desc) else []

/-- The restart from X0 with g(k-1) = 0 (R164, R169). -/
def tickRestart (gi : Nat) (s : State) : State :=
  if !(group s gi).restart then s
  else onGroup gi (fun t => { t with restart := false, g := 0 })
    { s with cad.loops := s.cad.loops.map fun l => if l.group == gi then { l with x := l.x0 } else l }

/-- Steps 1 to 3 of a loop: z, e, u and the flags. -/
def loopFront (s : State) (i : Nat) : List Int × List Int × Nat :=
  let l := loop s i
  let z := inputs s l
  let e := stepInnovation l z.1
  let u := stepOutput l z.1
  (e.1, u.1, z.2 ||| e.2 ||| u.2)

/-- Step 5 of a loop and its bindings (R150): the state updated, its outputs pending. -/
def loopBack (gi i : Nat) (front : List Int × List Int × Nat) (g : Int) (won : Bool) (s : State) : State :=
  let l := loop s i
  let st := stepState l front.2.1 front.1 g
  let out := if gSink (group s gi).desc = 3 then front.2.1 else front.2.1.set l.sel g
  let s := onLoop i (fun l => { l with x := st.1, u := front.2.1, won := if won then (l.won + 1) % 2 ^ 32 else l.won }) s
  let s := onGroup gi (fun t => { t with pend := t.pend ++ (l.out.zip out).filter fun d => d.1 != 0 }) s
  setFlags i (front.2.2 ||| st.2 ||| flagIf (won && gSink (group s gi).desc != 3 && g != nth front.2.1 l.sel) flSel) s

/-- Steps 4 to 6 of a group with selection (SINK 1 and 2). -/
def tickSelect (gi : Nat) (s : State) : State :=
  let t := group s gi
  let ls := groupLoops s gi
  let fronts := ls.map fun i => loopFront s i
  let target := gTarget t.desc
  let split := splitNow s gi
  let fs := gFullScale t.desc
  let ceil := if target = 0x80 || gSink t.desc != 1 then 0 else competitor (grantOf s target).i 1 fs
  let cap := if gSink t.desc = 1 then capacity s split fs else 0
  let comps := (if zeroPresent s gi then [(0x40, 0)] else []) ++
    (match t.stop with | some v => [(0x41, v)] | none => []) ++
    (if gSink t.desc = 1 && target != 0x80 then [(0x42, ceil)] else []) ++
    (if gSink t.desc = 1 then [(0x43, cap)] else []) ++
    (ls.zip fronts).map fun x => (x.1, nth x.2.2.1 (loop s x.1).sel)
  let sel := least comps
  let g := applied t.desc t.g sel.2
  let s := (ls.zip fronts).foldl (fun s x => loopBack gi x.1 x.2 g (x.1 == sel.1) s) s
  let s := if gSink t.desc = 1 then writeSplit gi split g s
    else onGroup gi (fun t => { t with pendDuty := (g * 1024 / one28).toNat }) s
  let s := followSplit gi split s
  let s := raiseIf (sel.1 != t.winner && (sel.1 < 64) != (t.winner < 64)) evCadWinner s
  onGroup gi (fun t => { t with g := g, winner := sel.1, ceil := ceil, cap := cap }) s

/-- A SINK 3 group: no selection, g equal to each loop's own candidate (R158). -/
def tickObserver (gi : Nat) (s : State) : State :=
  (groupLoops s gi).foldl (fun s i =>
    let f := loopFront s i
    loopBack gi i f (nth f.2.1 (loop s i).sel) false s) s

/-- A tick of a group begins: it is counted, what was computed at the last one is launched, and the flag conditions of the last one
are over (R27, R146). -/
def tickBegins (gi : Nat) (s : State) : State :=
  let s := launchOutputs gi (onGroup gi (fun t => { t with ticks := (t.ticks + 1) % 2 ^ 64 }) s)
  { s with cad.loops := s.cad.loops.map fun l => if l.group == gi then { l with fresh := 0 } else l }

/-- Direction, hold and stop ramp of a group that has them (SINK 1 and 2). -/
def tickModes (gi : Nat) (s : State) : State :=
  if gSink (group s gi).desc = 3 then s else tickStop gi (tickHold gi s)

/-- CONTROL_TICK (R142): what was computed at the last tick is launched, measurements are latched, the group is computed. In the
group Kickstand only its hold, its stop ramp and the membership of its split go on (R164). -/
def execControlTick (gi : Nat) (s : State) : Res :=
  .next (
    if !(up s && working s && gi < 16 && groupUsed (group s gi).desc) then s
    else
      let s := tickBegins gi (onGroup gi (fun t => { t with overRun := 0 }) s)
      if (group s gi).kick then
        let s := tickModes gi s
        followSplit gi (splitNow s gi) s
      else
        let s := tickModes gi (tickRestart gi s)
        if gSink (group s gi).desc = 3 then tickObserver gi s else tickSelect gi s)

/-- The group Kickstand (R164). -/
def kickGroup (gi : Nat) (s : State) : State :=
  record 0x4302 srcCadence (u8 gi ++ u32 (group s gi).overruns) (raise evCadGroupKickstand
    (zeroRecord gi (onGroup gi (fun t => { t with kick := true }) s)))

/-- The hold timer over a tick whose computation is abandoned: time goes on, and a current above ZERO_BAND restarts it (R159). -/
def holdOver (gi : Nat) (s : State) : State :=
  let z := groupZero s gi
  onGroup gi (fun t => { t with holdUs := t.holdUs.map fun us => if z then us + gTick t.desc else 0 }) s

/-- GROUP_OVERRUN (R163, R164): the computation of tick k has not been written by tick k + 1. DESIGN CHOICE (log entry 35): the
command stands in place of that tick's CONTROL_TICK. The outputs of tick k - 1 are launched at tick k as always; what tick k
would have computed is discarded, and the launch register repeats its previous record. -/
def execGroupOverrun (gi : Nat) (completed : List Nat) (s : State) : Res :=
  .next (
    if !(up s && working s && gi < 16 && groupUsed (group s gi).desc) || (group s gi).kick then s
    else
      let s := holdOver gi (tickRestart gi (tickBegins gi s))
      let s := setLate (lateGroup gi) (onGroup gi (fun t => { t with
        overruns := (t.overruns + 1) % 2 ^ 32, overRun := t.overRun + 1 }) s)
      let s := (groupLoops s gi).foldl (fun s i => if completed.contains i then s else setFlags i flOverrun s) s
      if 2 ≤ (group s gi).overRun then kickGroup gi s else s)

/-- ZERO_HOLD_COMPLETE (R159). -/
def execZeroHoldComplete (gi : Nat) (s : State) : Res :=
  .next (if gi < 16 && holdDue (group s gi) then completeHold gi s else s)

end Sys2Proof.Machine
end

