-- ==== Sys2Proof/Machine/CadCmd.lean ====
section
/-!
DEFINITION. The Cadence commands (R168, R169) and the taking effect of a committed group.
-/
namespace Sys2Proof.Machine

/-- State byte of CAD_GET_GROUP. -/
def groupCode (s : State) (gi : Nat) : Nat :=
  let t := group s gi
  if !groupUsed t.desc then 0 else if t.kick then 5 else if kicked s && gSink t.desc != 3 then 6
  else if t.stop != none then 4 else if t.hold then 3 else if t.mode = 1 then 2 else 1

/-- CAD_GET_GROUP. -/
def execCadGetGroup (r : Req) (gi : Nat) (s : State) : Res :=
  command { op := 0x0301, own := .cadence, reads := true } r (fun s =>
    checked [(16 ≤ gi, stBadArg)] s fun s =>
      let t := group s gi
      .ok s (u8 (groupCode s gi) ++ u8 t.winner ++ i32 (if gSink t.desc = 3 then 0 else t.g) ++ i32 t.ceil ++ i32 t.cap ++
        u8 t.split.length ++ u32 t.overruns ++ u16 (age16 (t.holdUs.getD 0 / 1000)) ++ u64 t.ticks)) s

/-- CAD_GET_LOOP. -/
def execCadGetLoop (r : Req) (i : Nat) (s : State) : Res :=
  command { op := 0x0302, own := .cadence, reads := true } r (fun s =>
    checked [(64 ≤ i, stBadArg)] s fun s =>
      let l := loop s i
      .ok s (u8 l.flags ++ u32 l.won ++ (l.u.flatMap i32) ++ (l.x.flatMap i32))) s

/-- Clearing the flags of a mask; one whose condition holds in the present tick stays set (R146). -/
def clearFlags (l : Loop) (mask : Nat) : Nat := l.flags - (l.flags &&& mask) ||| (l.flags &&& l.fresh)

/-- CAD_CLEAR_FLAGS. -/
def execCadClearFlags (r : Req) (loops flags : Nat) (s : State) : Res :=
  command { op := 0x0303, own := .cadence, secure := true, states := lcIFS, cred := 1 } r (fun s =>
    checked [(32 ≤ flags, stBadArg)] s fun s =>
      .ok { s with
        cad.loops := s.cad.loops.zipIdx.map fun x =>
          if bit loops x.2 then { x.1 with flags := clearFlags x.1 flags } else x.1 }) s

/-- CAD_SET_REFERENCE: taken at the next tick of each group that reads it (R149). -/
def execCadSetReference (r : Req) (number : Nat) (value : Int) (s : State) : Res :=
  command { op := 0x0304, own := .cadence, secure := true, states := lcIFS, cred := 1 } r (fun s =>
    checked [(32 ≤ number, stBadArg)] s fun s => .ok { s with cad.refs := s.cad.refs.set number value }) s

/-- CAD_RELEASE_GROUP (R164, R169). -/
def execCadReleaseGroup (r : Req) (gi : Nat) (s : State) : Res :=
  command { op := 0x0305, own := .cadence, secure := true, states := lcIFS, cred := 1 } r (fun s =>
    checked [(16 ≤ gi, stBadArg), (!(group s gi).kick, stBadArg)] s fun s =>
      .ok (onGroup gi (fun t => { t with kick := false, restart := true, overRun := 0 }) s)) s

/-- Bytes written over a byte string at an offset; the string is padded to `len`. -/
def overlay (b : Bytes) (len off : Nat) (data : Bytes) : Bytes :=
  let b := slice b 0 len
  b.take off ++ data ++ b.drop (off + data.length)

/-- A commit is latched and not yet in service. -/
def commitWaits (s : State) : Bool := s.cad.groups.any fun t => t.commit != none

/-- CAD_STAGE_DESCRIPTOR (R169). -/
def execCadStageDescriptor (r : Req) (descriptor offset : Nat) (data : Bytes) (s : State) : Res :=
  command { op := 0x0306, own := .cadence, secure := true, states := lcIS, cred := 1
            fits := 4 ≤ data.length && data.length ≤ 2048 } r (fun s =>
    let isLoop := descriptor < 64
    let isGroup := 0x80 ≤ descriptor && descriptor < 0x90
    let size := if isLoop then 4096 else 64
    checked [(!isLoop && !isGroup, stBadArg), (offset % 4 != 0, stBadArg), (size < offset + data.length, stBadArg),
        (commitWaits s, stBusy)] s fun s =>
      .ok (if isLoop then { s with cad.stageLoops := upd s.cad.stageLoops descriptor fun b => overlay b 4096 offset data }
        else { s with cad.stageGroups := upd s.cad.stageGroups (descriptor - 0x80) fun b => overlay b 64 offset data })) s

/-- The digest of a group's descriptors: its own, then its loops ascending (log entry 13). -/
def groupDigest (desc : Bytes) (loops : List Bytes) : Bytes := digest32 (desc ++ loops.flatten)

/-- The descriptors of a group in service. -/
def serviceDigest (s : State) (gi : Nat) : Bytes :=
  if groupUsed (group s gi).desc then
    groupDigest (group s gi).desc ((s.cad.loops.filter fun l => loopUsed l.desc && l.group == gi).map (·.desc))
  else List.replicate 32 0

/-- The staged loops of a group, with their numbers. -/
def stagedLoops (s : State) (gi : Nat) : List (Nat × Bytes) :=
  (s.cad.stageLoops.zipIdx.filter fun x => loopUsed x.1 && g8 x.1 1 == gi).map fun x => (x.2, x.1)

/-- The descriptors of groups and loops with the set of one group replaced: its loops in service go, those of the set come. -/
def withSet (gi : Nat) (d : Bytes) (ls : List (Nat × Bytes)) (c : List Bytes × List Bytes) : List Bytes × List Bytes :=
  (c.1.set gi d, c.2.zipIdx.map fun x =>
    match ls.find? fun y => y.1 == x.2 with
    | some y => y.2
    | none => if loopUsed x.1 && g8 x.1 1 == gi then [] else x.1)

/-- The descriptors in service with every latched commit in place. -/
def committed (s : State) : List Bytes × List Bytes :=
  (List.range 16).foldl (fun c g =>
    match (group s g).commit with
    | some (d, ls) => withSet g d ls c
    | none => c) (s.cad.groups.map (·.desc), s.cad.loops.map (·.desc))

/-- The configuration as it would be with a group's staged set in service beside the commits already latched. -/
def candidate (s : State) (gi : Nat) : CadConfig :=
  let c := withSet gi (nth s.cad.stageGroups gi) (stagedLoops s gi) (committed s)
  { role := s.sys.role, tick := s.cfg.chain.tick, positions := s.cfg.positions, outlets := s.cfg.outlets
    groups := c.1, loops := c.2 }

/-- A group's outlet has a session in energy transfer (R169). -/
def groupInTransfer (s : State) (gi : Nat) : Bool :=
  gSink (group s gi).desc == 1 && gTarget (group s gi).desc != 0x80 && (outIn s (gTarget (group s gi).desc)).session

/-- CAD_COMMIT_GROUP (R169). -/
def execCadCommitGroup (r : Req) (gi : Nat) (s : State) : Res :=
  command { op := 0x0307, own := .cadence, secure := true, states := lcIS, cred := 1 } r (fun s =>
    let v := cadVerdict (candidate s gi)
    checked [(16 ≤ gi, stBadArg), (v != none && v != some stOverBudget, stBadArg),
        (v == some stOverBudget, stOverBudget),
        ((group s gi).g != 0 || groupInTransfer s gi || (group s gi).commit != none, stBusy)] s fun s =>
      let d := nth s.cad.stageGroups gi
      .ok (onGroup gi (fun t => { t with commit := some (d, stagedLoops s gi) }) s)
        (groupDigest d ((stagedLoops s gi).map (·.2)))) s

/-- The loop at an index when a group's committed set takes effect; its sticky flags stay (R146). -/
def committedLoop (gi : Nat) (ls : List (Nat × Bytes)) (l : Loop) (i : Nat) : Loop :=
  match ls.find? fun y => y.1 == i with
  | some y => { loopOf y.2 with flags := l.flags, won := l.won }
  | none => if loopUsed l.desc && l.group == gi then { ({} : Loop) with flags := l.flags, won := l.won } else l

/-- A committed group takes effect at an epoch boundary: its descriptors in service, its loops from X0 at the first
tick (R169). A voltage ceiling that no loop binds any more is dropped (R176); a group Kickstand stays (R164). -/
def applyCommit (gi : Nat) (s : State) : State :=
  match (group s gi).commit with
  | none => s
  | some (d, ls) =>
    let s := { s with cad.loops := s.cad.loops.zipIdx.map fun x => committedLoop gi ls x.1 x.2 }
    let s := onGroup gi (fun t => { t with desc := d, commit := none, restart := true, g := 0 }) s
    let s := { s with cad.groups := s.cad.groups.zipIdx.map fun x => if ceilBound s x.2 then x.1 else { x.1 with vCeil := none } }
    raise evCadCommit (record 0x3301 srcCadence (u8 gi ++ (serviceDigest s gi).take 8) s)

/-- Every committed group takes effect. -/
def applyCommits (s : State) : State := (List.range 16).foldl (fun s g => applyCommit g s) s

end Sys2Proof.Machine
end

