-- ==== Sys2Proof/Machine/Derailleur.lean ====
section
/-!
DEFINITION. The Derailleur's epoch (chapter 05): inputs and their ages, rules, budgets, demand, sharing, buffer
setpoint, grants and stage assignment. Powers are in W inside, in kW where reported; currents in 0.1 A, voltages in
0.1 V.
-/
namespace Sys2Proof.Machine

abbrev evAlcBudgetShort : Nat := 16
abbrev evAlcSiteLimit : Nat := 17
abbrev evAlcFreqResponse : Nat := 18
abbrev evAlcInputStale : Nat := 22
abbrev evAlcLate : Nat := 23

/-- The part runs the Derailleur (R18). -/
def allocates (s : State) : Bool := [1, 3, 4, 5, 6].contains s.sys.role

/-! ### Ages (R110) -/

def feederStale (s : State) : Bool := match s.alc.feederAge with | some a => 10 ≤ a | none => true
def freqStale (s : State) : Bool := match s.alc.freqAge with | some a => 100 ≤ a | none => true
def bufferStale (s : State) : Bool := match s.alc.bufferAge with | some a => 100 ≤ a | none => true
/-- The outlet's request, and with it its thermal ceiling, is stale at the outlet's THERMAL_HOLD. -/
def outletStale (s : State) (n : Nat) : Bool :=
  match (outIn s n).age with
  | some a => outHold (outCfg s n) ≤ a
  | none => true

/-- The inputs that are stale now, by the numbers of the stale list: those that had been received. -/
def staleNow (s : State) : List Nat :=
  (if feederStale s && s.alc.feederAge != none then [0] else []) ++
    (if freqStale s && s.alc.freqAge != none then [1] else []) ++
    (if bufferStale s && s.alc.bufferAge != none then [2] else []) ++
    ((outlets s).filter fun n => outletStale s n && (outIn s n).age != none).map (2 + ·)

/-- The stale list brought up to date, with EV_ALC_INPUT_STALE for a newly stale input. -/
def settleStale (s : State) : State :=
  raiseIf ((staleNow s).any fun i => !s.alc.stale.contains i) evAlcInputStale { s with alc.stale := staleNow s }

/-! ### Rules (R126 to R128) -/

/-- Wall time lies in a rule's window (R128). -/
def ruleInWindow (s : State) (b : Bytes) : Bool :=
  let minute := (s.env.wall % 86400 / 60).toNat
  if ruleStart b = ruleEnd b then true
  else if !s.env.wallGood then false
  else if ruleStart b < ruleEnd b then ruleStart b ≤ minute && minute < ruleEnd b
  else ruleStart b ≤ minute || minute < ruleEnd b

/-- The enabled rules of a kind whose window holds, in index order. -/
def rulesOf (s : State) (kind : Nat) : List Bytes :=
  s.alc.rules.filter fun b => ruleKind b == kind && ruleEnabled b && ruleInWindow s b

/-- The class of the session at an outlet (R110, outlet request CLASS). -/
def sessionClass (s : State) (n : Nat) : Nat :=
  match (outIn s n).cls with
  | some c => c
  | none => if reqClass (outIn s n).req = 255 then outClass (outCfg s n) else reqClass (outIn s n).req

/-- A per-session rule matches outlet, class and direction (R128). -/
def ruleFits (s : State) (n dir : Nat) (b : Bytes) : Bool :=
  bit (ruleOutlets b) (n - 1) && ruleClassMin b ≤ sessionClass s n && sessionClass s n ≤ ruleClassMax b &&
    (ruleDirection b == 0 || ruleDirection b == dir + 1)

/-- The per-session rules of a kind that match an outlet. -/
def rulesFor (s : State) (kind n dir : Nat) : List Bytes := (rulesOf s kind).filter (ruleFits s n dir)

/-- The least of a list of limits; none where there is none. -/
def leastOf (l : List Int) : Option Int := l.foldl (fun m x => some (match m with | some y => min y x | none => x)) none

/-! ### Site budget (R111 to R115) -/

/-- Import and export limits in force, W: contract, host or fallback, SITE_CAP (R111, R112). -/
def importLimit (s : State) : Int :=
  let host : Int := match s.alc.host with | some h => h.1 | none => siteFallbackImport s.cfg.site
  let cap := leastOf ((rulesOf s 5).map fun b => ruleP b 0)
  1000 * min (min (siteImport s.cfg.site : Int) host) (cap.getD 1000000)

def exportLimit (s : State) : Int :=
  let host : Int := match s.alc.host with | some h => h.2.1 | none => siteFallbackExport s.cfg.site
  let cap := leastOf ((rulesOf s 5).map fun b => ruleP b 1)
  1000 * min (min (siteExport s.cfg.site : Int) host) (cap.getD 1000000)

/-- The response magnitude of a FREQ_RESPONSE rule at a deviation, W (R115): droop in kW per Hz times mHz is W. -/
def response (b : Bytes) (dev : Int) : Int := min (1000 * ruleP b 2) (ruleP b 1 * (dev - ruleP b 0))

/-- Under- and over-frequency amounts, W (R115). -/
def freqAmounts (s : State) (freq : Nat) : Int × Int :=
  let df : Int := (freq : Int) - 1000 * s.cfg.site.nominal
  match (rulesOf s 6).head? with
  | none => (0, 0)
  | some b =>
    if df < -(ruleP b 0) && (ruleP b 3).toNat.testBit 0 then (response b (-df), 0)
    else if ruleP b 0 < df && (ruleP b 3).toNat.testBit 1 then (0, response b df)
    else (0, 0)

/-- C_feed, W: the mean of the last 20 epochs' excess in kW (R113). -/
def feederCorrection (s : State) : Int := 50 * (s.alc.excessHist.take 20).sum

/-- SHARE_m in per mille; the whole outside peloton mode (R515). -/
def memberShare (s : State) : Int := if s.sys.role = 6 then ((nth s.cfg.shares s.sys.nodeStrap : Nat) : Int) else 1000

/-- G of the island's own meter, W (R111). -/
def ownBudget (s : State) (sFr : Int) : Int :=
  max (-(exportLimit s)) (importLimit s - sFr - feederCorrection s)

/-- G as the part allocates it, W: a peloton member takes its share of what member 0 gives (R515, R518). -/
def budget (s : State) (sFr : Int) : Int :=
  if s.sys.role = 6 && s.sys.nodeStrap != 0 then
    memberShare s * (if s.plt.gridValid then 1000 * s.plt.g
      else 1000 * min (siteImport s.cfg.site : Int) (siteFallbackImport s.cfg.site)) / 1000
  else memberShare s * ownBudget s sFr / 1000

/-- Measured power of a target from the telemetry of its stages, W (log entry 14). -/
def targetPower (s : State) (target : Nat) : Int :=
  ((feeding s target).map fun i => slI (stage s i).slot * slV (stage s i).slot).sum / 100

/-- Sum of the measured outlet powers, W; on a peloton board of every member's (R515). -/
def outletPower (s : State) : Int :=
  ((outlets s).map fun n => targetPower s n).sum +
    (if s.sys.role = 6 then 1000 * (s.plt.members.zipIdx.map fun m => if m.2 = s.sys.nodeStrap then 0 else m.1.pOut.sum).sum else 0)

/-- P_other, W (R114, R110). -/
def otherPower (s : State) : Int :=
  if s.sys.role = 6 && s.sys.nodeStrap != 0 then
    memberShare s * (if s.plt.gridValid then 1000 * s.plt.pOther else 1000 * s.cfg.site.maxOther) / 1000
  else memberShare s * (if feederStale s then 1000 * (s.cfg.site.maxOther : Int) else 1000 * s.alc.otherHist.foldl max 0) / 1000

/-! ### Buffer (R123) -/

/-- Rating of the buffer converter: RATING of its positions, kW. -/
def bufferRating (s : State) : Nat :=
  (((positions s).filter fun i => posKind (posOf s i) == 2).map fun i => posRating (posOf s i)).sum

/-- The buffer is in allocation: its limits are fresh, the life cycle lets power flow without a command (R91), and its group
is not in the group Kickstand (R164). -/
def bufferServed (s : State) : Bool :=
  !bufferStale s && maySession s && !(match groupOf s 0x80 with | some g => (group s g).kick | none => false)

/-- B_dis and B_chg, W (R123). -/
def bufferLimits (s : State) : Int × Int :=
  if !bufferServed s then (0, 0)
  else match (rulesOf s 7).head? with
    | none => (0, 0)
    | some b =>
      (if (s.stk.soc : Int) ≤ ruleP b 0 then 0 else 1000 * min (min (s.stk.dis : Int) (bufferRating s)) (ruleP b 2),
       if ruleP b 1 ≤ s.stk.soc then 0 else 1000 * min (min (s.stk.chg : Int) (bufferRating s)) (ruleP b 3))

/-! ### Demand (R116) -/

/-- V_i, 0.1 V. -/
def calcVolts (s : State) (n : Nat) : Nat := max (reqVVeh (outIn s n).req) (10 * outVMin (outCfg s n))

/-- A current in 0.1 A times a voltage in 0.1 V, W. -/
def watts (i v : Nat) : Nat := i * v / 100

/-- Stages assigned to an outlet. -/
def stagesOf (s : State) (n : Nat) : List Nat :=
  (positions s).filter fun i => posKind (posOf s i) == 1 && (assignOf s i).dest == n && n != 0

/-- Stages an outlet holds for its aim: those assigned that are present, free of a move fault and not withdrawn, so that a stage
lost is replaced (R134 and step 3 of the chapter's example). -/
def heldBy (s : State) (n : Nat) : List Nat :=
  (stagesOf s n).filter fun i => (stage s i).state == 3 && !(assignOf s i).fault && !(assignOf s i).withdrawn

/-- Counted capacity of an outlet's stages, kW. -/
def stageCapacity (s : State) (n : Nat) : Nat := ((stagesOf s n).map fun i => (assignOf s i).counted).sum

/-- The seven demand terms of R116 in the order listed there, W, with the limiting code of each; none where a term
does not apply. DESIGN CHOICE (log entry 33): of an OUTLET_CAP only the power limit is a demand term; its current limit binds in
I_g (R124). -/
def demandTerms (s : State) (n : Nat) : List (Option Int × Nat) :=
  let q := (outIn s n).req
  let v := calcVolts s n
  [(some (1000 * reqPMax q), 0x01), (some (watts (reqIMax q) v), 0x01),
   (if reqPSched q = 0xFFFF then none else some (1000 * reqPSched q), 0x02), (some (watts (reqITherm q) v), 0x03),
   (some (watts (10 * outCurrent (outCfg s n)) v), 0x0B),
   ((leastOf ((rulesFor s 3 n 0).map fun b => 1000 * ruleP b 0)), 0x05), (some (1000 * stageCapacity s n), 0x04)]

/-- The least of the terms that apply. -/
def leastTerm (l : List (Option Int × Nat)) : Int := (leastOf (l.filterMap (·.1))).getD 0

/-- The lowest code of the terms that bind at a value. -/
def bindingCode (l : List (Option Int × Nat)) (v : Int) : Nat :=
  ((l.filter fun t => t.1 == some v).map (·.2)).foldl min 0x0B

/-- The outlet takes part in allocation: its post there, its group not in the group Kickstand, the part not in Kickstand and in a
life-cycle state that has sessions (R136, R91). -/
def outletIn (s : State) (n : Nat) : Bool :=
  !(outIn s n).lost && !kicked s && maySession s && !(match groupOf s n with | some g => (group s g).kick | none => false)

/-- The direction the outlet asks for (R223). -/
def wantedDir (s : State) (n : Nat) : Nat := if reqMode (outIn s n).req = 5 then 1 else 0

/-- The mode of the outlet's group; the wanted direction where there is none. -/
def groupDir (s : State) (n : Nat) : Nat := match groupOf s n with | some g => (group s g).mode | none => wantedDir s n

/-- D_i, W (R116). -/
def demand (s : State) (n : Nat) : Int :=
  if (outIn s n).session && outletIn s n && !outletStale s n && wantedDir s n == 0 && !(outIn s n).change
  then leastTerm (demandTerms s n) else 0

/-- The terms of an export grant (R118). -/
def exportTerms (s : State) (n : Nat) : List (Option Int × Nat) :=
  let q := (outIn s n).req
  [(some (1000 * reqPDisch q), 0x01), (some (watts (reqITherm q) (calcVolts s n)), 0x03),
   (some (1000 * stageCapacity s n), 0x04),
   (some (match (rulesFor s 9 n 1).head? with | some b => 1000 * ruleP b 0 | none => 0), 0x05)]

/-- The export grant before scaling, W (R118). -/
def exportDemand (s : State) (n : Nat) : Int :=
  if (outIn s n).session && outletIn s n && !outletStale s n && wantedDir s n == 1 && !(outIn s n).change &&
      reqBidir (outIn s n).req
  then leastTerm (exportTerms s n) else 0

/-! ### Sharing (R119 to R122) -/

/-- Sessions in the order of R120: class from 7 down, then earliest start, then outlet number. -/
def sessionBefore (s : State) (a b : Nat) : Bool :=
  sessionClass s b < sessionClass s a ||
    (sessionClass s a == sessionClass s b && ((outIn s a).start < (outIn s b).start || ((outIn s a).start == (outIn s b).start && a ≤ b)))

/-- Insertion into a list ordered by R120. -/
def insertSession (s : State) (n : Nat) : List Nat → List Nat
  | [] => [n]
  | m :: l => if sessionBefore s n m then n :: m :: l else m :: insertSession s n l

/-- The outlets with a demand in the order of R120. -/
def demanding (s : State) : List Nat := ((outlets s).filter fun n => 0 < demand s n).foldr (insertSession s) []

/-- GUARANTEED_MIN of an outlet, W (R127). -/
def guaranteed (s : State) (n : Nat) : Int := match (rulesFor s 2 n 0).head? with | some b => 1000 * ruleP b 0 | none => 0

/-- The weight of a session in hundredths (R127). -/
def weight (s : State) (n : Nat) : Nat :=
  let w := match (rulesFor s 1 n 0).head? with | some b => (ruleP b 0).toNat | none => 1
  match (rulesFor s 8 n 0).head?, (outIn s n).deadline with
  | some b, some d =>
    if s.nv.opSeconds ≤ d && ((d - s.nv.opSeconds : Nat) : Int) < 60 * ruleP b 0 then w * (ruleP b 1).toNat else 100 * w
  | _, _ => 100 * w

/-- The minima served from an amount, in order: outlet, given, whether in full (R120). -/
def serveMinima (s : State) : Int → List Nat → List (Nat × Int × Bool)
  | _, [] => []
  | a, n :: l =>
    let m := min (guaranteed s n) (demand s n)
    if m ≤ a then (n, m, true) :: serveMinima s (a - m) l
    else (n, max 0 a, false) :: (l.map fun k => (k, 0, false))

/-- An outlet is idle for an ARRIVAL_RESERVE: configured, reachable, free of faults, no session in energy transfer (R119). -/
def outletIdle (s : State) (n : Nat) : Bool := outletIn s n && !outletStale s n && !(outIn s n).session

/-- The largest applicable ARRIVAL_RESERVE, W (R119). -/
def reserveWanted (s : State) : Int :=
  ((rulesOf s 4).filter fun b => (outlets s).any fun n => bit (ruleOutlets b) (n - 1) && outletIdle s n).foldl
    (fun m b => max m (1000 * ruleP b 0)) 0

/-- Value of a key in an association list of pairs; 0 where absent. -/
def lookupNat (l : List (Nat × Nat)) (k : Nat) : Nat := match l.find? fun x => x.1 == k with | some x => x.2 | none => 0

/-- What the epoch comes to for the charging sessions: reserve withheld, minima, shares by water-filling. -/
structure Shares where
  reserve : Int
  minima : List (Nat × Int × Bool)
  given : List (Nat × Nat)
deriving Repr

/-- The three steps of R119 on an amount A in W. -/
def shareOut (s : State) (a : Int) : Shares :=
  let minima := serveMinima s (max 0 a) (demanding s)
  let left := max 0 (max 0 a - (minima.map (·.2.1)).sum)
  let reserve := min (reserveWanted s) left
  { reserve := reserve, minima := minima
    given := waterFill 13 ⟨(left - reserve).toNat, 1⟩ ((demanding s).filterMap fun n =>
      match minima.find? fun m => m.1 == n with
      | some m => if 0 < demand s n - m.2.1 && m.2.2 then
          some { id := n, weight := weight s n, cap := ⟨(demand s n - m.2.1).toNat, 1⟩ } else none
      | none => none) }

/-- I_g, 0.1 A (R124). -/
def currentCeil (s : State) (n p : Nat) (export_ : Bool) : Nat :=
  let q := (outIn s n).req
  let caps := (rulesFor s 3 n (if export_ then 1 else 0)).map fun b => 10 * ruleP b 1
  let l := [reqIMax q, reqITherm q, 10 * outCurrent (outCfg s n), p * 100000 / max 1 (calcVolts s n)] ++
    ((leastOf caps).map Int.toNat).toList
  l.foldl min 65535

/-- The parts of a grant that do not depend on its size. -/
def grantBase (s : State) (n : Nat) : Grant :=
  let q := (outIn s n).req
  { cls := sessionClass s n, stages := (stagesOf s n).length, dir := wantedDir s n
    iTarget := if outletStale s n then 0 else reqITarget q
    vMax := if outletStale s n then 0 else reqVMax q
    iTherm := if outletStale s n then 0 else reqITherm q }

/-- The highest grant of an epoch, kW: RAMP_UP above the grant in force, or above 0 in a new direction (R122). -/
def rampTop (s : State) (n dir : Nat) : Nat :=
  (if (nth s.alc.grants (n - 1)).dir = dir then (nth s.alc.grants (n - 1)).p else 0) + outRampUp (outCfg s n)

/-- An export grant: the amount in W, and the grant in kW after rounding and the ramp limit (R118, R121, R122). -/
def exportGrant (s : State) (n w : Nat) : Nat := min (w / 1000) (rampTop s n 1)

/-- The grant of one outlet from the shares (R120 to R125). -/
def grantFrom (s : State) (sh : Shares) (exports : List (Nat × Nat)) (n : Nat) : Grant :=
  let b := grantBase s n
  if !outletIn s n then { b with state := 6 }
  else if outletStale s n then { b with state := if (outIn s n).session then 2 else 1, limit := 0x0A }
  else if !(outIn s n).session then { b with state := 1 }
  else if (outIn s n).change then { b with state := 5 }
  else if wantedDir s n = 1 && exportDemand s n ≤ 0 then
    { b with state := 2, limit := bindingCode (exportTerms s n) (leastTerm (exportTerms s n)) }
  else if wantedDir s n = 1 then
    let w := lookupNat exports n
    let p := exportGrant s n w
    { b with
      state := 4, p := p, i := currentCeil s n p true
      limit := if p < w / 1000 then 0x09
        else if (w : Int) < exportDemand s n then 0x06
        else bindingCode (exportTerms s n) (exportDemand s n) }
  else
    let d := demand s n
    if d ≤ 0 then { b with state := 2, limit := bindingCode (demandTerms s n) (leastTerm (demandTerms s n)) }
    else
      let m := (sh.minima.find? fun m => m.1 == n).getD (n, 0, true)
      let give := lookupNat sh.given n
      let want := ((m.2.1 + give) / 1000).toNat
      let p := min want (rampTop s n 0)
      let limit := if p < want then 0x09
        else if !m.2.2 then 0x08
        else if m.2.1 + give = d then bindingCode (demandTerms s n) d
        else if give = 0 then 0x07 else 0x06
      { b with state := 3, p := p, i := currentCeil s n p false, limit := limit }

/-! ### The computation of an epoch -/

/-- Direction changes at the latch (R118): a direction other than the group's mode is granted 0 until the hold is
complete; a return before then is granted 0 once in the former direction. -/
def latchDirection (s : State) (n : Nat) : State :=
  onOut n (fun o => { o with
    dir := wantedDir s n
    change := if !o.session then false else if wantedDir s n = groupDir s n then o.change && o.dir != groupDir s n
      else true }) s

/-- The Derailleur's outputs of the epoch, from the inputs latched (R111 to R125). -/
def computeEpoch (s : State) : State :=
  let s := (outlets s).foldl latchDirection s
  let fr := if freqStale s then (s.alc.sFr, s.alc.sOver) else freqAmounts s s.alc.freq
  let g := budget s fr.1
  let other := otherPower s
  let bl := bufferLimits s
  let bDis := memberShare s * bl.1 / 1000
  let wanted := (outlets s).map fun n => (n, exportDemand s n)
  let total := (wanted.map (·.2)).sum
  let room := max 0 (min (exportLimit s + other) total - fr.2)
  let exports := wanted.map fun x => (x.1, if total ≤ 0 then 0 else (x.2 * room / total).toNat)
  let x : Int := ((exports.map fun y => 1000 * exportGrant s y.1 y.2).sum : Nat)
  let rest := max 0 (fr.2 - min (exportLimit s + other) total)
  let bDis := max 0 (bDis - rest)
  let a := g - other + bDis + x
  let sh := shareOut s a
  let q := outletPower s + other - g
  let buffer := if 0 < q then max 0 (min q bl.1 - rest)
    else -(min bl.2 (max 0 (-q - sh.reserve)))
  let short := sh.minima.any fun m => !m.2.2
  let active := fr.1 != 0 || fr.2 != 0
  let s := raiseIf (short && !s.alc.short) evAlcBudgetShort s
  let s := if active != s.alc.response then
      raise evAlcFreqResponse (record 0x4202 srcA0 (i32 ((s.alc.freq : Int) - 1000 * s.cfg.site.nominal) ++ i32 (fr.1 / 1000)) s)
    else s
  { s with
    alc.next := (List.range 12).map fun i => if (outlets s).contains (i + 1) then grantFrom s sh exports (i + 1) else {}
    alc.g := g / 1000, alc.pOther := other / 1000, alc.a := max 0 a / 1000, alc.reserve := sh.reserve / 1000
    alc.buffer := if kicked s then 0 else Int.tdiv buffer 1000, alc.sFr := fr.1, alc.sOver := fr.2
    alc.short := short, alc.response := active
    alc.bufferIn := bufferServed s && !(rulesOf s 7).isEmpty }

/-! ### Stage assignment (R131 to R136) -/

/-- The largest RATING of the configured converter stages; 625 where none is configured (log entry 14). -/
def stageRating (s : State) : Nat :=
  let m := (((positions s).filter fun i => posKind (posOf s i) == 1).map fun i => posRating (posOf s i)).foldl max 0
  if m = 0 then 625 else m

/-- The number of stages an outlet should hold (R134). -/
def aim (s : State) (n : Nat) : Nat :=
  if !((outIn s n).session && outletIn s n) then 0
  else
    let d := leastTerm ((demandTerms s n).dropLast)
    let w := min d (1000 * ((nth s.alc.grants (n - 1)).p + stageHeadroom s.cfg.site s.cfg.positions : Nat))
    max 1 ((w.toNat + 1000 * stageRating s - 1) / (1000 * stageRating s))

/-- A stage may start a matrix operation: present, no fault, none under way and none started in the last 2 s (R131, R133). -/
def movable (s : State) (i : Nat) : Bool :=
  let a := assignOf s i
  (stage s i).state == 3 && !a.fault && a.phase == .idle &&
    match a.lastOp with
    | some e => e + 2000 ≤ s.alc.epoch
    | none => true

/-- Parked stages in reach of an outlet, ascending (R134). -/
def parkedFor (s : State) (n : Nat) : List Nat :=
  (positions s).filter fun i => posKind (posOf s i) == 1 && bit (posReach (posOf s i)) (n - 1) && movable s i &&
    !(assignOf s i).withdrawn && (assignOf s i).admitted && (assignOf s i).dest == 0 && (assignOf s i).at_ == 0

/-- A stage starts its move to an outlet, or to the parked position 0: a parked stage waits for a switching window to close, one
at an outlet first brings its current to zero; either way its counted capacity is 0 (R132). -/
def startMove (i dest : Nat) (s : State) : State :=
  if movable s i && (assignOf s i).at_ != dest then
    onAssign i (fun a => { a with
      dest := dest, phase := if a.at_ = 0 then .closeDue else .zero, counted := 0, zeroRun := 0 }) s
  else s

/-- The stages of an outlet that exceed its aim, lowest counted capacity first (R134). -/
def surplus (s : State) (n : Nat) : List Nat :=
  let l := (heldBy s n).foldr (fun i acc =>
    let (lo, hi) := acc.partition fun j => (assignOf s j).counted < (assignOf s i).counted
    lo ++ i :: hi) []
  l.take (l.length - aim s n)

/-- Where a released stage goes: to the parked position, or straight to the first outlet in the order of R120 that is in its reach,
is short of its aim and has no eligible parked stage (R134; the straight move is a DESIGN CHOICE, log entry 33). -/
def releaseTo (s : State) (n i : Nat) : Nat :=
  (((outlets s).foldr (insertSession s) []).find? fun m =>
    m != n && bit (posReach (posOf s i)) (m - 1) && (heldBy s m).length < aim s m && (parkedFor s m).isEmpty).getD 0

/-- The surplus of an outlet is released. -/
def release (n : Nat) (s : State) : State := (surplus s n).foldl (fun s i => startMove i (releaseTo s n i) s) s

/-- The release delay of an outlet has passed (R134). -/
def releaseDue (s : State) (n : Nat) : Bool :=
  match (outIn s n).surplusEp with
  | some e => 1000 * s.cfg.site.releaseDelay ≤ e
  | none => false

/-- Assignment of one outlet (R134). -/
def assignOutlet (s : State) (n : Nat) : State :=
  let held := (heldBy s n).length
  if aim s n = 0 then release n (onOut n (fun o => { o with surplusEp := none }) s)
  else if held ≤ aim s n then
    ((parkedFor s n).take (aim s n - held)).foldl (fun s i => startMove i n s) (onOut n (fun o => { o with surplusEp := none }) s)
  else
    let s := onOut n (fun o => { o with surplusEp := some (o.surplusEp.getD 0 + 1) }) s
    if releaseDue s n then release n s else s

/-- Admission and counted capacity of one ring position at a boundary (R135). -/
def countStage (s : State) (i : Nat) : State :=
  let e := posOf s i
  let a := assignOf s i
  let t := stage s i
  let admitted := a.ready && t.state == 3 && 3 ≤ t.clean && !a.withdrawn && !a.fault
  let top := if bit (g8 t.slot 8) 2 then posRating e * g8 t.slot 9 / 100 else posRating e
  let inUse := (a.admitted || admitted) && t.state == 3 && !a.withdrawn && !a.fault &&
    (posKind e == 2 || (a.at_ != 0 && a.dest == a.at_ && a.phase == .idle))
  raiseIf admitted evAlcStageAdmitted (onAssign i (fun a => { a with
    admitted := a.admitted || admitted, ready := a.ready && !admitted
    counted := if inUse then min top (a.counted + posRamp e) else 0 }) s)

/-- The assignment changes of an epoch that take effect at the boundary that ends it (R31, R132). -/
def applyPlan (s : State) : State := s.alc.plan.foldl (fun s m => startMove m.1 m.2 s) { s with alc.plan := [] }

/-- Assignment changes are decided in an epoch and do not yet take effect: the plan holds what `f` would start beside the changes
planned already (R31, R107). -/
def planned (f : State → State) (s : State) : State :=
  let t := f (applyPlan s)
  { s with
    alc.out := t.alc.out
    alc.plan := (positions s).filterMap fun i =>
      if (assignOf t i).phase != (assignOf s i).phase then some (i, (assignOf t i).dest) else none }

/-- The assignment of an epoch: withdrawn stages parked, outlets served by class and start (R134 to R136). -/
def assignStages (s : State) : State :=
  let s := (positions s).foldl (fun s i => if (assignOf s i).withdrawn then startMove i 0 s else s) s
  ((outlets s).foldr (insertSession s) []).foldl assignOutlet s

/-- The assignment decisions of the epoch that begins; none in part-wide Kickstand (R136). -/
def planStages (s : State) : State := if kicked s then { s with alc.plan := [] } else planned assignStages s

/-! ### The boundary -/

/-- Inputs latched at a boundary (R107, R110, R113, R114). DESIGN CHOICE (log entry 33): an epoch without a fresh feeder value
leaves the histories of the last 20 and 100 epochs as they are. -/
def latchInputs (s : State) : State :=
  let fresh := (List.range 2).all fun k => !(pointOn s k) || (nth s.mtr.feederKw k) != none
  let fitted := (List.range 2).any fun k => pointOn s k
  let p := s.mtr.feederKw.map fun x => x.getD 0
  let grid := p.sum
  let other := max 0 (1000 * grid - outletPower s - targetPower s 0x80) / 1000
  let excess := ((List.range 2).map fun k => max 0 ((nth p k) - (siteFeeder s.cfg.site k : Nat))).sum
  { s with
    alc.feeders := if fresh && fitted then p else s.alc.feeders
    alc.feederAge := if fresh && fitted then some 0 else s.alc.feederAge
    alc.otherHist := if fresh && fitted then (other :: s.alc.otherHist).take 100 else s.alc.otherHist
    alc.excessHist := if fresh && fitted then (excess :: s.alc.excessHist).take 20 else s.alc.excessHist
    alc.freq := s.mtr.freqMilli.getD s.alc.freq
    alc.freqAge := if s.mtr.freqMilli != none then some 0 else s.alc.freqAge
    mtr.freqMilli := none
    alc.bufferAge := if s.stk.fresh then some 0 else s.alc.bufferAge
    stk.fresh := false }

/-- Ages after the boundary (R110). -/
def ageInputs (s : State) : State :=
  { s with
    alc.feederAge := s.alc.feederAge.map (· + 1)
    alc.freqAge := s.alc.freqAge.map (· + 1)
    alc.bufferAge := s.alc.bufferAge.map (· + 1)
    alc.out := s.alc.out.map fun o => { o with age := o.age.map (· + 1) } }

/-- The end of a validity (R112): the fallback limits are in force. -/
def expireHost (s : State) : State :=
  match s.alc.host with
  | some h => if h.2.2 ≤ s.alc.epoch then raise evAlcSiteLimit { s with alc.host := none } else s
  | none => s

/-- The host limits at a boundary: those accepted are latched, those run out end (R112). -/
def latchHost (s : State) : State :=
  expireHost (match s.alc.hostNew with
    | none => s
    | some (i, e, v) =>
      if v = 0 then raiseIf (s.alc.host != none) evAlcSiteLimit { s with alc.host := none, alc.hostNew := none }
      else { s with alc.host := some (i, e, s.alc.epoch + 1000 * v), alc.hostNew := none })

/-- Zero ceilings and buffer setpoint (R109, R136). -/
def zeroCeilings (s : State) : State :=
  { s with alc.grants := s.alc.grants.map fun g => { g with p := 0, i := 0 }, alc.bufferOut := 0 }

/-- The outputs of the epoch that ends are launched, or the previous ones repeated, without a new operation (R31, R109). DESIGN
CHOICE (log entry 33): record 0x4201 of a run carries the epoch count already advanced at the boundary that ends the late epoch. -/
def launchEpoch (written : Bool) (s : State) : State :=
  let s := if written then
      let s := { s with alc.grants := s.alc.next, alc.bufferOut := s.alc.buffer, alc.lateRun := 0 }
      if kicked s then { s with alc.plan := [] } else applyPlan s
    else
      let s := setLate lateAlc (raise evAlcLate
        { s with alc.plan := [], alc.late := (s.alc.late + 1) % 2 ^ 32, alc.lateRun := s.alc.lateRun + 1 })
      let s := recordIf (s.alc.lateRun = 1) 0x4201 srcA0 (u64 s.alc.epoch) s
      if 10 ≤ s.alc.lateRun then zeroCeilings s else s
  if kicked s then zeroCeilings s else s

/-- The hold reports of the Cadence engine, latched (R159). -/
def latchHolds (s : State) : State := { s with cad.groups := s.cad.groups.map fun t => { t with holdDone := false } }

/-- The Derailleur's part of an epoch boundary (R107). -/
def deraillBoundary (written : Bool) (s : State) : State :=
  let s := launchEpoch written s
  let s := match s.alc.commit with
    | some t => { s with alc.rules := t, alc.commit := none }
    | none => s
  let s := settleStale (latchInputs (latchHost s))
  let s := computeEpoch ((positions s).foldl countStage s)
  ageInputs (latchHolds (planStages s))

/-! ### Requests from the outlets -/

/-- An outlet request reaches the Derailleur (R110, R117, R120, R223). -/
def deliverRequest (b : Bytes) (s : State) : State :=
  let n := reqOutlet b
  if !(allocates s && (outEntry s.cfg.outlets n).isSome) then s
  else
    let session := 1 ≤ reqMode b && reqMode b ≤ 5
    onOut n (fun o => { o with
      req := b, age := some 0, session := session
      start := if session && !o.session then s.alc.epoch else o.start
      cls := if session && o.session then o.cls else none
      deadline := if reqDepart b = 0xFFFFFFFF then none
        else if o.deadline != none && o.session && reqDepart o.req == reqDepart b then o.deadline
        else some (s.nv.opSeconds + reqDepart b) }) s

end Sys2Proof.Machine
end

