-- ==== Sys2Proof/Machine/AlcCmd.lean ====
section
/-!
DEFINITION. The Derailleur commands (R137, R138), the check of a rule table (R129) and the epoch-class cost (R42, R108,
R496), and the Derailleur steps that have no command.
-/
namespace Sys2Proof.Machine

/-! ### Checks -/

/-- Reserved fields of a rule, and of FLAGS and OUTLETS, are 0 (R126). -/
def ruleReserved (b : Bytes) : Bool :=
  g8 b 1 < 8 && g16 b 2 < 4096 && g16 b 10 == 0 && g32 b 28 == 0

/-- A rule passes the check of R129; `outs` are the outlets configured. -/
def ruleOk (outs : List Nat) (b : Bytes) : Bool :=
  if ruleKind b = 0 then allZero b
  else ruleKind b ≤ 9 && ruleReserved b && ruleDirection b < 3 && ruleClassMin b ≤ ruleClassMax b && ruleClassMax b ≤ 7 &&
    ((maskList (ruleOutlets b) 12).all fun i => outs.contains (i + 1)) && ruleStart b ≤ 1439 && ruleEnd b ≤ 1439 &&
    (ruleKind b != 1 || (1 ≤ ruleP b 0 && ruleP b 0 ≤ 1000)) && (ruleKind b != 8 || (100 ≤ ruleP b 1 && ruleP b 1 ≤ 1000))

/-- Every rule of a table passes (R129). -/
def ruleTableOk (outs : List Nat) (l : List Bytes) : Bool := l.all (ruleOk outs)

/-- A table of 256 rules of 32 bytes, unused where the list ends. -/
def ruleTable (l : List Bytes) : List Bytes := (List.range 256).map fun i => slice (nth l i) 0 32

/-- Cost of the Derailleur in issue cycles per epoch (R108). -/
def derailCost (outs positions rules : Nat) (buffer : Bool) : Nat :=
  40000 + 12000 * outs + 2000 * positions + 1400 * rules + (if buffer then 30000 else 0)

/-- Cost of the recorder commit in issue cycles per epoch (R496). -/
def recorderCost (rateMax : Nat) : Nat := 32000 + 4000 * rateMax

/-- Epoch-class load of a configuration image with a rule table (R42, R108, R496). -/
def epochCost (c : ConfigImage) (rules : List Bytes) : Nat :=
  (if [1, 3, 4, 5, 6].contains c.role then
    derailCost c.outlets.length (c.positions.filter fun e => posKind e != 0).length
      (rules.filter fun b => ruleKind b != 0 && ruleEnabled b).length (c.positions.any fun e => posKind e == 2) else 0) +
    recorderCost c.rateMax + c.otherEpochCycles

/-- 40 % of the guaranteed 1,600,000 cycles of four cores in 1 ms (R42). -/
abbrev epochBudget : Nat := 640000

/-! ### Commands -/

/-- FLAGS of ALC_GET_STATUS. -/
def alcFlags (s : State) : Nat :=
  (if s.alc.short then 1 else 0) + (if s.alc.host != none then 2 else 0) + (if s.alc.response then 4 else 0) +
    (if s.alc.bufferIn then 8 else 0)

/-- ALC_GET_STATUS. -/
def execAlcGetStatus (r : Req) (s : State) : Res :=
  command { op := 0x0201, own := .hub, reads := true } r (fun s =>
    .ok s (u64 s.alc.epoch ++ i32 s.alc.g ++ i32 s.alc.pOther ++ i32 s.alc.a ++ i32 s.alc.reserve ++ i32 s.alc.buffer ++
      i32 (s.alc.sFr / 1000) ++ u32 s.alc.freq ++ u32 s.alc.late ++ u32 (alcFlags s))) s

/-- The rules of a payload: 32 bytes each. -/
def rulesIn (count : Nat) (b : Bytes) : List Bytes := (List.range count).map fun i => slice b (32 * i) 32

/-- ALC_SET_RULES (R129, R138). -/
def execAlcSetRules (r : Req) (first count : Nat) (rules : Bytes) (s : State) : Res :=
  command { op := 0x0202, own := .hub, secure := true, states := lcIFS, cred := 1, fits := rules.length == 32 * count } r (fun s =>
    checked [(count = 0 || 64 < count || 256 < first + count, stBadArg),
        (s.alc.commit != none, stBusy)] s fun s =>
      let t := ruleTable s.alc.staging
      .ok { s with alc.staging := t.take first ++ rulesIn count rules ++ t.drop (first + count) }) s

/-- ALC_GET_RULES. -/
def execAlcGetRules (r : Req) (table first count : Nat) (s : State) : Res :=
  command { op := 0x0203, own := .hub, reads := true } r (fun s =>
    checked [(2 ≤ table || count = 0 || 64 < count || 256 < first + count, stBadArg)] s fun s =>
      .ok s (((ruleTable (if table = 0 then s.alc.rules else s.alc.staging)).drop first).take count).flatten) s

/-- The digest of a rule table. -/
def ruleDigest (l : List Bytes) : Bytes := digest32 (ruleTable l).flatten

/-- First 8 bytes of the digest of the public key of the credential a request carries. -/
def credDigest (s : State) (r : Req) : Bytes :=
  match credOf s r with
  | some c => (digest32 (publicOf s c.slot)).take 8
  | none => List.replicate 8 0

/-- ALC_COMMIT_RULES (R129, R138, R542). -/
def execAlcCommitRules (r : Req) (s : State) : Res :=
  command { op := 0x0204, own := .hub, secure := true, states := lcIFS, cred := 1 } r (fun s =>
    checked [(!ruleTableOk (outlets s) (ruleTable s.alc.staging), stBadArg),
        (epochBudget < epochCost s.cfg (ruleTable s.alc.staging), stOverBudget), (s.alc.commit != none, stBusy)] s fun s =>
      .ok (record 0x3201 srcA0 ((ruleDigest s.alc.staging).take 8 ++ credDigest s r)
        { s with alc.commit := some (ruleTable s.alc.staging) }) (ruleDigest s.alc.staging)) s

/-- ALC_SET_SITE_LIMITS (R112): latched at the next boundary (R107). -/
def execAlcSetSiteLimits (r : Req) (imp exp : Int) (validity : Nat) (s : State) : Res :=
  command { op := 0x0205, own := .hub, secure := true, states := lcIFS, cred := 1 } r (fun s =>
    checked [(3600 < validity, stBadArg)] s fun s => .ok { s with alc.hostNew := some (imp, exp, validity) }) s

/-- ALC_SET_SESSION_CLASS (R138). -/
def execAlcSetSessionClass (r : Req) (outlet cls : Nat) (s : State) : Res :=
  command { op := 0x0206, own := .hub, secure := true, states := lcIF, cred := 1 } r (fun s =>
    checked [(outlet = 0 || 12 < outlet || !(outIn s outlet).session || 7 < cls, stBadArg)] s fun s =>
      .ok (onOut outlet (fun o => { o with cls := some cls }) s)) s

/-- The grant record of an outlet (R125). -/
def grantRecord (n : Nat) (g : Grant) : Bytes :=
  u8 n ++ u8 g.state ++ u8 g.limit ++ u8 g.cls ++ u32 g.p ++ u32 g.i ++ u8 g.stages ++ [0, 0, 0]

/-- ALC_GET_GRANTS (R125). -/
def execAlcGetGrants (r : Req) (s : State) : Res :=
  command { op := 0x0207, own := .hub, reads := true } r (fun s =>
    .ok s (u8 (outlets s).length ++ (outlets s).flatMap fun n => grantRecord n (nth s.alc.grants (n - 1)))) s

/-- A demand term in kW; 0xFFFF_FFFF where it does not apply. -/
def termBytes (t : Option Int) : Bytes :=
  match t with
  | some w => u32 (w / 1000).toNat
  | none => u32 0xFFFFFFFF

/-- An age in whole epochs as a field of 16 bits in ms (R541). -/
def ageBytes (a : Option Nat) : Bytes :=
  match a with
  | some n => u16 (age16 n)
  | none => u16 0xFFFF

/-- ALC_GET_INPUTS. -/
def execAlcGetInputs (r : Req) (outlet : Nat) (s : State) : Res :=
  command { op := 0x0208, own := .hub, reads := true } r (fun s =>
    checked [(!(outlets s).contains outlet, stBadArg)] s fun s =>
      .ok s (((demandTerms s outlet).flatMap fun t => termBytes t.1) ++ u64 ((outIn s outlet).deadline.getD 0) ++
        ageBytes s.alc.feederAge ++ ageBytes s.alc.freqAge ++ ageBytes s.alc.bufferAge ++ ageBytes (outIn s outlet).age ++
        ageBytes (outIn s outlet).age)) s

/-- Matrix state byte of ALC_GET_ASSIGNMENT. -/
def matrixByte (a : Assign) : Nat := if a.fault then 0xFF else if a.phase != .idle then 0xFE else a.at_

/-- Seconds since the last matrix operation, in 16 bits (R541). -/
def sinceOp (s : State) (a : Assign) : Bytes := ageBytes (a.lastOp.map fun e => (s.alc.epoch - e) / 1000)

/-- ALC_GET_ASSIGNMENT. -/
def execAlcGetAssignment (r : Req) (s : State) : Res :=
  command { op := 0x0209, own := .hub, reads := true } r (fun s =>
    .ok s ((positions s).flatMap fun i =>
      let a := assignOf s i
      u8 (posByte i) ++ u8 (matrixByte a) ++ u16 a.counted ++ sinceOp s a)) s

/-- ALC_SET_STAGE_SERVICE (R133, R135). -/
def execAlcSetStageService (r : Req) (position action : Nat) (s : State) : Res :=
  command { op := 0x020A, own := .hub, secure := true, states := lcIFS, cred := 1 } r (fun s =>
    let i := posIndex position
    checked [(!posOk position || !(positions s).contains i || 2 ≤ action, stBadArg),
        ((assignOf s i).phase != .idle, stBusy)] s fun s =>
      .ok (if action = 0 then onAssign i (fun a => { a with withdrawn := true, admitted := false, ready := false }) s
        else onAssign i (fun a => { a with
          withdrawn := false, fault := false, admitted := false, ready := true, counted := 0, dest := a.at_ }) s)) s

/-! ### Steps -/

/-- ALC_LATE_ZERO_CEILINGS (R109). -/
def execAlcLateZeroCeilings (s : State) : Res := .next (if 10 ≤ s.alc.lateRun then zeroCeilings s else s)

/-- ALC_INPUT_STALE (R110): every input that has reached its limit takes its stale treatment. -/
def execAlcInputStale (_input _outlet : Nat) (s : State) : Res := .next (settleStale s)

/-- ALC_SITE_LIMIT_EXPIRY (R112). -/
def execAlcSiteLimitExpiry (s : State) : Res := .next (expireHost s)

/-- STAGE_RELEASE_DELAY (R134): the release is decided, and takes effect at the boundary that ends the epoch (R31). -/
def execStageReleaseDelay (outlet : Nat) (s : State) : Res :=
  .next (if releaseDue s outlet && !kicked s then planned (release outlet) s else s)

end Sys2Proof.Machine
end

