-- ==== Sys2Proof/Machine/KeyCore.lean ====
section
/-!
DEFINITION. Key slots as an engine or the host invokes them (R463 to R466).
-/
namespace Sys2Proof.Machine

abbrev useDerive : Nat := 0x01
abbrev useMeter : Nat := 0x08
abbrev useTls : Nat := 0x09
abbrev useNetwork : Nat := 0x0D

/-- Bits of MASTERS above the host channels 0 to 3. -/
abbrev byApplication : Nat := 4
abbrev bySafety : Nat := 5
abbrev byMetrology : Nat := 6
abbrev byKeyEngine : Nat := 7

/-- FLAGS.EXPORTABLE and FLAGS.DERIVED of a slot copy. -/
def keyExportable (k : KeyCopy) : Bool := bit k.flags 0
def keyDerived (k : KeyCopy) : Bool := bit k.flags 2

/-- Every ancestor of a key, up to the root of derivation, is valid and of the epoch its child recorded (R466, check 2);
a chain holds at most four generations below its root (R467). -/
def ancestorsOk (s : State) : Nat → KeyCopy → Bool
  | 0, k => !keyDerived k
  | n + 1, k => !keyDerived k || match winner s k.parent with
    | some p => p.state == 1 && p.epoch == k.parentEpoch && ancestorsOk s n p
    | none => false

/-- Generations of a key below its root, counted as far as `n`. -/
def generations (s : State) : Nat → KeyCopy → Nat
  | 0, _ => 0
  | n + 1, k => if keyDerived k then 1 + (match winner s k.parent with | some p => generations s n p | none => 0) else 0

/-- The checks on invocation in order (R466): the status of the first that fails. `permits` is whether USAGE and ALG permit
the operation, `caller` the bit of MASTERS, `secure` whether the caller is in the secure world. -/
def invocation (s : State) (slot : Nat) (permits : KeyCopy → Bool) (caller : Nat) (secure : Bool) : Option Nat :=
  match winner s slot with
  | none => some stKeyBadSlot
  | some k =>
    if k.state != 1 then some stKeyBadSlot
    else if !ancestorsOk s 5 k then some stKeyParentRevoked
    else if !permits k || !bit k.masters caller || (k.world == 1 && !secure) || !bit k.lifecycles (lifecycle s) then
      some stKeyAttr
    else none

/-- An engine may use slot `n`: every check on its invocation passes (R466). -/
def mayInvoke (s : State) (n : Nat) (permits : KeyCopy → Bool) (caller : Nat) : Bool :=
  (invocation s n permits caller true).isNone

/-- The public keys of the slots of a usage that the application cores may use, against which a certificate or a raw public key
verifies: a certificate slot's key is that of its certificate (table of algorithms, R466, R472). -/
def anchors (s : State) (usage : Nat) : List Bytes :=
  (List.range 256).filterMap fun n => match winner s n with
    | some k => if mayInvoke s n (fun k => k.usage == usage) byApplication then
        some (if k.alg = 0x30 then Config.certKey k.material else keyPublic k) else none
    | none => none

/-- A certificate is signed by one of the anchors. -/
def anchored (keys : List Bytes) (c : Cert) : Bool := keys.any fun k => sigOk c.sig k c.raw

/-- A certificate chain, leaf first, each signed by the next and the last by an anchor. -/
def chainSigned (keys : List Bytes) : List Cert → Bool
  | [] => false
  | [c] => anchored keys c
  | c :: d :: rest => sigOk c.sig d.key c.raw && chainSigned keys (d :: rest)

/-- The wall time lies within the validity dates of every certificate of a chain. -/
def datesHold (s : State) (chain : List Cert) : Bool :=
  chain.all fun c => decide (c.notBefore ≤ s.env.wall) && decide (s.env.wall ≤ c.notAfter)

/-- A Plug & Charge chain verifies (R227, R472): at most four certificates below a V2G trust anchor, their dates checked while
the wall-time quality is good. -/
def contractVerified (s : State) (chain : List Cert) : Bool :=
  chain.length ≤ 4 && chainSigned (anchors s 0x0C) chain && (!s.env.wallGood || datesHold s chain)

/-- The operations of the table of algorithms that sign. -/
def algSigns (alg : Nat) : Bool := [0x10, 0x11, 0x12, 0x13, 0x20].contains alg

end Sys2Proof.Machine
end

