-- ==== Sys2Proof/Machine/Links.lean ====
section
/-!
DEFINITION. Vehicle links (chapter 08): pilot and charge-enable states, proximity and insertion detect, SLAC, the
10BASE-T1S and bridged data links, and the OUT_ link commands. Codes of states and classes: log entry 11.
-/
namespace Sys2Proof.Machine

/-- EV_OUT_PILOT_A; B and C follow. -/
abbrev evOutPilot : Nat := 40
abbrev evOutProximity : Nat := 43
abbrev evOutSlac : Nat := 44
abbrev evOutLink : Nat := 45
abbrev evOutLinkFault : Nat := 46
abbrev evOutBridge : Nat := 47

abbrev lkCcs : Nat := 1
abbrev lkMcs : Nat := 2
abbrev lkBridged : Nat := 3

/-- Drive states of the pilot (R195, OUT_GET_LINK). -/
abbrev driveX1 : Nat := 0
abbrev driveX2 : Nat := 1
abbrev driveF : Nat := 2
abbrev driveOff : Nat := 3

/-- Link type of a local slot. -/
def linkType (s : State) (slot : Nat) : Nat := if localSlot s slot then lkType (linkCfg s slot) else 0

/-- FILTER of a local slot (R200). -/
def linkFilter (s : State) (slot : Nat) : Nat := max 3 (lkFilter (linkCfg s slot))

/-! ### Pilot bands (R198, R199, R203) -/

/-- Pilot states: 0 to 4 are A to E, 6 invalid high, 8 invalid low, 9 diode fault, 7 not driven. -/
def pilotBand (vPlus : Int) : Nat :=
  if 1350 ≤ vPlus then 6
  else if 1050 ≤ vPlus then 0
  else if 750 ≤ vPlus then 1
  else if 450 ≤ vPlus then 2
  else if 150 ≤ vPlus then 3
  else if -150 ≤ vPlus then 4
  else 8

/-- The raw state of a CCS or bridged period in X1 or X2 (R198, R199), voltages in 10 mV. -/
def pilotRaw (drive : Nat) (vPlus vMinus : Int) : Nat :=
  let b := pilotBand vPlus
  if drive = driveX2 && 1 ≤ b && b ≤ 3 && !(-1350 ≤ vMinus && vMinus < -1050) then 9 else b

/-- The charge-enable class of a line voltage in 10 mV (R203): 0 short, 1 enabled, 2 invalid, 3 not enabled, 4 open. -/
def enableClass (e : Bytes) (v : Int) : Nat :=
  if v < lkC e 0 then 0 else if v < lkC e 1 then 1 else if v < lkC e 2 then 2 else if v < lkC e 3 then 3 else 4

/-- The class of a proximity resistance or insertion-detect voltage (R201): 0 short, 1 connected and latched,
2 connected with the latch released, 3 not connected, 4 open. -/
def proxClass (e : Bytes) (v : Nat) : Nat :=
  if v < lkE e 0 then 0 else if v < lkE e 1 then 1 else if v < lkE e 2 then 2 else if v < lkE e 3 then 3 else 4

/-- R_PP in ohm from the voltage at PILn_PPS in mV: a pull-up of 330 ohm to 5.0 V, read through a 1/2 divider; 65,535 for an
open line (R201). -/
def proxOhms (pps : Nat) : Nat := if 5000 ≤ 2 * pps then 65535 else min 65535 (330 * (2 * pps) / (5000 - 2 * pps))

/-- V_ID in 10 mV from the voltage at PILn_PPS in mV, read through a 1/6 divider (R201). -/
def insertVolts (pps : Nat) : Nat := min 65535 (6 * pps / 10)

/-- The proximity resistance or insertion-detect voltage of an outlet (R201). -/
def proxValueOf (type pps : Nat) : Nat := if type = lkMcs then insertVolts pps else proxOhms pps

/-- A confirmed state that is a link fault (R200, R203, R205): a diode fault or an invalid state. -/
def pilotFault (type v : Nat) : Bool := if type = lkMcs then v == 0 || v == 2 || v == 4 else v == 6 || v == 8 || v == 9

/-- The confirmed state shows a vehicle (R202): B, C or D, or enabled. -/
def showsVehicle (type v : Nat) : Bool := if type = lkMcs then v == 1 else 1 ≤ v && v ≤ 3

/-- The vehicle permits energy transfer (R229): C or D, or enabled. -/
def vehicleEnables (s : State) (slot : Nat) : Bool :=
  let v := (link s slot).pilot.value
  if linkType s slot = lkMcs then v == 1 else v == 2 || v == 3

/-- The connector is confirmed (R202): connected by its own class, which the pilot does not override. Outlet C of a peloton
member, which has no proximity input, is connected while its code shows a vehicle. DESIGN CHOICE, log entry 36. -/
def connected (s : State) (slot : Nat) : Bool :=
  if slot = 2 then showsVehicle (linkType s 2) (link s 2).pilot.value
  else (link s slot).prox.value == 1 || (link s slot).prox.value == 2

/-- The connector is confirmed absent (R222). -/
def absent (s : State) (slot : Nat) : Bool :=
  (link s slot).prox.value == 3 || (linkType s slot != lkMcs && (link s slot).pilot.value == 0)

/-! ### Data link and SLAC match -/

/-- Adding one to a link counter (R218). -/
def linkCount (slot i : Nat) (s : State) : State :=
  onLink slot (fun l => { l with stats := upd l.stats i fun n => (n + 1) % 2 ^ 32 }) s

abbrev lsDiode : Nat := 0
abbrev lsInvalid : Nat := 1
abbrev lsProximity : Nat := 2
abbrev lsMatches : Nat := 3
abbrev lsRefusals : Nat := 4
abbrev lsFrames : Nat := 5
abbrev lsErrors : Nat := 6
abbrev lsCollisions : Nat := 7

/-- The last message sent to the vehicle. -/
def answer (slot : Nat) (a : VehicleAnswer) (s : State) : State := onLink slot (fun l => { l with answer := some a }) s

/-- The data link comes up (R212, R213). -/
def linkUp (slot : Nat) (s : State) : State :=
  if (link s slot).up then s else raise evOutLink (onLink slot (fun l => { l with up := true }) s)

/-- The data link goes down; the traffic secrets are erased (R245). -/
def linkDown (slot : Nat) (s : State) : State :=
  if (link s slot).up then raise evOutLink (onLink slot (fun l => { l with up := false, tls := false, tlsVersion := 0 }) s) else s

/-- The end of a match, or of what led to one (R210). -/
def slacEnd (slot : Nat) (s : State) : State :=
  let was := (link s slot).slac
  let s := onLink slot (fun l => { l with slac := 0, chars := [], mac := List.replicate 6 0, atten := 0, nmk := [] }) s
  if was = 2 then linkDown slot (raise evOutSlac s) else s

/-- A modem takes part in matching (R208). -/
def mayMatch (s : State) (slot : Nat) : Bool :=
  let l := link s slot
  linkType s slot == lkCcs && 1 ≤ l.pilot.value && l.pilot.value ≤ 3 && l.drive == driveX2 && l.slac != 2

/-- A match ends when the pilot leaves B to D or the drive leaves X2 (R210). -/
def settleMatch (slot : Nat) (s : State) : State :=
  let l := link s slot
  if linkType s slot == lkCcs && l.slac != 0 && !(1 ≤ l.pilot.value && l.pilot.value ≤ 3 && l.drive == driveX2)
  then slacEnd slot s else s

/-! ### Confirmation (R200 to R202) -/

/-- A link fault is raised for the sequencer. -/
def linkFault (slot : Nat) (s : State) : State := raise evOutLinkFault (onLink slot (fun l => { l with fault := true }) s)

/-- The disagreement of R202: not connected, or a proximity fault, while the pilot shows a vehicle. -/
def loopsDisagree (s : State) (slot : Nat) : Bool :=
  showsVehicle (linkType s slot) (link s slot).pilot.value &&
    ((link s slot).prox.value == 0 || (link s slot).prox.value == 3 || (link s slot).prox.value == 4)

/-- One more raw value in a filter. -/
def countRaw (raw : Nat) (f : Filter) : Filter := { f with raw := raw, run := if f.raw = raw then f.run + 1 else 1 }

/-- A raw value that is not the confirmed one has appeared FILTER times in a row (R200). -/
def filterDue (s : State) (slot : Nat) (f : Filter) : Bool := linkFilter s slot ≤ f.run && f.value != f.raw

/-- A state becomes the confirmed one (R200, R202, R220). -/
def confirmPilot (slot v : Nat) (s : State) : State :=
  let type := linkType s slot
  let s1 := raise (evOutPilot + slot) (onLink slot (fun l => { l with pilot.value := v }) s)
  settleMatch slot (if pilotFault type v || loopsDisagree s1 slot then linkFault slot s1 else s1)

/-- The confirmation of a pilot state that is due. -/
def settlePilot (slot : Nat) (s : State) : State :=
  if filterDue s slot (link s slot).pilot then confirmPilot slot (link s slot).pilot.raw s else s

/-- A class becomes the confirmed one (R201, R202, R212, R220). -/
def confirmProx (slot c : Nat) (s : State) : State :=
  let s1 := raise evOutProximity (onLink slot (fun l => { l with prox.value := c }) s)
  let s2 := if c = 0 || c = 4 then linkCount slot lsProximity s1 else s1
  let s3 := if loopsDisagree s2 slot then linkFault slot s2 else s2
  if linkType s slot = lkMcs && c != 1 then linkDown slot s3 else s3

/-- The confirmation of a proximity or insertion-detect class that is due. -/
def settleProx (slot : Nat) (s : State) : State :=
  if filterDue s slot (link s slot).prox then confirmProx slot (link s slot).prox.raw s else s

/-- One proximity sample, every 1 ms, from the voltage at PILn_PPS in mV (R201). -/
def sampleProx (slot pps : Nat) (s : State) : State :=
  let v := proxValueOf (linkType s slot) pps
  settleProx slot (onLink slot (fun l => { l with
    proxValue := v, prox := countRaw (proxClass (linkCfg s slot) v) l.prox }) s)

/-- The drive state of the next period takes effect (R195, R219). -/
def nextDrive (slot : Nat) (s : State) : State :=
  settleMatch slot (onLink slot (fun l => { l with drive := match l.test with | some d => d | none => l.driveNext }) s)

/-- The X2 request on GPIO11 (R205). -/
def gpio11 (s : State) : Bool := s.sys.role == 6 && localSlot s 2 && (link s 2).drive == driveX2

/-- The code of the external front end of outlet C on GPIO8 to 10 (R205). -/
def outletCCode (s : State) : Nat := s.gpio / 256 % 8

/-- A period's raw state is counted, and confirmed where it is due (R200). -/
def takeRaw (slot raw : Nat) (s : State) : State :=
  settlePilot slot (onLink slot (fun l => { l with pilot := countRaw raw l.pilot }) s)

/-- The pilot or charge-enable loop of a period of outlet A or B (R198, R199, R203): no raw state in F and OFF. -/
def samplePilot (slot : Nat) (vPlus vMinus : Int) (s : State) : State :=
  let d := (link s slot).drive
  let mcs := linkType s slot == lkMcs
  let s1 := onLink slot (fun l => { l with vPlus := vPlus, vMinus := if d = driveX2 && !mcs then vMinus else 0 }) s
  if d = driveF || d = driveOff then settleMatch slot (onLink slot (fun l => { l with pilot := { raw := 7, run := 0, value := 7 } }) s1)
  else
    let raw := if mcs then enableClass (linkCfg s slot) vPlus else pilotRaw d vPlus vMinus
    takeRaw slot raw (if !mcs && raw = 9 then linkCount slot lsDiode s1
      else if (if mcs then raw == 2 else raw == 6 || raw == 8) then linkCount slot lsInvalid s1 else s1)

/-- TT_EVSE_SLAC_init runs while the modem waits for the first CM_SLAC_PARAM.REQ; its end is reported (R208, R210). -/
def countSlacInit (slot : Nat) (s : State) : State :=
  if mayMatch s slot && (link s slot).slac == 0 then
    raiseIf ((link s slot).slacMs + 1 == 1000 * lkSlacInit (linkCfg s slot)) evOutSlac
      (onLink slot (fun l => { l with slacMs := l.slacMs + 1 }) s)
  else if mayMatch s slot then s
  else onLink slot (fun l => { l with slacMs := 0 }) s

/-- PILOT_PERIOD_END (R195, R198 to R203, R205): the plateaus of a 1 ms period in 10 mV, and the voltage at PILn_PPS in mV. The
proximity change comes first; outlet C takes its code from GPIO8 to 10; then the drive state selected takes effect. -/
def execPilotPeriodEnd (slot : Nat) (vPlus vMinus : Int) (pps : Nat) (s : State) : Res :=
  .next (
    if !(up s && localSlot s slot) then s
    else if slot = 2 then nextDrive 2 (takeRaw 2 (outletCCode s) s)
    else countSlacInit slot (nextDrive slot (samplePilot slot vPlus vMinus (sampleProx slot pps s))))

/-- PILOT_STATE_CONFIRMED (R200): the confirmation that is due. -/
def execPilotStateConfirmed (slot : Nat) (s : State) : Res :=
  .next (if up s && localSlot s slot then settlePilot slot s else s)

/-- PROXIMITY_CLASS_CONFIRMED (R201, R202, R212): the confirmation that is due. -/
def execProximityClassConfirmed (slot : Nat) (s : State) : Res :=
  .next (if up s && localSlot s slot then settleProx slot s else s)

/-- OUTLET_C_CODE_CONFIRMED (R205): the confirmation that is due. -/
def execOutletCCodeConfirmed (s : State) : Res :=
  .next (if up s && s.sys.role == 6 && localSlot s 2 then settlePilot 2 s else s)

/-! ### SLAC (R208 to R210) -/

/-- The characterisation of a RunID. -/
def charOf (s : State) (slot : Nat) (run : Bytes) : Option Slac := (link s slot).chars.find? fun c => c.run == run

/-- CM_SLAC_PARAM_REQ (R208): up to four characterisations, a fifth RunID ignored. -/
def execCmSlacParamReq (slot : Nat) (mac runId : Bytes) (s : State) : Res :=
  .next (
    if !(up s && mayMatch s slot) then s
    else
      let s := linkCount slot lsFrames s
      if (charOf s slot runId).isSome then answer slot (.slacParam runId mac) s
      else if 4 ≤ (link s slot).chars.length then s
      else answer slot (.slacParam runId mac)
        (onLink slot (fun l => { l with chars := l.chars ++ [{ run := runId, mac := mac }], slac := 1 }) s))

/-- The mean attenuation of each carrier group over the sounds received, dB (R208). -/
def groupMeans (sounds : List (List Nat)) : List Nat :=
  (List.range (sounds.headD []).length).map fun g => (roundDiv ((sounds.map fun p => nth p g).sum) sounds.length).toNat

/-- SLAC_SOUNDS_RECEIVED (R208): the sounds of a RunID, each with the attenuation of every carrier group in dB. -/
def execSlacSoundsReceived (slot : Nat) (runId : Bytes) (sounds : List (List Nat)) (s : State) : Res :=
  .next (
    if up s && mayMatch s slot && !sounds.flatten.isEmpty && (charOf s slot runId).isSome then
      answer slot (.attenChar runId (groupMeans sounds)) (onLink slot (fun l => { l with
        chars := l.chars.map fun c =>
          if c.run == runId then { c with atten := some (sounds.flatten.sum, sounds.flatten.length) } else c })
        (linkCount slot lsFrames s))
    else s)

/-- CM_VALIDATE (R208): answered with "not required". -/
def execCmValidate (slot : Nat) (s : State) : Res :=
  .next (if up s && mayMatch s slot then answer slot .validateNotRequired (linkCount slot lsFrames s) else s)

/-- A mean is at least 3 dB lower than another. -/
def lower3 (a b : Nat × Nat) : Bool := a.1 * b.2 + 3 * a.2 * b.2 ≤ b.1 * a.2

/-- The attenuation at which a match is accepted, if it is (R209). -/
def matchAtten (s : State) (slot : Nat) (run : Bytes) : Option (Nat × Nat) :=
  match charOf s slot run with
  | none => none
  | some c => match c.atten with
    | none => none
    | some a =>
      let max := lkAttenMax (linkCfg s slot)
      let better := [0, 1, 2].any fun k => k != slot && match charOf s k run with
        | some d => match d.atten with | some b => lower3 b a | none => false
        | none => false
      if mayMatch s slot && (max == 0 || a.1 ≤ max * a.2) && !better then some a else none

/-- CM_SLAC_MATCH_REQ (R209): a match with a fresh NMK, or a refusal, which is recorded. -/
def execCmSlacMatchReq (slot : Nat) (mac runId : Bytes) (s : State) : Res :=
  .next (
    if !(up s && linkType s slot == lkCcs) then s
    else
      let s := linkCount slot lsFrames s
      match matchAtten s slot runId with
      | some a =>
        let key := fresh s 16
        linkUp slot (answer slot (.slacMatch runId key) (raise evOutSlac (linkCount slot lsMatches (onLink slot (fun l => { l with
          slac := 2, chars := l.chars.filter (·.run == runId), mac := slice mac 0 6, atten := (roundDiv a.1 a.2).toNat
          nmk := key }) (drawn s)))))
      | none =>
        record (unstatedCode 5 3) srcPilot (u8 slot ++ slice mac 0 6)
          (raise evOutSlac (linkCount slot lsRefusals (onLink slot (fun l => { l with
            slac := if l.slac = 2 then 2 else 3 }) s))))

/-- SLAC_TIMER_EXPIRY (R210): a report and nothing more. -/
def execSlacTimerExpiry (slot : Nat) (s : State) : Res :=
  .next (if up s && linkType s slot == lkCcs then raise evOutSlac s else s)

/-! ### 10BASE-T1S and the bridge (R212, R213) -/

/-- T1S_FRAME_RECEIVED (R212): a valid frame, or what the PHY reports in place of one. -/
def execT1sFrameReceived (slot : Nat) (event : T1sEvent) (s : State) : Res :=
  .next (
    if !(up s && linkType s slot == lkMcs) then s
    else match event with
      | .valid => if (link s slot).prox.value = 1 then linkUp slot (linkCount slot lsFrames s) else linkCount slot lsFrames s
      | .receiveError => linkCount slot lsErrors s
      | .collision => linkCount slot lsCollisions s
      | .jabber => onLink slot (fun l => { l with jabber := (l.jabber + 1) % 2 ^ 32 }) s
      | .selfCheckFailed => linkFault slot s)

/-- T1S_LINK_TIMEOUT (R212): 1 s without a valid frame. -/
def execT1sLinkTimeout (slot : Nat) (s : State) : Res :=
  .next (if up s && linkType s slot == lkMcs then linkDown slot s else s)

/-- The bridged outlets whose association GPIO is `g`. -/
def bridgedOn (s : State) (g : Nat) : List Nat :=
  [0, 1, 2].filter fun k => linkType s k == lkBridged && lkGpio (linkCfg s k) == g

/-- BRIDGE_GPIO_CHANGE (R205, R213): the level of a GPIO input, which brings the data link of an outlet bridged on it up or down;
GPIO8 to 10 carry the code of outlet C. -/
def execBridgeGpioChange (gpio : Nat) (level : Bool) (s : State) : Res :=
  .next (
    if !(up s && gpio < 16) then s
    else
      let changed := bit s.gpio gpio != level
      let s := { s with gpio := if level then s.gpio ||| 2 ^ gpio else s.gpio &&& (0xFFFF - 2 ^ gpio) }
      let s := raiseIf (changed && !(bridgedOn s gpio).isEmpty) evOutBridge s
      (bridgedOn s gpio).foldl (fun s k => if level then linkUp k s else linkDown k s) s)

/-! ### Commands (R218, R219) -/

/-- A slot byte the part may be asked about: A and B, and C in a peloton member. -/
def slotOk (s : State) (slot : Nat) : Bool := slot < 2 || (slot == 2 && s.sys.role == 6)

/-- OUT_GET_LINK. -/
def execOutGetLink (r : Req) (slot : Nat) (s : State) : Res :=
  command { op := 0x0501, own := .outlet } r (fun s =>
    checked [(!slotOk s slot, stBadArg)] s fun s =>
      let l := link s slot
      .ok s (u8 (linkType s slot) ++ u8 l.drive ++ u8 l.pilot.value ++ i16 l.vPlus ++ i16 l.vMinus ++ u8 l.prox.value ++
        u16 l.proxValue ++ u8 l.slac ++ uFlag l.up ++ u8 l.protocol ++ slice l.mac 0 6 ++ u8 l.atten)) s

/-- OUT_GET_LINK_STATS. -/
def execOutGetLinkStats (r : Req) (slot : Nat) (s : State) : Res :=
  command { op := 0x0502, own := .outlet } r (fun s =>
    checked [(!slotOk s slot, stBadArg)] s fun s => .ok s ((link s slot).stats.flatMap u32)) s

/-- OUT_CLEAR_LINK_STATS. -/
def execOutClearLinkStats (r : Req) (slot : Nat) (s : State) : Res :=
  command { op := 0x0503, own := .outlet, secure := true, states := lcIFS, cred := 1 } r (fun s =>
    checked [(!slotOk s slot, stBadArg)] s fun s =>
      .ok (onLink slot (fun l => { l with stats := List.replicate 8 0 }) s)) s

/-- The outlet has a session: state 0x02 to 0x0B. -/
def inSession (s : State) (slot : Nat) : Bool := 2 ≤ (ses s slot).state && (ses s slot).state ≤ 11

/-- OUT_SET_PILOT_TEST (R219): the drive held from the next period, or the test ended. -/
def execOutSetPilotTest (r : Req) (slot drive : Nat) (s : State) : Res :=
  command { op := 0x0504, own := .outlet, secure := true, states := lcIS, cred := 1 } r (fun s =>
    let ok := drive == 0xFF || (if linkType s slot = lkMcs then drive == driveX1 || drive == driveOff else drive < 4)
    checked [(!localSlot s slot || !ok, stBadArg), (inSession s slot, stBusy)] s fun s =>
      .ok (onLink slot (fun l => { l with test := if drive = 0xFF then none else some drive }) s)) s

end Sys2Proof.Machine
end

