-- ==== Sys2Proof/Machine/MeterRing.lean ====
section
/-!
DEFINITION. Metering records and their ring (R293 to R298): opening and closing sessions and intervals, merging, the
record layout, and steps of wall time.
-/
namespace Sys2Proof.Machine

abbrev flInterrupted : Nat := 0x01
abbrev flPfwCommit : Nat := 0x02
abbrev flTimeSet : Nat := 0x10
abbrev flGap : Nat := 0x100
abbrev flShort : Nat := 0x200
abbrev flForced : Nat := 0x1000

/-- Places of the record ring (register area table). -/
abbrev ringPlaces : Nat := 960

/-! ### Building a record -/

/-- The flags of a record at its close (table of record flags). -/
def closeFlags (o : OpenRec) (cond extra : Nat) : Nat :=
  o.flags ||| cond ||| extra ||| (if 0 < o.fb then 0x04 else 0) ||| (if 0 < o.lcfb then 0x08 else 0) |||
    (if 0 < o.fault then 0x400 else 0)

/-- A record from what was open, closed at the given operating second, wall time, cycle and registers. -/
def closeAt (s : State) (kind p : Nat) (o : OpenRec) (flags opEnd : Nat) (wallEnd : Int) (goodEnd : Bool) (regs : Regs) : MRec :=
  { mseq := 0, kind := kind, point := p, flags := flags, session := o.session, opStart := o.opStart, opEnd := opEnd
    wallStart := o.wallStart, wallEnd := wallEnd, cycStart := o.cycStart, cycEnd := s.nv.powerCycles
    protocol := 0, method := 0, endFirst := 0, endCode := 0, reversals := o.reversals
    wallQ := (if o.goodStart then 1 else 0) + (if goodEnd then 2 else 0)
    start := o.start, stop := wholeRegs regs, ident := [], fb := o.fb, lcfb := o.lcfb, fault := o.fault
    legalCount := s.nvMtr.counter, legalDigest := legalDigest s }

/-- An interval of a point closed now. -/
def intervalNow (s : State) (p : Nat) (o : OpenRec) (extra : Nat) : MRec :=
  closeAt s 2 p o (closeFlags o (condFlags s) extra) s.nv.opSeconds s.env.wall s.env.wallGood (mpoint s p).regs

/-- The session of a slot closed now (R295). -/
def sessionNow (s : State) (slot : Nat) (o : OpenRec) : MRec :=
  let e := ses s slot
  { closeAt s 1 (8 + slot) o (closeFlags o (condFlags s) (if e.forced then flForced else 0)) s.nv.opSeconds s.env.wall
      s.env.wallGood (mpoint s (8 + slot)).regs with
    protocol := (link s slot).protocol, method := e.method, endFirst := e.endFirst, endCode := e.endCode, ident := e.ident }

/-! ### The ring (R293, R294) -/

/-- Places in use. -/
def ringUsed (s : State) : Nat := s.nvMtr.ring.length

/-- Record 0x4704: 0 passed 720, 1 full, 2 merged, with the places in use. -/
def recordRing (what : Nat) (s : State) : State := record 0x4704 srcMetrology (u8 what ++ u16 (ringUsed s)) s

/-- A record into a free place: MSEQ, EV_MTR_RECORD, EV_MTR_RING past 720 and at full, a commit (R290, R293, R294). -/
def putRecord (r : MRec) (s : State) : State :=
  let s := raise evMtrRecord { s with
    nvMtr.ring := s.nvMtr.ring ++ [{ r with mseq := s.nvMtr.head }]
    nvMtr.head := s.nvMtr.head + 1 }
  let s := if ringUsed s = 721 then recordRing 0 (raise evMtrRing s)
    else if ringUsed s = ringPlaces then recordRing 1 (raise evMtrRing s) else s
  meterCommit 2 s

/-- The second interval record of a point that follows `a` in its series. -/
def followerOf (a : MRec) (later : List MRec) : Option MRec := later.find? fun b => b.kind == 2 && b.point == a.point

/-- The oldest two interval records of one point that follow each other (R294). -/
def mergePair : List MRec → Option (MRec × MRec)
  | [] => none
  | a :: l =>
    if a.kind = 2 then match followerOf a l with
      | some b => some (a, b)
      | none => mergePair l
    else mergePair l

/-- The merged record: MSEQ, place and start of the first, end of the second, sums of the counters (R294). -/
def mergeRecs (a b : MRec) : MRec :=
  { a with
    flags := a.flags ||| b.flags ||| flGap, opEnd := b.opEnd, wallEnd := b.wallEnd, cycEnd := b.cycEnd
    reversals := a.reversals + b.reversals, wallQ := a.wallQ % 2 + b.wallQ / 2 * 2, stop := b.stop
    fb := a.fb + b.fb, lcfb := a.lcfb + b.lcfb, fault := a.fault + b.fault
    legalCount := b.legalCount, legalDigest := b.legalDigest, merged := b.mseq }

/-- A place freed by merging, where it can be (R294). -/
def mergeRing (s : State) : Option State :=
  match mergePair s.nvMtr.ring with
  | none => none
  | some (a, b) => some (recordRing 2 { s with
      nvMtr.ring := (s.nvMtr.ring.filter fun r => r.mseq != b.mseq).map fun r => if r.mseq = a.mseq then mergeRecs a b else r
      nvMtr.retired := (s.nvMtr.retired.map fun x => if x.2 = b.mseq then (x.1, a.mseq) else x) ++ [(b.mseq, a.mseq)] })

/-- A session record into the ring: a free place, one freed by merging, or Kickstand 0x0206 (R294). -/
def putSession (r : MRec) (s : State) : State :=
  if ringUsed s < ringPlaces then putRecord r s
  else match mergeRing s with
    | some s' => putRecord r s'
    | none => enterKick 0x0206 { s with mtr.waiting := s.mtr.waiting ++ [r] }

/-- Session records that found no place, once one is free. -/
def putWaiting (s : State) : State :=
  s.mtr.waiting.foldl (fun s r => putSession r s) { s with mtr.waiting := [] }

/-! ### Sessions (R295) -/

/-- A session record opens when the close that starts CABLE_CHECK is confirmed. -/
def openSessionRec (slot : Nat) (s : State) : State :=
  if s.mtr.running && pointOn s (8 + slot) then
    let o := openNow s (mpoint s (8 + slot)).regs (nth s.nvOut.counter slot) 0
    { s with mtr.sessions := s.mtr.sessions.set slot (some { o with
      protocol := (link s slot).protocol, method := (ses s slot).method, ident := (ses s slot).ident }) }
  else s

/-- A session record closes when both contactors are confirmed open. -/
def closeSessionRec (slot : Nat) (s : State) : State :=
  match nth s.mtr.sessions slot with
  | none => s
  | some o => putSession (sessionNow s slot o) { s with mtr.sessions := s.mtr.sessions.set slot none }

/-! ### Intervals (R297) -/

/-- The period P in seconds. -/
def periodS (s : State) : Int := 60 * max 1 (hdInterval s.nvMtr.header)

/-- The first boundary after a wall time. -/
def nextBoundary (period wall : Int) : Int := (wall / period + 1) * period

/-- The point has intervals. -/
def hasIntervals (s : State) (p : Nat) : Bool := pointOn s p && bit (ptFlags (pointEntry s p)) 1

/-- An interval starts now. -/
def startInterval (p flags : Nat) (s : State) : State :=
  if hasIntervals s p then
    let o := openNow s (mpoint s p).regs 0 (nextBoundary (periodS s) s.env.wall)
    onPoint p (fun m => { m with interval := some { o with flags := o.flags ||| flags } }) s
  else s

/-- The running interval of a point has reached its boundary. -/
def intervalDue (s : State) (p : Nat) : Bool :=
  match (mpoint s p).interval with
  | some o => s.mtr.running && o.boundary ≤ s.env.wall
  | none => false

/-- The running interval closes; with the ring full it stays open to the next boundary and will carry GAP (R294). -/
def closeInterval (p extra after : Nat) (s : State) : State :=
  match (mpoint s p).interval with
  | none => startInterval p after s
  | some o =>
    if ringUsed s < ringPlaces then startInterval p after (putRecord (intervalNow s p o extra) s)
    else onPoint p (fun m => { m with interval := some { o with
      flags := o.flags ||| flGap ||| extra, boundary := nextBoundary (periodS s) s.env.wall } }) s

/-- The closes that are due at a sample marker, ascending. -/
def settleIntervals (s : State) : State :=
  (pointsOn s).foldl (fun s p => if intervalDue s p then closeInterval p 0 0 s else s) s

/-- INTERVAL_CLOSE (R297). -/
def execIntervalClose (point : Nat) (s : State) : Res :=
  .next (if up s && intervalDue s point then closeInterval point 0 0 s else s)

/-! ### Wall time (R298) -/

/-- A change of the wall-time quality: EV_MTR_TIME and record 0x4702 (kind 1, quality). Without the RTC crystal it stays
low (R34). -/
def wallQuality (good : Bool) (s : State) : State :=
  let q := good && !s.sys.rtcLost
  if s.env.wallGood = q then s
  else raise evMtrTime (record 0x4702 srcMetrology (u8 1 ++ uFlag q) { s with env.wallGood := q })

/-- A step of wall time takes effect at a sample marker (R298). -/
def stepWall (s : State) : State :=
  match s.mtr.step with
  | none => s
  | some w =>
    let s := { s with mtr.step := none }
    let old := s.env.wall
    let ps := (pointsOn s).filter fun p => ((mpoint s p).interval).isSome
    let recs := ps.filterMap fun p => ((mpoint s p).interval).map fun o => (p, intervalNow s p o flTimeSet)
    let s := recs.foldl (fun s x =>
      if ringUsed s < ringPlaces then onPoint x.1 (fun m => { m with interval := none }) (putRecord x.2 s)
      else onPoint x.1 (fun m => { m with interval := m.interval.map fun o => { o with flags := o.flags ||| flTimeSet ||| flGap } }) s) s
    let s := wallQuality true { s with
      env.wall := w, env.wallMs := 0, mtr.slew := 0
      mtr.sessions := s.mtr.sessions.map fun o => o.map fun o => { o with flags := o.flags ||| flTimeSet } }
    let short := nextBoundary (periodS s) w - w < periodS s
    let s := ps.foldl (fun s p => match (mpoint s p).interval with
      | none => startInterval p (if short then flShort else 0) s
      | some _ => onPoint p (fun m => { m with interval := m.interval.map fun o =>
          { o with boundary := nextBoundary (periodS s) w } }) s) s
    raise evMtrTime (recordLegal 0x1703 (i64 old ++ i64 w ++ u64 s.nv.opSeconds) s)

/-- WALL_TIME_STEP_EFFECT (R298). -/
def execWallTimeStepEffect (s : State) : Res := .next (if up s then stepWall s else s)

end Sys2Proof.Machine
end

