-- ==== Sys2Proof/Machine/SafeLink.lean ====
section
/-!
DEFINITION. Safe transport as a receiver sees it (R400 to R404): copies, skew windows, the degraded state, the
watchdog, transport faults and their clearing, and what delivered content asks of this part.
-/
namespace Sys2Proof.Machine

/-! ### Safety frame -/
def sfSrc (f : Bytes) : Nat := g8 f 1
def sfAdvance (f : Bytes) : Bool := bit (g8 f 2) 0
def sfActiveHub (f : Bytes) : Bool := bit (g8 f 2) 1
def sfCycle (f : Bytes) : Nat := g16 f 4
def sfSeq (f : Bytes) : Nat := g32 f 6
def sfStopCh (f : Bytes) : Nat := g16 f 10
def sfStop0 (f : Bytes) : Nat := g16 f 12
def sfStop1 (f : Bytes) : Nat := g16 f 14
def sfAtZero (f : Bytes) : Nat := g16 f 16
def sfRamp (f : Bytes) : Nat := g8 f 18
def sfIsland (f : Bytes) : Nat := g32 f 20
def sfSig (f : Bytes) : Nat := g32 f 24
def sfCode (f : Bytes) : Nat := g32 f 32

/-- Key material of the Spoke-line network key, a slot of usage 0x0D, where the application or the safety cores may use it (R344,
R463, R466); empty otherwise, and then nothing received is authentic. -/
def networkKey (s : State) (caller : Nat) : Bytes :=
  match winner s s.cfg.spoke.keySlot with
  | some k => if mayInvoke s s.cfg.spoke.keySlot (fun k => k.usage == 0x0D) caller then k.material else []
  | none => []

/-- The 8-byte tag of a safety frame on ETH0 (R399). -/
def safetyTag (s : State) (f : Bytes) : Bytes :=
  slice (Config.gcmTag (networkKey s bySafety) (slice f 4 2 ++ slice f 6 4 ++ slice f 1 1 ++ slice f 2 1 ++ slice f 3 1 ++ [0, 0, 0]) f) 0 8

/-- A connection is enabled in the set in service. -/
def connOn (s : State) (c : Nat) : Bool := c < 8 && cnEnabled (connCfg s c)

/-- The other member of a connection's pair (R395). -/
def connMate (s : State) (c : Nat) : Option Nat :=
  if cnPaired (connCfg s c) then some (c + 1)
  else if c != 0 && connOn s (c - 1) && cnPaired (connCfg s (c - 1)) then some (c - 1) else none

/-- The connection is lost: faulted where unpaired, or its pair faulted as a whole (R404). -/
def connLost (s : State) (c : Nat) : Bool :=
  connOn s c && (conn s c).fault != 0 &&
    match connMate s c with
    | none => true
    | some d => (conn s d).fault != 0

/-- Transport stop channel 0x80 + `j` is in its safe state (R403, R404). -/
def channelSafe (s : State) (j : Nat) : Bool :=
  (List.range 8).any fun c => connOn s c && bit (cnMap (connCfg s c)) j && (bit (conn s c).stopCh j || connLost s c)

/-- The loss demand of a lost connection: category and the tick at which its ramp is over; the stricter settings of a
pair (R404). -/
def lossDemand (s : State) (c : Nat) : Nat × Nat :=
  let e := connCfg s c
  match connMate s c with
  | none => (cnCat e, (conn s c).faultTick + ticksOf (cnRamp e))
  | some d => (min (cnCat e) (cnCat (connCfg s d)),
      max (conn s c).faultTick (conn s d).faultTick + ticksOf (min (cnRamp e) (cnRamp (connCfg s d))))

/-- Demands of safe transport on outlet `n`: category and the tick at which its ramp is over (R403, R404). -/
def linkDemands (s : State) (n : Nat) : List (Nat × Nat) :=
  (List.range 8).flatMap fun c =>
    if !connOn s c then []
    else
      (if bit (conn s c).stop0 (n - 1) then [(0, 0)] else []) ++
      (((conn s c).stop1.filter fun d => d.1 == n).map fun d => (1, d.2)) ++
      (if connLost s c && bit (cnLoss (connCfg s c)) (n - 1) then [lossDemand s c] else [])

/-- "At zero" of an outlet's group as safe transport reports it (R403, R404). -/
def linkAtZero (s : State) (n : Nat) : Bool :=
  (List.range 8).any fun c => connOn s c && (conn s c).fault == 0 && bit (conn s c).atZero (n - 1)

/-! ### States of a connection -/

/-- Leaving the degraded state (R402). -/
def leaveDegraded (c : Nat) (s : State) : State :=
  if (conn s c).degraded.isSome then
    raise evSafLinkDegraded (record 0x2921 srcSafety (u8 0 ++ u8 c) (onConn c (fun x => { x with degraded := none }) s))
  else s

/-- Entering the degraded state (R401). -/
def enterDegraded (c k : Nat) (s : State) : State :=
  if (conn s c).degraded.isSome || (conn s c).fault != 0 then s
  else raise evSafLinkDegraded (record 0x2921 srcSafety (u8 1 ++ u8 c)
    (onConn c (fun x => { x with degraded := some k }) s))

/-- A transport fault latches (R404): 1 watchdog, 2 disagreement, 3 hold expired. -/
def faultConn (c cause k : Nat) (s : State) : State :=
  if (conn s c).fault != 0 then onConn c (fun x => { x with clean := none }) s
  else raise evSafLinkFault (record 0x2920 srcSafety (u8 1 ++ u8 c ++ u8 cause)
    (onConn c (fun x => { x with fault := cause, faultTick := k, clean := none, atZero := 0 }) (leaveDegraded c s)))

/-- A STOP1 mask taken at tick `k`: each outlet keeps the earliest end of its ramp (R384, R403). -/
def addStop1 (mask ramp k : Nat) (l : List (Nat × Nat)) : List (Nat × Nat) :=
  ((List.range 13).drop 1).filterMap fun n =>
    let old := (l.find? fun d => d.1 == n).map (·.2)
    if bit mask (n - 1) then some (n, match old with | some t => min t (k + ticksOf ramp) | none => k + ticksOf ramp)
    else old.map fun t => (n, t)

/-- The 1-bits of a copy act at once (R401). -/
def actStops (c k : Nat) (f : Bytes) (s : State) : State :=
  onConn c (fun x => { x with
    stopCh := x.stopCh ||| sfStopCh f
    stop0 := x.stop0 ||| sfStop0 f
    stop1 := addStop1 (sfStop1 f) (sfRamp f) k x.stop1 }) s

/-- A frame delivered in full, releases included (R401, R403). -/
def deliverFrame (c k : Nat) (f : Bytes) (s : State) : State :=
  onConn c (fun x => { x with
    stopCh := sfStopCh f
    stop0 := sfStop0 f
    stop1 := (addStop1 (sfStop1 f) (sfRamp f) k x.stop1).filter fun d => bit (sfStop1 f) (d.1 - 1)
    atZero := if sfActiveHub f && x.fault == 0 then sfAtZero f else 0
    sig := sfSig f
    window := none }) s

/-- Counter of SAF_GET_LINK: paired, single, different, discarded, advance. -/
def countConn (c i : Nat) (s : State) : State := onConn c (fun x => { x with counts := upd x.counts i (· + 1) }) s

/-- A window that closes with one copy: the SEQ is single (R401). -/
def singleSeq (c k : Nat) (s : State) : State :=
  match (conn s c).window with
  | none => s
  | some (_, f) =>
    deliverFrame c k f (enterDegraded c k (onConn c (fun x => { x with run := 0, clean := none }) (countConn c 1 s)))

/-- The skew window closes at the tick that reaches SKEW (R401). -/
def settleSkew (c k : Nat) (s : State) : State :=
  match (conn s c).window with
  | some (t, _) => if t + ticksOf (cnSkew (connCfg s c)) ≤ k then singleSeq c k s else s
  | none => s

/-- The second copy of an open SEQ: paired, or a disagreement (R401). -/
def secondCopy (c k : Nat) (first f : Bytes) (s : State) : State :=
  if first == f.take 32 then
    let s1 := onConn c (fun x => { x with run := x.run + 1, clean := some (x.clean.getD k) }) (countConn c 0 s)
    deliverFrame c k f (if 3 ≤ (conn s1 c).run then leaveDegraded c s1 else s1)
  else faultConn c 2 k (onConn c (fun x => { x with run := 0, clean := none, window := none }) (countConn c 2 s))

/-- The first copy of a new SEQ (R401, R402). -/
def firstCopy (c k : Nat) (f : Bytes) (s : State) : State :=
  actStops c k f (onConn c (fun x => { x with
    heard := true, cycle := some (sfCycle f), seq := sfSeq f, sig := sfSig f, window := some (k, f.take 32), watch := some k })
    (singleSeq c k s))

/-- The time of the last copy on a path: 0 the Spoke-line or PLT, else ETH0. -/
def heardOn (c path k : Nat) (s : State) : State :=
  onConn c (fun x => if path = 0 then { x with spoke := some k } else { x with eth := some k }) s

/-- A valid copy on a connection, classified (R400). -/
def takeCopy (c path k : Nat) (f : Bytes) (s : State) : State :=
  let s := settleSkew c k s
  let x := conn s c
  if sfAdvance f then
    if x.cycle == some (sfCycle f) && sfSeq f == (x.seq + 1) % 4294967296 then
      heardOn c path k (actStops c k f (countConn c 4 s))
    else countConn c 3 s
  else if x.cycle != some (sfCycle f) then heardOn c path k (firstCopy c k f s)
  else if newer 32 (sfSeq f) x.seq then heardOn c path k (firstCopy c k f s)
  else match x.window with
    | some (_, first) =>
      if sfSeq f == x.seq then heardOn c path k (secondCopy c k first f s) else countConn c 3 s
    | none => countConn c 3 s

/-- A copy as it arrives: taken on every enabled connection that SRC names, where its tag, SCODE and ISLAND_ID are right
(R399, R400). It counts at the next safety tick, which latches it. -/
def receiveCopy (path : Nat) (f : Bytes) (tagOk : Bool) (s : State) : State :=
  let k := s.saf.tick + 1
  (List.range 8).foldl (fun s c =>
    if connOn s c && f.length == 36 && g8 f 0 == 0x5C && sfSrc f % 128 == cnSrc (connCfg s c) % 128 then
      if tagOk && sfCode f == crc32c (f.take 32) && sfIsland f == shIsland (safeSet s).header then takeCopy c path k f s
      else countConn c 3 s
    else s) s

/-- The hold of a degraded connection expires (R402). -/
def settleHold (c k : Nat) (s : State) : State :=
  match (conn s c).degraded with
  | some t => if t + 400 * cnHold (connCfg s c) ≤ k then faultConn c 3 k s else s
  | none => s

/-- The watchdog starts at the first tick, and expires at the first tick that reaches WATCHDOG (R402). -/
def settleWatch (c k : Nat) (s : State) : State :=
  match (conn s c).watch with
  | none => onConn c (fun x => { x with watch := some k }) s
  | some t => if t + ticksOf (cnWatchdog (connCfg s c)) ≤ k then faultConn c 1 k s else s

/-- A transport fault clears after 1 s of only paired SEQs (R404). -/
def settleClear (c k : Nat) (s : State) : State :=
  match (conn s c).clean with
  | some t =>
    if (conn s c).fault != 0 && t + 4000 ≤ k then
      raise evSafLinkFault (record 0x2920 srcSafety (u8 0 ++ u8 c ++ u8 (conn s c).fault)
        (onConn c (fun x => { x with fault := 0 }) s))
    else s
  | none => s

/-- Everything due on a connection at a safety tick. -/
def settleConn (s : State) (c : Nat) : State :=
  if connOn s c then
    settleClear c s.saf.tick (settleWatch c s.saf.tick (settleHold c s.saf.tick (settleSkew c s.saf.tick s)))
  else s

/-! ### Rows -/

/-- SAFETY_COPY_RECEIVED (R399, R400, R401, R403): path 0 is the Spoke-line or PLT, whose own protection has passed; a copy on
ETH0 brings its tag. -/
def execSafetyCopyReceived (path : Nat) (frame tag : Bytes) (s : State) : Res :=
  .next (if up s then receiveCopy path frame (path == 0 || (networkKey s bySafety != [] && tag == safetyTag s frame)) s else s)

/-- SKEW_WINDOW_CLOSE (R401). -/
def execSkewWindowClose (c : Nat) (s : State) : Res := .next (if connOn s c then settleSkew c s.saf.tick s else s)

/-- TRANSPORT_WATCHDOG_EXPIRY (R402). -/
def execTransportWatchdogExpiry (c : Nat) (s : State) : Res :=
  .next (if connOn s c && (conn s c).watch.isSome then settleWatch c s.saf.tick s else s)

/-- DEGRADED_HOLD_EXPIRY (R402). -/
def execDegradedHoldExpiry (c : Nat) (s : State) : Res := .next (if connOn s c then settleHold c s.saf.tick s else s)

/-- TRANSPORT_FAULT_CLEAR (R404). -/
def execTransportFaultClear (c : Nat) (s : State) : Res := .next (if connOn s c then settleClear c s.saf.tick s else s)

/-- State byte of SAF_GET_LINK. -/
def connCode (s : State) (c : Nat) : Nat :=
  let x := conn s c
  if !connOn s c then 0 else if x.fault != 0 then 4 else if x.degraded.isSome then 3 else if x.heard then 2 else 1

/-- Milliseconds since a tick, in 16 bits (R541). -/
def msSince (s : State) (t : Option Nat) : Bytes :=
  match t with
  | some t => u16 (age16 ((s.saf.tick - t) / 4))
  | none => u16 0xFFFF

/-- SAF_GET_LINK. -/
def execSafGetLink (r : Req) (c : Nat) (s : State) : Res :=
  command { op := 0x0910, own := .anyRole } r (fun s =>
    checked [(8 ≤ c, stBadArg)] s fun s =>
      let x := conn s c
      .ok s (u8 (connCode s c) ++ u8 x.fault ++ u16 (x.cycle.getD 0) ++ u32 x.seq ++ u32 x.sig ++
        msSince s x.spoke ++ msSince s x.eth ++ x.counts.flatMap u32)) s

end Sys2Proof.Machine
end

