-- ==== Sys2Proof/Machine/SafeInputs.lean ====
section
/-!
DEFINITION. Safe inputs (R355 to R365): filtering, the discrepancy rule, cross-shorts, presses of reset inputs; and
what an instance reads of its inputs.
-/
namespace Sys2Proof.Machine

/-- One sample of a channel (R355). -/
def takeSample (sample : Bool) (c : SafeChan) : SafeChan :=
  { c with raw := sample, run := if sample == c.raw then c.run + 1 else 1 }

/-- One sample of a filtered channel: a new value FILTER ticks after the first sample that shows it, timed there (R360). -/
def filterChan (filter tick : Nat) (sample : Bool) (old : SafeChan) : SafeChan :=
  let c := takeSample sample old
  if sample == c.value then { c with first := none }
  else
    let t := c.first.getD tick
    if t + filter ≤ tick then { c with value := sample, first := none, timed := t }
    else { c with first := some t }

/-- Channel A, or B, is at its active value (R359). -/
def activeA (x : SafeInput) : Bool := x.a.value
def activeB (e : Bytes) (x : SafeInput) : Bool := if siMode e = 2 then !x.b.value else x.b.value

/-- Modes with dual-channel evaluation. -/
def dualMode (e : Bytes) : Bool := siMode e == 1 || siMode e == 2 || siMode e == 4

/-- The input is in its active state; a latched fault counts as the safe state (R359, R365). -/
def inputActive (s : State) (i : Nat) : Bool :=
  i < 16 && dualMode (siCfg s i) && (sinput s i).fault == 0 && activeA (sinput s i) && activeB (siCfg s i) (sinput s i)

/-- Both channels show the safe state (R365). -/
def inputSafe (s : State) (i : Nat) : Bool := !activeA (sinput s i) && !activeB (siCfg s i) (sinput s i)

/-- Tick at which an input came to its active state: the later of its two changes (R374). -/
def activeTick (x : SafeInput) : Nat := max x.a.timed x.b.timed

/-- A fault latches on an input: 1 discrepancy, 2 cross-short (R362, R365). -/
def latchInput (i code : Nat) (s : State) : State :=
  if (sinput s i).fault != 0 then s
  else raise (if code = 1 then evSafDiscrepancy else evSafCrossShort)
    (onInputSi i (fun x => { x with fault := code, bothSafe := false, pend := none }) s)

/-- A latched fault clears at a reset given after both channels have been in the safe state together (R365, R378). -/
def clearInput (i : Nat) (s : State) : State :=
  if i < 16 && (sinput s i).fault != 0 && (sinput s i).bothSafe then
    raise (if (sinput s i).fault = 1 then evSafDiscrepancy else evSafCrossShort)
      (onInputSi i (fun x => { x with fault := 0, bothSafe := false }) s)
  else s

/-- The change that the channels' disagreement leaves to be followed: the later change leads (R363). -/
def leadOf (e : Bytes) (x : SafeInput) : Option (Nat × Bool) :=
  if activeA x == activeB e x then none
  else if x.b.timed ≤ x.a.timed then some (x.a.timed, true) else some (x.b.timed, false)

/-- The discrepancy rule on one input at tick `k` (R363, R365). -/
def settleDiscrepancy (i k : Nat) (s : State) : State :=
  let e := siCfg s i
  let x := sinput s i
  let limit := ticksOf (siDiscrepancy e)
  if !dualMode e || x.fault != 0 then s
  else match x.pend with
    | none => onInputSi i (fun x => { x with pend := leadOf e x }) s
    | some (k1, b) =>
      let f := if b then x.b else x.a
      let l := if b then x.a else x.b
      if k1 < f.timed then
        let s1 := onInputSi i (fun x => { x with lastDiff := f.timed - k1, pend := leadOf e x }) s
        if limit ≤ f.timed - k1 then latchInput i 1 s1 else s1
      else if l.timed != k1 then onInputSi i (fun x => { x with pend := leadOf e x }) s
      else if k1 + limit ≤ k && !(match f.first with | some t => decide (t < k1 + limit) | none => false) then
        latchInput i 1 (onInputSi i (fun x => { x with lastDiff := k - k1 }) s)
      else s

/-- A press of a reset input as its channel A is timed (R378). -/
def notePress (old new : SafeInput) : SafeInput :=
  if old.a.value == new.a.value then new
  else if new.a.value then { new with press := some new.a.timed }
  else { new with press := none, pressed := new.press.map fun t => new.a.timed - t }

/-- One edge on one input: both cores' samples filtered, dips of the last test sample judged, safe and active times
kept (R355, R360, R362, R371). -/
def sampleInput (s0 s1 : List (Bool × Bool)) (i : Nat) (s : State) : State :=
  let e := siCfg s i
  let k := s.saf.tick
  let p := s0.getD i (false, false)
  let q := s1.getD i (false, false)
  let old := sinput s i
  if siMode e = 0 then
    onInputSi i (fun x => { x with
      a := takeSample p.1 x.a, b := takeSample p.2 x.b, a1 := takeSample q.1 x.a1, b1 := takeSample q.2 x.b1 }) s
  else
    let x := { old with
      a := filterChan (siFilter e) k p.1 old.a, b := filterChan (siFilter e) k p.2 old.b
      a1 := filterChan (siFilter e) k q.1 old.a1, b1 := filterChan (siFilter e) k q.2 old.b1
      dipA := false, dipB := false }
    let x := if siMode e = 3 then notePress old x else x
    let s1 := onInputSi i (fun _ => x) s
    let s2 := if (old.dipA && p.1) || (old.dipB && p.2) then
      latchInput i 2 (onInputSi i (fun x => { x with cross := x.cross + 1 }) s1) else s1
    let s3 := settleDiscrepancy i k s2
    onInputSi i (fun x => { x with
      bothSafe := x.bothSafe || (x.fault != 0 && inputSafe s3 i)
      since := if inputActive s3 i then some (x.since.getD k) else none }) s3

/-- DISCREPANCY_LATE (R363, R365). -/
def execDiscrepancyLate (i : Nat) (s : State) : Res := .next (if up s then settleDiscrepancy i s.saf.tick s else s)

/-- One input at the test sample of TPn (R362). -/
def testInput (tp : Nat) (samples : List (Bool × Bool)) (s : State) (i : Nat) : State :=
  let e := siCfg s i
  let p := samples.getD i (false, false)
  let other (chB : Bool) : Bool := siTp e chB < 4 && siTp e chB != tp
  if siMode e = 0 then s
  else
    let s1 := onInputSi i (fun x => { x with
      dipA := other false && !p.1 && x.a.raw, dipB := other true && !p.2 && x.b.raw }) s
    if (siTp e false == tp && p.1) || (siTp e true == tp && p.2) then
      latchInput i 2 (onInputSi i (fun x => { x with cross := x.cross + 1 }) s1)
    else s1

/-- TPn is low after the edge of this tick (R361). -/
def testPulse (s : State) (n : Nat) : Bool :=
  let p := ticksOf (shPeriod (safeSet s).header)
  p != 0 && s.saf.tick % p == n

/-- TEST_SAMPLE (R361, R362): 125 us after an edge that TPn's pulse follows. -/
def execTestSample (tp : Nat) (samples : List (Bool × Bool)) (s : State) : Res :=
  .next (if up s && nth s.saf.tp tp then (List.range 16).foldl (testInput tp samples) s else s)

/-- Function inputs of an instance, as input numbers (R366). -/
def functionInputs (e : Bytes) : List Nat := [inSi1 e, inSi2 e].filter (· < 16)

/-- SAF_GET_INPUT. -/
def execSafGetInput (r : Req) (i : Nat) (s : State) : Res :=
  command { op := 0x0903, own := .anyRole } r (fun s =>
    checked [(16 ≤ i, stBadArg)] s fun s =>
      let x := sinput s i
      .ok s (uFlag x.a.raw ++ uFlag x.b.raw ++ uFlag x.a.value ++ uFlag x.b.value ++ u8 x.fault ++
        u16 (age16 x.lastDiff) ++ u32 x.cross)) s

end Sys2Proof.Machine
end

