-- ==== Sys2Proof/Machine/StackCore.lean ====
section
/-!
DEFINITION. The strings of the buffer stack: which are in service (R449 to R452), and the limits and state of charge
that the Derailleur gets (R454).
-/
namespace Sys2Proof.Machine

abbrev evStkPartial : Nat := 104
abbrev evStkBreak : Nat := 105
abbrev evStkLoop : Nat := 106
abbrev evStkComparator : Nat := 107
abbrev evStkCompanion : Nat := 108
abbrev evStkStale : Nat := 109
abbrev evStkBalance : Nat := 110
abbrev evStkService : Nat := 111

/-! ### String entry (R453) -/
def stNumber (b : Bytes) : Nat := g8 b 0
def stChain (b : Bytes) : Nat := g8 b 1
def stFirst (b : Bytes) : Nat := g8 b 2
def stCount (b : Bytes) : Nat := g8 b 3
def stLast (b : Bytes) : Nat := leNat (slice b 4 3)
def stDisMax (b : Bytes) : Nat := g16 b 8
def stChgMax (b : Bytes) : Nat := g16 b 10
/-- V_CELL_MIN, V_DIS_KNEE, V_CHG_KNEE, V_CELL_MAX, mV, numbered 0 to 3. -/
def stVolt (b : Bytes) (i : Nat) : Nat := g16 b (12 + 2 * i)
/-- T_LOW_ZERO, T_LOW_FULL, T_HIGH_FULL, T_HIGH_ZERO, degC, numbered 0 to 3. -/
def stTemp (b : Bytes) (i : Nat) : Int := gi8 b (20 + i)
def stCapacity (b : Bytes) : Nat := g16 b 24
def stWindow (b : Bytes) : Nat := g8 b 26

/-- The entry of string `k`, 1 to 4, where one is configured. -/
def stringCfg (s : State) (k : Nat) : Option Bytes := s.cfg.strings.find? fun b => stNumber b == k

/-- Companions of a chain (stack header). -/
def chainLen (s : State) (c : Nat) : Nat := nth s.cfg.stack.companions c

/-- The part supervises the stack (R18, R457). -/
def ownsStack (s : State) : Bool :=
  [1, 3].contains s.sys.role || ((s.sys.role == 4 || s.sys.role == 5) && holds s) ||
    (s.sys.role == 6 && s.sys.nodeStrap == 0)

def chain (s : State) (c : Nat) : Pannier := nth s.stk.chains c
def onChain (c : Nat) (f : Pannier → Pannier) (s : State) : State := { s with stk.chains := upd s.stk.chains c f }
def stackString (s : State) (k : Nat) : StackStr := nth s.stk.strings (k - 1)
def onString (k : Nat) (f : StackStr → StackStr) (s : State) : State := { s with stk.strings := upd s.stk.strings (k - 1) f }

/-- Companion at a position, 1 to 48. -/
def comp (s : State) (c p : Nat) : Comp := nth (chain s c).comps (p - 1)
def onComp (c p : Nat) (f : Comp → Comp) (s : State) : State :=
  onChain c (fun h => { h with comps := upd h.comps (p - 1) f }) s

/-- Positions of a string. -/
def stringPositions (e : Bytes) : List Nat := (List.range (stCount e)).map fun i => stFirst e + i

/-- A pair named for the chain is off (R449). -/
def bufferPairOff (s : State) (c : Nat) : Bool :=
  (maskList (nth s.cfg.stack.bufPairs c) 6).any fun n => !(pairOf s n).on

/-- Whether a string is in service (R440, R449, R451, R452). -/
def inService (s : State) (k : Nat) : Bool :=
  match stringCfg s k with
  | none => false
  | some e =>
    let h := chain s (stChain e)
    ownsStack s && !kicked s && h.loop.value && !bufferPairOff s (stChain e) && (h.state == 1 || h.state == 2) &&
      (stringPositions e).all fun p => !(comp s (stChain e) p).stale && !(comp s (stChain e) p).fresh

/-! ### Limits (R454) -/

/-- (x - lo) / (hi - lo) clamped to 0 to 1. -/
def ramp01 (x lo hi : Int) : Frac :=
  if x ≤ lo then ⟨0, 1⟩ else if hi ≤ x then ⟨1, 1⟩ else ⟨(x - lo).toNat, (hi - lo).toNat⟩

/-- The lesser of two fractions. -/
def Frac.least (a b : Frac) : Frac := if a.ge b then b else a

/-- f_T: 1 between the full temperatures, falling linearly to 0, over the coldest and the hottest input (R454). -/
def tempFactor (e : Bytes) (t : StackStr) : Frac :=
  Frac.least (ramp01 t.tMin (10 * stTemp e 0) (10 * stTemp e 1))
    (ramp01 (-t.tMax) (-(10 * stTemp e 3)) (-(10 * stTemp e 2)))

/-- A current limit: maximum x f_T x voltage factor. -/
def stringAmps (max : Nat) (f v : Frac) : Frac := ⟨max * f.num * v.num, f.den * v.den⟩

/-- I_dis and I_chg of a string (R454). -/
def stringLimits (e : Bytes) (t : StackStr) : Frac × Frac :=
  let f := tempFactor e t
  (stringAmps (stDisMax e) f (ramp01 t.vMin (10 * stVolt e 0) (10 * stVolt e 1)),
   stringAmps (stChgMax e) f (ramp01 (-(t.vMax : Int)) (-(10 * stVolt e 3)) (-(10 * stVolt e 2))))

/-- Charge of a full string, in units of 1 mA for one sample of 125 us. -/
def stringFull (e : Bytes) : Nat := stCapacity e * 28800000000

/-- State of charge of a string, per mille (R454). -/
def stringSoc (e : Bytes) (t : StackStr) : Nat := 1000 * t.charge / max 1 (stringFull e)

/-- Power of a current at a string's voltage, W. -/
def stringWatts (t : StackStr) (i : Frac) : Nat := t.vSum * i.num / (10000 * max 1 i.den)

/-- Configured strings in service. -/
def served (s : State) : List Nat := [1, 2, 3, 4].filter fun k => (stackString s k).service

/-- The entry of a string, empty where none is. -/
def stringOf (s : State) (k : Nat) : Bytes := (stringCfg s k).getD []

/-- The limits of each string in service, and the three values of the stack delivered to the Derailleur (R454). With no
string in service the state of charge has no mean: a free value (log entry 22). -/
def deliverStack (s : State) : State :=
  let s := { s with
    stk.strings := s.stk.strings.zipIdx.map fun (x : StackStr × Nat) =>
      let l := stringLimits (stringOf s (x.2 + 1)) x.1
      if x.1.service then { x.1 with iDis := l.1.floor, iChg := l.2.floor } else { x.1 with iDis := 0, iChg := 0 } }
  let ks := served s
  let dis := (ks.map fun k => stringWatts (stackString s k) (stringLimits (stringOf s k) (stackString s k)).1).sum
  let chg := (ks.map fun k => stringWatts (stackString s k) (stringLimits (stringOf s k) (stackString s k)).2).sum
  let caps := (ks.map fun k => stCapacity (stringOf s k)).sum
  let socs := (ks.map fun k => stCapacity (stringOf s k) * stringSoc (stringOf s k) (stackString s k)).sum
  if ks.isEmpty then
    drawn { s with stk.dis := 0, stk.chg := 0, stk.soc := (Config.freeInt s.free).toNat, stk.fresh := true }
  else { s with stk.dis := dis / 1000, stk.chg := chg / 1000, stk.soc := socs / max 1 caps, stk.fresh := true }

/-- Strings enter and leave service; a change sets EV_STK_SERVICE and is delivered at once (R449, log entry 22). -/
def settleService (s : State) : State :=
  if s.cfg.strings.isEmpty then s
  else
    let now := [1, 2, 3, 4].map fun k => inService s k
    if (s.stk.strings.map (·.service)) == now then s
    else deliverStack (raise evStkService { s with
      stk.strings := (s.stk.strings.zip now).map fun (x : StackStr × Bool) => { x.1 with service := x.2 } })

/-! ### Fault loop (R448) -/

/-- The loop permit as the filtered loop gives it: lost at once, back once closed for 1 s. -/
def settleLoop (c : Nat) (s : State) : State :=
  let h := chain s c
  if h.permit && !h.loop.value then onChain c (fun h => { h with permit := false }) s
  else if !h.permit && h.loop.value && h.loop.timed + 4000 ≤ s.saf.tick then onChain c (fun h => { h with permit := true }) s
  else s

/-- A fault loop holds a pair off: the pair is named for a chain in use whose loop permit is 0. -/
def loopHolds (s : State) (n : Nat) : Bool :=
  [0, 1].any fun c => chainLen s c != 0 && bit (nth s.cfg.stack.bufPairs c) n && !(chain s c).permit

end Sys2Proof.Machine
end

