-- ==== Sys2Proof/Machine/SafeInst.lean ====
section
/-!
DEFINITION. Function instances (R366 to R378): permits and stop demands, resets, two-hand control, muting, door locks.
-/
namespace Sys2Proof.Machine

/-- The inputs of an instance allow its permit (R369, R370, R372, R374, R375). -/
def inputsAllow (s : State) (j : Nat) : Bool :=
  let e := instCfg s j
  if inKind e = 2 then inputActive s (inSi1 e) && (inSi2 e == 255 || inputActive s (inSi2 e))
  else if inKind e = 3 then inputActive s (inSi1 e) && inputActive s (inSi2 e)
  else if inKind e = 5 && 128 ≤ inSi1 e then !channelSafe s (inSi1 e - 128)
  else inputActive s (inSi1 e)

/-- A fault is latched on an input of the instance, or its lock fault is (R378). -/
def instFaulted (s : State) (j : Nat) : Bool :=
  (functionInputs (instCfg s j)).any (fun i => (sinput s i).fault != 0) || (inst s j).lockFault

/-- Cause byte of a stop that its inputs make (SAF_GET_INSTANCE). -/
def stopCause (s : State) (j : Nat) : Nat :=
  let e := instCfg s j
  if (inst s j).lockFault then 4
  else if inKind e = 5 && 128 ≤ inSi1 e then 7
  else match (functionInputs e).find? fun i => (sinput s i).fault != 0 with
    | some i => (sinput s i).fault + 1
    | none => 1

/-- The permit falls: the stop demand begins (R367). -/
def fallPermit (j cause : Nat) (s : State) : State :=
  if !(inst s j).permit then s
  else raise evSafStop (onInst j (fun x => { x with
    permit := false, cause := cause, stops := x.stops + 1, fell := some s.saf.tick }) s)

/-- The permit returns (R378). -/
def raisePermit (j : Nat) (s : State) : State :=
  raise evSafPermit (onInst j (fun x => { x with
    permit := true, cause := 0, fell := none, armed := if inKind (instCfg s j) = 3 then false else x.armed }) s)

/-- The two hands' actuations are timed within SYNC (R374, under the tick rule of R363). -/
def handsTogether (s : State) (j : Nat) : Bool :=
  let e := instCfg s j
  let a := activeTick (sinput s (inSi1 e))
  let b := activeTick (sinput s (inSi2 e))
  max a b - min a b < ticksOf (inParam1 e)

/-- The instance's own rules allow the permit (R371 to R376). -/
def mayRise (s : State) (j : Nat) : Bool :=
  let e := instCfg s j
  inputsAllow s j && !instFaulted s j &&
    (if inKind e = 2 then !(inst s j).unlocking && !(inst s j).unlocked
     else if inKind e = 3 then (inst s j).armed && handsTogether s j
     else if 32 ≤ j then (match (sinput s (inSi1 e)).since with | some t => decide (t + 4000 ≤ s.saf.tick) | none => false)
     else true)

/-- A reset to one instance: faults clear, then the permit rises where it may (R378). A reset that is given, not the one
of every tick, also serves the instance's load channel (R425, log entry 20). -/
def giveReset (given : Bool) (j : Nat) (s : State) : State :=
  let e := instCfg s j
  let s1 := (functionInputs e).foldl (fun s i => clearInput i s) s
  let s2 := if (inst s1 j).lockFault && (inst s1 j).lockSafe then
    onInst j (fun x => { x with lockFault := false, lockSafe := false }) s1 else s1
  let s3 := if given && inLoad e < 24 && !(load s2 (inLoad e)).latch then clearLoad (inLoad e) s2 else s2
  if !(inst s3 j).permit && mayRise s3 j then raisePermit j s3 else s3

/-- A reset to every instance that a condition on its RESET selects. -/
def giveResets (sel : Nat → Bool) (s : State) : State :=
  (instances s).foldl (fun s j => if sel j then giveReset true j s else s) s

/-- The part reset source (R406). -/
def partSource (s : State) : Nat := match safeHeld s with | some t => shReset t.header | none => 255

/-- An input serves as a reset input: of an instance, or of the part (R366). -/
def resetInput (s : State) (i : Nat) : Bool :=
  (safeHeld s).isSome && (partSource s == i || (instances s).any fun j => inReset (instCfg s j) == i)

/-- A press that has ended: a reset to all it serves from 100 ms and below 5 s, an event alone from 5 s (R378, R379). -/
def settlePress (s : State) (i : Nat) : State :=
  match (sinput s i).pressed with
  | none => s
  | some d =>
    let s1 := onInputSi i (fun x => { x with pressed := none }) s
    if !resetInput s i then s1
    else if 20000 ≤ d then raise evSafReset s1
    else if d < 400 then s1
    else
      let s2 := if partSource s1 = i then kickReset s1 else s1
      raise evSafReset (if safeRunning s2 then giveResets (fun j => inReset (instCfg s2 j) == i) s2 else s2)

/-- RESET_INPUT_PRESS (R378). -/
def execResetInputPress (i : Nat) (s : State) : Res := .next (if up s then settlePress s i else s)

/-! ### Two-hand control (R374) -/

/-- Both hands released together arm the control; a second actuation that comes too late uses the arming up. -/
def settleHands (j : Nat) (s : State) : State :=
  let e := instCfg s j
  if inKind e != 3 then s
  else
    let a := inputActive s (inSi1 e)
    let b := inputActive s (inSi2 e)
    if !a && !b then onInst j (fun x => { x with armed := true }) s
    else if a && b && (inst s j).armed && !(inst s j).permit && !handsTogether s j then
      raise evSafTwoHand (onInst j (fun x => { x with armed := false, cause := 5 }) s)
    else s

/-- TWO_HAND_LATE (R374). -/
def execTwoHandLate (j : Nat) (s : State) : Res := .next (if up s && safeRunning s then settleHands j s else s)

/-! ### Muting (R376, R377) -/

/-- The two muting sensors and whether they are timed within MUTE_SYNC. -/
def sensorsTogether (s : State) (j : Nat) : Bool :=
  let e := instCfg s j
  let x := sinput s (inSi2 e)
  max x.a.timed x.b.timed - min x.a.timed x.b.timed < ticksOf (inParam1 e)

/-- The instance can mute: a light curtain with muting sensors. -/
def mutes (e : Bytes) : Bool := inKind e == 4 && inSi2 e < 16

/-- The end of muting: by a sensor, or by MUTE_MAX, a lamp fault or an input fault, after which both sensors have to be
released before muting begins again (R377, log entry 20). -/
def endMuting (j : Nat) (again timeOut : Bool) (s : State) : State :=
  let e := instCfg s j
  let s1 := onInst j (fun x => { x with mute := none, armed := x.armed && again }) s
  let s2 := raise evSafMuting (if inLoad e < 24 then requestLoad (inLoad e) false s1 else s1)
  if inputActive s2 (inSi1 e) then s2 else fallPermit j (if timeOut then 6 else stopCause s2 j) s2

/-- Muting at a tick. -/
def settleMuting (j : Nat) (s : State) : State :=
  let e := instCfg s j
  if !mutes e then s
  else
    let x := sinput s (inSi2 e)
    let faults := instFaulted s j
    let lamp := inLoad e < 24 && lampFault s (inLoad e)
    let s := if !x.a.value && !x.b.value then onInst j (fun y => { y with armed := true }) s else s
    match (inst s j).mute with
    | some t =>
      if t + 4000 * inParam2 e ≤ s.saf.tick then endMuting j false true s
      else if lamp || faults then endMuting j false false s
      else if !x.a.value || !x.b.value then endMuting j true false s
      else s
    | none =>
      if !(x.a.value && x.b.value && (inst s j).armed) then s
      else if !sensorsTogether s j then onInst j (fun y => { y with armed := false }) s
      else if inputActive s (inSi1 e) && !lamp && !faults then
        let s1 := raise evSafMuting (onInst j (fun y => { y with mute := some s.saf.tick }) s)
        if inLoad e < 24 then requestLoad (inLoad e) true s1 else s1
      else s

/-- MUTE_MAX_EXPIRY (R377). -/
def execMuteMaxExpiry (j : Nat) (s : State) : Res :=
  .next (if up s && safeRunning s && (inst s j).mute.isSome then settleMuting j s else s)

/-! ### Door lock (R372, R373) -/

/-- The instance is a guard door with a lock. -/
def locks (e : Bytes) : Bool := inKind e == 2 && inSi2 e < 16

/-- A lock fault latches. -/
def lockFaultAt (j : Nat) (s : State) : State :=
  raise evSafDoorLock (onInst j (fun x => { x with lockFault := true, lockSafe := false, driven := none }) s)

/-- Driving the lock: the solenoid's channel changes its request, and the feedback has to follow (R373). -/
def driveLock (j : Nat) (lock : Bool) (s : State) : State :=
  let e := instCfg s j
  let on := if lock then !inPowerUnlock e else inPowerUnlock e
  let s1 := onInst j (fun x => { x with unlocking := false, unlocked := !lock }) s
  let s2 := if inLoad e < 24 && (load s (inLoad e)).request != on then
    requestLoad (inLoad e) on (onInst j (fun x => { x with driven := some (s.saf.tick, lock) }) s1) else s1
  raise evSafDoorLock s2

/-- Tick at which the feedback came to the driven state, where it has: for lock its later change, for unlock its first. -/
def followTick (s : State) (i : Nat) (lock : Bool) : Nat :=
  let x := sinput s i
  if lock then activeTick x
  else if activeA x then x.b.timed else if activeB (siCfg s i) x then x.a.timed else min x.a.timed x.b.timed

/-- A change toward the driven state is being filtered that is timed before tick `t`. -/
def followComing (s : State) (i t : Nat) : Bool :=
  let x := sinput s i
  let before (c : SafeChan) : Bool := match c.first with | some f => decide (f < t) | none => false
  before x.a || before x.b

/-- The feedback does not follow a drive change within 1 s. -/
def followLate (s : State) (j : Nat) : Bool :=
  let i := inSi2 (instCfg s j)
  match (inst s j).driven with
  | none => false
  | some (t, lock) =>
    if inputActive s i == lock then t + 4000 ≤ followTick s i lock
    else t + 4000 ≤ s.saf.tick && !followComing s i (t + 4000)

/-- A drive change that the feedback has followed is done with. -/
def settleDrive (j : Nat) (s : State) : State :=
  match (inst s j).driven with
  | none => s
  | some (_, lock) =>
    if followLate s j then lockFaultAt j s
    else if inputActive s (inSi2 (instCfg s j)) == lock then onInst j (fun x => { x with driven := none }) s
    else s

/-- LOCK_FEEDBACK_TIMEOUT (R373). -/
def execLockFeedbackTimeout (j : Nat) (s : State) : Res :=
  .next (if up s && safeRunning s && followLate s j then lockFaultAt j s else s)

/-- Pairs whose PERMIT_MASK holds the instance. -/
def stopPairs (s : State) (j : Nat) : List Nat :=
  (List.range 6).filter fun n => prMode (pairCfg s n) != 0 && bit (prMask (pairCfg s n)) j

/-- Local outlets that an instance targets, as slots. -/
def targetSlots (s : State) (j : Nat) : List Nat :=
  [0, 1, 2].filter fun k => localSlot s k && outletOf s k != 0 && bit (inTargets (instCfg s j)) (outletOf s k - 1)

/-- The lock may be driven to unlock: stop complete and UNLOCK_DELAY passed (R373). -/
def unlockDue (s : State) (j : Nat) : Bool :=
  (inst s j).unlocking &&
    (match (inst s j).fell with | some t => decide (t + 400 * inParam1 (instCfg s j) ≤ s.saf.tick) | none => true) &&
    (stopPairs s j).all (fun n => !(pairOf s n).on && !(pairOf s n).next) &&
    (targetSlots s j).all fun k => !(ses s k).pos && !(ses s k).neg && (ses s k).confirmed

/-- UNLOCK_DELAY_EXPIRY (R373). -/
def execUnlockDelayExpiry (j : Nat) (s : State) : Res :=
  .next (if up s && safeRunning s && unlockDue s j then driveLock j false s else s)

/-- A guard door with a lock at a tick: lock faults, the unlock that is due, the states kept for the next tick. -/
def settleDoor (j : Nat) (s : State) : State :=
  let e := instCfg s j
  if !locks e then s
  else
    let x := inst s j
    let closed := inputActive s (inSi1 e)
    let locked := inputActive s (inSi2 e)
    let broken := (x.wasLocked && !locked && !x.unlocking && !x.unlocked) || (x.wasClosed && !closed && locked)
    let s1 := settleDrive j (if broken && !x.lockFault then lockFaultAt j s else s)
    let s2 := if unlockDue s1 j then driveLock j false s1 else s1
    onInst j (fun y => { y with
      wasLocked := locked, wasClosed := closed
      lockSafe := y.lockSafe || (y.lockFault && inputSafe s2 (inSi1 e) && inputSafe s2 (inSi2 e)) }) s2

/-- One instance at a tick: its own rules, the fall of its permit, and the reset of every tick where RESET is automatic
(R369 to R378). -/
def evalInst (s : State) (j : Nat) : State :=
  let s1 := settleDoor j (settleMuting j (settleHands j s))
  let e := instCfg s1 j
  let muted := (inst s1 j).mute.isSome && !instFaulted s1 j
  let s2 := if (!inputsAllow s1 j && !muted) || (inst s1 j).lockFault then fallPermit j (stopCause s1 j) s1 else s1
  if inReset e = 255 then giveReset false j s2 else s2

/-! ### Stop demands (R367, R382 to R384) -/

/-- An instance's demand while its permit is 0: category and the tick at which MAX_RAMP is reached. -/
def instDemand (s : State) (j : Nat) : Option (Nat × Nat) :=
  let e := instCfg s j
  if inKind e = 0 || (inst s j).permit then none
  else if inCat e = 0 then some (0, 0)
  else match (inst s j).fell with
    | some t => some (1, t + ticksOf (inRamp e))
    | none => some (1, 0)

/-- Every demand on outlet `n`. -/
def outletDemands (s : State) (n : Nat) : List (Nat × Nat) :=
  ((instances s).filterMap fun j => if bit (inTargets (instCfg s j)) (n - 1) then instDemand s j else none) ++ linkDemands s n

/-- Category of a list of demands: 0 prevails (R384). -/
def demandCat (l : List (Nat × Nat)) : Option Nat := if l.isEmpty then none else if l.any (·.1 == 0) then some 0 else some 1

/-- Either at-zero condition of an outlet (R383): "at zero" of its group, here or by safe transport, or its current at
most I_OPEN for three metering samples. -/
def outletAtZero (s : State) (n : Nat) : Bool :=
  linkAtZero s n || (match groupOf s n with | some g => (group s g).atZero | none => false) ||
    (match slotOf s n with | some k => decide (3 ≤ (ses s k).lowRun) | none => false)

/-- Stop bits of local instances: STOP_CH, STOP0, STOP1 (R397). -/
def stopBitsNow (s : State) : List Nat :=
  let t := safeSet s
  let ch := maskOf ((List.range 16).filter fun b => g8 t.exports b < 32 &&
    inKind (instCfg s (g8 t.exports b)) != 0 && !(inst s (g8 t.exports b)).permit)
  let of (cat : Nat) := (instances s).foldl (fun m j => match instDemand s j with
    | some d => if d.1 = cat then m ||| inTargets (instCfg s j) % 4096 else m
    | none => m) 0
  [ch, of 0, of 1]

/-- Least MAX_RAMP among the demands in STOP1; 0 when there is none. -/
def rampNow (s : State) : Nat :=
  (leastNat ((instances s).filterMap fun j => match instDemand s j with
    | some d => if d.1 = 1 && inTargets (instCfg s j) % 4096 != 0 then some (inRamp (instCfg s j)) else none
    | none => none)).getD 0
where
  /-- Least of a list. -/
  leastNat : List Nat → Option Nat
    | [] => none
    | x :: l => some (l.foldl min x)

end Sys2Proof.Machine
end

