-- ==== Sys2Proof/Machine/SafeTick.lean ====
section
/-!
DEFINITION. The safety tick (R355 to R358, R382 to R388, R397 to R399, R430): safe output pairs, cross-comparison, the
load watchdog's feed, safety frames.
-/
namespace Sys2Proof.Machine

/-! ### Safe output pairs -/

/-- Slots whose contactors a pair switches (R225, R385). -/
def pairSlots (s : State) (n : Nat) : List Nat :=
  [0, 1, 2].filter fun k => localSlot s k && (seSoPos (sesCfg s k) == n || seSoNeg (sesCfg s k) == n)

/-- Demands on a pair: the permits of its mask that are 0, its fault loops, and the demands on outlets it serves
(R385, R448). -/
def pairDemands (s : State) (n : Nat) : List (Nat × Nat) :=
  let e := pairCfg s n
  ((maskList (prMask e) 32).filterMap fun j => if inKind (instCfg s j) = 0 then some (0, 0) else instDemand s j) ++
    (if loopHolds s n then [(0, 0)] else []) ++
    (if prMode e = 1 then (pairSlots s n).flatMap fun k => if outletOf s k = 0 then [] else outletDemands s (outletOf s k) else [])

/-- Every outlet a contactor pair serves is at zero (R383). -/
def pairAtZero (s : State) (n : Nat) : Bool :=
  prMode (pairCfg s n) == 1 && !(pairSlots s n).isEmpty && (pairSlots s n).all fun k => outletAtZero s (outletOf s k)

/-- A demand switches the pair off in the record launched at tick `k`: category 0, or a ramp that is over (R382, R383). -/
def demandDue (k : Nat) (d : Nat × Nat) : Bool := d.1 == 0 || d.2 ≤ k

/-- The pair's command in the record of this tick, launched at the next (R385). -/
def pairCommand (s : State) (n : Nat) : Bool :=
  let p := pairOf s n
  let d := pairDemands s n
  prMode (pairCfg s n) != 0 && p.request && safeRunning s && p.fault == 0 && !kicked s && s.env.vsout && mayEnergise s &&
    (d.isEmpty || (p.on && !d.any (demandDue (s.saf.tick + 1)) && !pairAtZero s n))

/-- A contactor pair is opened by MAX_RAMP while not at zero: recorded as opened under current (R383). -/
def rampForced (s : State) (n : Nat) : Bool :=
  let d := pairDemands s n
  (pairOf s n).on && prMode (pairCfg s n) == 1 && !d.isEmpty && d.all (·.1 == 1) && d.any (demandDue (s.saf.tick + 1)) &&
    !pairAtZero s n

/-- Evaluating a pair: its command, and the request that a stop demand withdraws (R380, R385). -/
def evalPair (s : State) (n : Nat) : State :=
  let c := pairCommand s n
  let held := !(pairDemands s n).isEmpty && !c
  let s1 := if rampForced s n then
    record (unstatedCode 9 0) srcSafety (u8 n)
      ((pairSlots s n).foldl (fun s k => onSes k (fun x => { x with forced := true }) s) s) else s
  onPair n (fun p => { p with next := c, request := p.request && !held }) s1

/-- Launching a pair's record at an edge (R355). -/
def launchPair (s : State) (n : Nat) : State :=
  let p := pairOf s n
  if p.next && !kicked s && up s then
    onPair n (fun p => { p with
      on := true, onTick := if p.on then p.onTick else s.saf.tick, darkTick := if p.on then p.darkTick else none }) s
  else onPair n (fun p => { p with on := false, light := false }) s

/-- MAX_RAMP_EXPIRY (R383). -/
def execMaxRampExpiry (n : Nat) (s : State) : Res :=
  .next (if up s && (pairOf s n).on && (pairDemands s n).any (demandDue s.saf.tick) then launchPair (evalPair s n) n else s)

/-- A pair fault: the pair off, the fault latched, Kickstand 0x0302 (R388): 1 read-back, 2 dark test, 3 overcurrent. -/
def pairFault (n kind : Nat) (s : State) : State :=
  if (pairOf s n).fault != 0 then s
  else enterKick 0x0302 (raise evSafPairFault { s with
    saf.pairs := upd s.saf.pairs n fun p => { p with
      fault := kind, good := 0, bad := 0, next := false, on := false, request := false, light := false }
    saf.pairsOk := 0 })

/-- The read-back of a pair in its present state, in 0.1 V (R386). -/
def readBackOk (on : Bool) (vHigh vLow vsout : Nat) : Bool :=
  if on then vsout ≤ vHigh + 20 && vLow ≤ 20 else vHigh ≤ 50 && vLow ≤ 50

/-- The read-back of one pair at an edge: V(SOnH), V(SOnL) and current; the open-load report of an on pair (R386, R388). -/
def readBack (sense : List (Nat × Nat × Nat)) (vsout : Nat) (s : State) (n : Nat) : State :=
  let v := sense.getD n (0, 0, 0)
  let p := pairOf s n
  if prMode (pairCfg s n) = 0 then onPair n (fun p => { p with vHigh := v.1, vLow := v.2.1, current := v.2.2 }) s
  else
    let light := p.on && prOpenLoad (pairCfg s n) && decide (v.2.2 < 10)
    let s := raiseIf (light && !p.light) evSafPairFault s
    let ok := readBackOk p.on v.1 v.2.1 vsout
    let s1 := onPair n (fun p => { p with
      vHigh := v.1, vLow := v.2.1, current := v.2.2, light := light, bad := if ok then 0 else p.bad + 1
      good := if ok && p.fault != 0 then p.good + 1 else 0
      fault := if ok && 4000 ≤ p.good + 1 then 0 else p.fault }) s
    let s2 := if ok then s1 else { s1 with saf.pairsOk := 0 }
    if 2 ≤ (pairOf s2 n).bad then pairFault n 1 s2 else s2

/-- A dark test of a pair is due: the first 50 ms after switching on, then one every DARK_PERIOD, no two pairs in one tick
(R387). -/
def darkDue (s : State) (n : Nat) : Bool :=
  let p := pairOf s n
  p.on && s.saf.darkTick != some s.saf.tick &&
    match p.darkTick with
    | none => p.onTick + 200 ≤ s.saf.tick
    | some t => t + 4000 * prDark (pairCfg s n) ≤ s.saf.tick

/-- DARK_TEST (R386, R387): the high and the low side in turn. -/
def execDarkTest (n vHigh vLow vsout : Nat) (s : State) : Res :=
  let p := pairOf s n
  .next (if !up s || !darkDue s n then s
    else
      let s1 := { s with
        saf.darkTick := some s.saf.tick
        saf.pairs := upd s.saf.pairs n fun p => { p with
          lowSide := !p.lowSide, tested := s.nv.opSeconds, darkTick := some s.saf.tick } }
      if (if p.lowSide then vsout ≤ vLow + 50 else vHigh ≤ 50) then s1 else pairFault n 2 s1)

/-- PAIR_OVERCURRENT (R385). -/
def execPairOvercurrent (n : Nat) (s : State) : Res := .next (if up s && (pairOf s n).on then pairFault n 3 s else s)

/-- VSOUT_RANGE_CHANGE (R388, R527): every pair held off, without a fault, while VSOUT is out of range. -/
def execVsoutRangeChange (inRange : Bool) (s : State) : Res :=
  let s1 := { s with env.vsout := inRange }
  .next (if s.env.vsout == inRange || s.sys.phase == .held || s.sys.phase == .heatHold then s1
    else raise evSafPairFault (if inRange then s1 else { s1 with
      saf.pairs := s1.saf.pairs.map fun p => { p with on := false, next := false, light := false } }))

/-! ### Cross-comparison (R355 to R357) -/

/-- Filtered states of the two cores agree on every input in use. -/
def coresAgree (s : State) : Bool :=
  (List.range 16).all fun i => siMode (siCfg s i) == 0 ||
    ((sinput s i).a.value == (sinput s i).a1.value && (sinput s i).b.value == (sinput s i).b1.value)

/-- R356: every switch off, the watchdog fed no longer, Kickstand 0x0301. -/
def compareFailed (s : State) : State :=
  enterKick 0x0301 (raise evSafCompare { s with
    saf.pairs := s.saf.pairs.map fun p => { p with on := false, next := false, light := false }
    saf.feedStop := true
    saf.differ := false
    saf.missed := [0, 0]
    saf.compareFails := s.saf.compareFails + 1
    saf.compareOk := 0 })

/-! ### The load watchdog's feed (R430) -/

/-- A trip: every channel off in hardware, the trip latched, Kickstand 0x0302. -/
def tripLoads (core : Nat) (s : State) : State :=
  if s.ldc.tripped then s
  else enterKick 0x0302 (raise evLdcWatchdog (record 0x2A01 srcSafety (u8 0 ++ u8 core) { loadsOff s with ldc.tripped := true }))

/-- A core's feed word launched at an edge: the complement of its last valid one (R430). -/
def feedCore (core : Nat) (s : State) : State :=
  { s with ldc.word := upd s.ldc.word core (255 - ·), ldc.feed := s.ldc.feed.set core s.saf.tick }

/-- The feed of the cores `cores` at a launch, where words have been written; a lapse of 4 ms of either core trips the watchdog
(R28, R430). -/
def feedLoads (cores : List Nat) (s : State) : State :=
  let feeding := s.saf.feedNext && !s.saf.feedStop
  let s1 := if feeding then cores.foldl (fun s c => feedCore c s) s else s
  let s2 := { s1 with ldc.fed := if feeding && cores.length == 2 then s1.ldc.fed + 1 else 0 }
  match ([0, 1] : List Nat).find? fun c => nth s2.ldc.feed c + 16 ≤ s2.saf.tick with
  | some c => tripLoads c s2
  | none => s2

/-- SAFETY_EDGE_MISSED (R357): records repeat, the core's feed word among them, which is then no valid one; at the second in a row of one core, or where the digests differ, R356. -/
def execSafetyEdgeMissed (core : Nat) (s : State) : Res :=
  .next (if !up s || 2 ≤ core then s
    else
      let s1 := setLate (lateSafety core) { s with saf.tick := s.saf.tick + 1, saf.missed := (upd s.saf.missed core (· + 1)).set (1 - core) 0 }
      feedLoads [1 - core] (if s1.saf.differ || 2 ≤ nth s1.saf.missed core then compareFailed s1 else s1))

/-- VDD_SAFE_OUT_OF_RANGE (R358). -/
def execVddSafeOutOfRange (s : State) : Res :=
  .next (if up s then enterKick 0x0304 (raise evSafCompare s) else s)

/-! ### Safety frames (R397 to R399) -/

/-- Outlets whose group, run by this part, has reported "at zero". -/
def atZeroMask (s : State) : Nat :=
  maskOf (((List.range 13).drop 1).filterMap fun n => match groupOf s n with
    | some g => if (group s g).atZero then some (n - 1) else none
    | none => none)

/-- A safety frame with its SCODE (safety frame table). -/
def safetyFrame (s : State) (advance : Bool) (idx : Nat) : Bytes :=
  let body := u8 0x5C ++ u8 (ownSrc s) ++ u8 ((if advance then 1 else 0) + (if masters s then 2 else 0)) ++ u8 idx ++
    u16 s.nv.powerCycles ++ u32 s.saf.seq ++ u16 (nth s.saf.stopBits 0) ++ u16 (nth s.saf.stopBits 1) ++
    u16 (nth s.saf.stopBits 2) ++ u16 (atZeroMask s) ++ u8 (rampNow s) ++ u8 0 ++
    u32 (shIsland (safeSet s).header) ++ u32 (setSignature (safeSet s)) ++ u32 0
  body ++ u32 (crc32c body)

/-- A safety frame out on ETH0 (R399). -/
def sendSafety (f : Bytes) (s : State) : State :=
  { s with spk.eth := s.spk.eth ++ [{
      dest := [0x03, 0xA1, 0xE0, 0x00, 0x00, 0x00].map (BitVec.ofNat 8) |>.set 5 (BitVec.ofNat 8 s.cfg.spoke.network)
      vid := s.cfg.spoke.islandVid, pcp := 7, etherType := 0x88B6, payload := f ++ safetyTag s f }] }

/-- The periodic frame, on ETH0 and kept for the slot; where the cores' results differ none leaves the part, and R356 acts
(R397, R398). -/
def periodicFrame (s : State) : State :=
  if (safeHeld s).isNone then s
  else if s.saf.differ then compareFailed s
  else
    let f := safetyFrame s false 0
    { sendSafety f s with saf.frame := f, saf.frameTick := s.saf.tick, saf.seq := (s.saf.seq + 1) % 4294967296, saf.advIdx := 0 }

/-- The advance frame that is due (R398). -/
def advanceFrame (s : State) : State :=
  if !s.saf.advance || (safeHeld s).isNone then s
  else
    let i := if 255 ≤ s.saf.advIdx then 1 else s.saf.advIdx + 1
    sendSafety (safetyFrame s true i) { s with saf.advance := false, saf.advIdx := i }

/-- SAFETY_FRAME_POINT (R398). -/
def execSafetyFramePoint (s : State) : Res := .next (if up s then periodicFrame s else s)

/-! ### The tick -/

/-- Launching the demands computed last: outlets and the stop ramps of their groups (R162, R382, R383). -/
def launchDemands (s : State) : State :=
  { s with
    saf.demand := s.saf.demandNext
    cad.groups := s.cad.groups.map fun t =>
      if gSink t.desc = 1 && 1 ≤ gTarget t.desc && gTarget t.desc ≤ 12 then
        { t with stopDemand := (nth s.saf.demandNext (gTarget t.desc - 1)).isSome } else t }

/-- The edge itself: what was computed is launched, unless the digests differed (R355, R356). -/
def launchTick (s : State) : State :=
  feedLoads [0, 1] (if s.saf.differ then compareFailed s
    else advanceFrame (launchDemands ((List.range 6).foldl launchPair s)))

/-- The evaluation of instances and demands with an acknowledged set (R358). -/
def evalInstances (s : State) : State := if safeRunning s then (instances s).foldl evalInst s else s

/-- Demands, stop bits and pair commands of the tick, for the next launch. -/
def evalOutputs (s : State) : State :=
  let bits := stopBitsNow s
  let new := (s.saf.stopBits.zip bits).any fun (x : Nat × Nat) => x.2 - (x.2 &&& x.1) != 0
  let s1 := { s with
    saf.demandNext := (List.range 12).map fun i => demandCat (outletDemands s (i + 1))
    saf.stopBits := bits
    saf.advance := s.saf.advance || new }
  (List.range 6).foldl evalPair s1

/-- One sample of each fault loop, filtered like a safe input channel (R448). -/
def sampleLoops (loops : List Bool) (s : State) : State :=
  [0, 1].foldl (fun s c =>
    if chainLen s c = 0 then s
    else
      let old := (chain s c).loop
      let new := filterChan s.cfg.stack.flpFilter s.saf.tick (nth loops c) old
      settleLoop c (raiseIf (old.value != new.value) evStkLoop (onChain c (fun h => { h with loop := new }) s))) s

/-- What the tick finds for the Kickstand causes of the safety cores (cause table: 0x0301, 0x0302). -/
def safetyCauses (s : State) : State :=
  let s1 := if hasKick s 0x0301 && 4000 ≤ s.saf.compareOk then { goneKick 0x0301 s with saf.feedStop := false } else s
  if hasKick s1 0x0302 && 4000 ≤ s1.saf.pairsOk && s1.saf.pairs.all (fun p => p.fault == 0) && !s1.ldc.tripped then
    goneKick 0x0302 s1 else s1

/-- The safety tick. -/
def safetyTick (s0 s1 : List (Bool × Bool)) (loops : List Bool) (sense : List (Nat × Nat × Nat)) (vsout : Nat) (s : State) : State :=
  let s := { s with saf.tick := s.saf.tick + 1, saf.missed := [0, 0], saf.pairsOk := s.saf.pairsOk + 1 }
  let s := { s with saf.tp := (List.range 4).map (testPulse s) }
  let s := launchTick ((List.range 6).foldl (readBack sense vsout) s)
  let s := (List.range 16).foldl (fun s i => sampleInput s0 s1 i s) s
  let s := sampleLoops loops s
  let s := (List.range 8).foldl settleConn s
  let s := (List.range 16).foldl settlePress s
  let s := evalOutputs (evalInstances s)
  let s := settleService s
  let agree := coresAgree s
  safetyCauses { s with
    saf.differ := !agree, saf.feedNext := !s.saf.feedStop, saf.compareOk := if agree then s.saf.compareOk + 1 else 0 }

/-- SAFETY_TICK (R355). -/
def execSafetyTick (s0 s1 : List (Bool × Bool)) (loops : List Bool) (sense : List (Nat × Nat × Nat)) (vsout : Nat) (s : State) : Res :=
  .next (if up s then safetyTick s0 s1 loops sense vsout s else s)

/-- FAULT_LOOP_OPEN (R448, R449). -/
def execFaultLoopOpen (c : Nat) (s : State) : Res :=
  .next (if up s && (chain s c).permit && !(chain s c).loop.value then settleService (settleLoop c s) else s)

/-- FAULT_LOOP_PERMIT_RETURN (R448). -/
def execFaultLoopPermitReturn (c : Nat) (s : State) : Res :=
  .next (if up s && !(chain s c).permit then settleLoop c s else s)

end Sys2Proof.Machine
end

