-- ==== Sys2Proof/Machine/SpokeLine.lean ====
section
/-!
DEFINITION. The symbols of a Spoke-line burst (R318 to R325): the preamble sequence, the constellations, sturdy symbols, the
interleaving of code words and the layout of each burst kind. `a` is the number of active carriers throughout. The bit
conventions that R320 leaves open are choices of log entry 25.
-/
namespace Sys2Proof.Machine

/-! ### The preamble (R320) -/

/-- `n` bits of the sequence x^11 + x^9 + 1: each is the sum of the bits 11 and 9 places before it; `r` holds the last 11,
newest first. -/
def sequenceBits : Nat → List Bool → List Bool
  | 0, _ => []
  | n + 1, r => r.getD 10 false :: sequenceBits n ((r.getD 10 false != r.getD 8 false) :: r.take 10)

/-- The first `n` bits from a register seeded with all ones. -/
def preambleBits (n : Nat) : List Bool := sequenceBits n (List.replicate 11 true)

/-- BPSK: a 1 gives phase pi. -/
def bpsk (b : Bool) : Point := { i := if b then -1 else 1 }

/-- The preamble symbol, on every active carrier in ascending order. -/
def preambleSymbol (a : Nat) : List Point := (preambleBits a).map bpsk

/-- `n` bits of the sequence after those of the preamble symbol: what fills leftover positions (R324). -/
def fillBits (a n : Nat) : List Bool := (preambleBits (a + n)).drop a

/-! ### Constellations (R320, R321) -/

/-- The number a Gray-coded bit string stands for, most significant bit first. -/
def grayValue (b : List Bool) : Nat :=
  (b.foldl (fun (x : Bool × Nat) c => (x.1 != c, 2 * x.2 + (x.1 != c).toNat)) (false, 0)).2

/-- The odd level that a Gray-coded bit string gives on one axis. -/
def axisLevel (b : List Bool) : Int := 2 * (grayValue b : Nat) - ((2 ^ b.length - 1 : Nat) : Int)

/-- The point for the bits of a carrier: silent, BPSK, or a square constellation of unit mean energy. -/
def pointOf (b : List Bool) : Point :=
  match b with
  | [] => {}
  | [c] => bpsk c
  | _ =>
    let m := b.length / 2
    { i := axisLevel (b.take m), q := axisLevel (b.drop m), norm := 2 * (4 ^ m - 1) / 3 }

/-- One symbol under a tone map: each carrier's bits in ascending order. -/
def mapSymbol : List Nat → List Bool → List Point
  | [], _ => []
  | m :: ms, b => pointOf (b.take m) :: mapSymbol ms (b.drop m)

/-- Symbols under a tone map, one after the other. -/
def mapSymbols : Nat → List Nat → List Bool → List (List Point)
  | 0, _, _ => []
  | n + 1, ms, b => mapSymbol ms b :: mapSymbols n ms (b.drop ms.sum)

/-! ### Sturdy mode (R322) -/

/-- Coded bits of a sturdy symbol. -/
def sturdyBits (a : Nat) : Nat := 2 * (a / 4)

/-- One sturdy symbol: QPSK value q on the carriers q + r * (a / 4), r = 0 to 3. -/
def sturdySymbol (a : Nat) (b : List Bool) : List Point :=
  (List.range a).map fun c => if c < 4 * (a / 4) then pointOf ((b.drop (2 * (c % (a / 4)))).take 2) else {}

/-- Sturdy symbols, one after the other. -/
def sturdySymbols : Nat → Nat → List Bool → List (List Point)
  | 0, _, _ => []
  | n + 1, a, b => sturdySymbol a b :: sturdySymbols n a (b.drop (sturdyBits a))

/-! ### Code words (R323, R324) -/

/-- Coded bits of a long code word at a rate. -/
def wordBits (rate : Nat) : Nat := if rate = 0 then 8640 else if rate = 1 then 6480 else 5184

/-- The coded bits of a code word over `len` positions: those left over repeat them from the first (R323). -/
def codedBits (rate n len : Nat) (info : Bytes) : List Bool :=
  let b := Config.ldpc rate info
  (List.range len).map fun j => b.getD (j % n) false

/-- Position c carries bit c / W of code word c mod W; the positions beyond carry the fill (R324). -/
def interleave (words : List (List Bool)) (n total : Nat) (fill : List Bool) : List Bool :=
  let w := words.length
  (List.range total).map fun c =>
    if c < w * n then (words.getD (c % w) []).getD (c / w) false else fill.getD (c - w * n) false

/-- Code words in sturdy mode, each `per` symbols long. -/
def sturdyWordsOf (a per n : Nat) (words : List Bytes) : List (List Point) :=
  let len := per * sturdyBits a
  sturdySymbols (per * words.length) a (interleave (words.map (codedBits 0 n len)) len (words.length * len) [])

/-- A sturdy burst of short code words: beacon, slots, acknowledgement, each word 5 symbols long. -/
def shortBurst (a : Nat) (words : List Bytes) : List (List Point) :=
  let p := preambleSymbol a
  p :: p :: sturdyWordsOf a 5 1920 words ++ [List.replicate a ({} : Point)]

/-- A sturdy data burst: frame control, then long code words of 23 symbols each. -/
def sturdyBurst (a : Nat) (control : Bytes) (words : List Bytes) : List (List Point) :=
  let p := preambleSymbol a
  p :: p :: sturdyWordsOf a 5 1920 [control] ++ sturdyWordsOf a 23 8640 words ++ [List.replicate a ({} : Point)]

/-- A tone-mapped burst of `symbols` payload symbols: `mods` are the bits of each active carrier. -/
def mappedBurst (a symbols rate : Nat) (mods : List Nat) (control : Bytes) (words : List Bytes) : List (List Point) :=
  let p := preambleSymbol a
  let total := symbols * mods.sum
  let n := wordBits rate
  p :: p :: sturdyWordsOf a 5 1920 [control] ++
    mapSymbols symbols mods (interleave (words.map (codedBits rate n n)) n total (fillBits a (total - words.length * n))) ++
    [List.replicate a ({} : Point)]

/-- A byte string in code words of `n` information bytes. -/
def wordsOf (n : Nat) (b : Bytes) : List Bytes := (List.range ((b.length + n - 1) / n)).map fun k => slice b (n * k) n

/-! ### Tone maps (R321) -/

/-- Coded bits of a carrier code (table of carrier modulations). -/
def codeBits (code : Nat) : Nat :=
  if code = 0 then 0 else if code = 1 then 1 else if code = 2 then 2 else if code = 3 then 4 else if code = 4 then 6 else 8

/-- The code of carrier `c` in a tone map. -/
def carrierCode (m : ToneMap) (c : Nat) : Nat := g8 m.carriers ((c - 82) / 2) / (if c % 2 = 0 then 1 else 16) % 16

/-- Coded bits per symbol under a tone map. -/
def mapBits (m : ToneMap) : Nat := (m.carriers.map fun b => codeBits (b.toNat % 16) + codeBits (b.toNat / 16)).sum

/-- The highest modulation that an SNR allows at a rate, 0.25 dB; rates 2/3 and 1/2 lower each minimum by 2 dB and 4 dB. -/
def bestCode (margin rate : Nat) (snr : Int) : Nat :=
  let ok (db : Nat) : Bool := ((4 * (db + margin) : Nat) : Int) ≤ snr + (8 * (2 - rate) : Nat)
  if ok 26 then 5 else if ok 20 then 4 else if ok 14 then 3 else if ok 8 then 2 else if ok 5 then 1 else 0

/-- The mean of a carrier's SNR over the bursts kept. -/
def meanSnr (bursts : List (List Int)) (k : Nat) : Int :=
  if bursts.isEmpty then 0 else (bursts.map fun b => b.getD k 0).sum / (bursts.length : Nat)

/-- The carrier codes at a rate from the SNR kept: 525 bytes, carrier 82 in the low nibble of the first. -/
def carrierCodes (active : Nat → Bool) (margin rate : Nat) (snr : List (List Int)) : Bytes :=
  let code (c : Nat) : Nat := if active c then bestCode margin rate (meanSnr snr (c - 82)) else 0
  (List.range 525).map fun k => BitVec.ofNat 8 (code (82 + 2 * k) + 16 * code (83 + 2 * k))

/-- Information bits per symbol of a tone map, times 6. -/
def infoBits (m : ToneMap) : Nat := (m.rate + 3) * mapBits m

/-- The tone map at the rate that gives the most information bits per symbol; the lowest of equal ones (log entry 25). -/
def bestMap (active : Nat → Bool) (margin : Nat) (snr : List (List Int)) : ToneMap :=
  let at_ (rate : Nat) : ToneMap := { rate := rate, carriers := carrierCodes active margin rate snr }
  let better (a b : ToneMap) : ToneMap := if infoBits a < infoBits b then b else a
  better (better (at_ 0) (at_ 1)) (at_ 2)

/-- Symbols of a burst whose energy lies more than 10 dB above the burst's mean (R321). -/
def impulseSymbols (energy : List Nat) : List Nat := indexes energy fun e => 10 * energy.sum < e * energy.length

end Sys2Proof.Machine
end

