-- ==== Sys2Proof/Machine/SpokeCore.lean ====
section
/-!
DEFINITION. The Spoke-line's frames and links (R318 to R326, R340 to R346, R351): headers, tags, the bursts a node sends,
the segments it queues, the grant a hub sends. Readings: log entry 25.
-/
namespace Sys2Proof.Machine

abbrev evSpkBeaconLost : Nat := 72
abbrev evSpkNodeJoined : Nat := 73
abbrev evSpkNodeLost : Nat := 74
abbrev evSpkJoinRefused : Nat := 75
abbrev evSpkZx : Nat := 76
abbrev evSpkTonemap : Nat := 77
abbrev evSpkNotice : Nat := 78
abbrev evSpkForeign : Nat := 79

/-! ### Who the part is -/

/-- The part is a node of the Spoke-line (R353). -/
def onSpoke (s : State) : Bool := 1 ≤ s.sys.role && s.sys.role ≤ 5

/-- The part is the hub of its network and not a guest: it beacons (R345). -/
def beacons (s : State) : Bool := onSpoke s && masters s && !s.cfg.spoke.guest

/-- It is the beacon master and has not been stopped under R350. -/
def isMaster (s : State) : Bool := beacons s && !s.spk.silenced

/-- The hub of a network: it decides its joins and sends its grants (R346). -/
def isHub (s : State) : Bool := onSpoke s && masters s

/-- The node holds a current beacon (R335). -/
def beaconCurrent (s : State) : Bool := isMaster s || match s.spk.missed with
  | some m => m < s.cfg.spoke.missMax
  | none => false

/-- The node counts as joined (R316, R332). -/
def isJoined (s : State) : Bool := s.env.vline && (isMaster s || (s.spk.joined && beaconCurrent s))

/-- SRC of the part's bursts (R340, R546). -/
def spkSrc (s : State) : Nat := if isMaster s || s.spk.joined then ownNode s else 255

/-- S1, symbols of a tone-mapped burst of span 1 (R325). -/
def span1 (s : State) : Nat := if s.cfg.site.nominal = 60 then 180 else 217

/-- Whether carrier `c` is active (R319). -/
def carrierOn (s : State) (c : Nat) : Bool :=
  82 ≤ c && c ≤ 1131 && !Config.excludedCarrier c && !s.cfg.spoke.notches.any fun (n : Nat × Nat) => n.1 ≤ c && c ≤ n.2

/-- The carriers that are active, ascending. -/
def carriers (s : State) : List Nat := (List.range 1132).filter (carrierOn s)

/-- The number of active carriers. -/
def activeCarriers (s : State) : Nat := (carriers s).length

/-! ### Headers, encryption and tags (R340, R344) -/

/-- The burst header of the node's next burst. -/
def burstHeader (s : State) (kind dst format : Nat) : Bytes :=
  u8 kind ++ u8 s.cfg.spoke.network ++ u8 (spkSrc s) ++ u8 dst ++ u8 format ++ u16 s.spk.burst ++ [0]

/-- The fields of a burst header. -/
def hdKind (h : Bytes) : Nat := g8 h 0
def hdNet (h : Bytes) : Nat := g8 h 1 % 4
def hdSrc (h : Bytes) : Nat := g8 h 2
def hdDst (h : Bytes) : Nat := g8 h 3
def hdIdx (h : Bytes) : Nat := g16 h 5

/-- The nonce of a code word: PERIOD, SRC, KIND, BURST_IDX, index of the code word. -/
def sealNonce (period word : Nat) (head : Bytes) : Bytes :=
  u48 period ++ slice head 2 1 ++ slice head 0 1 ++ slice head 5 2 ++ u16 word

/-- The tag over a header and what follows it. -/
def sealTag (s : State) (period word : Nat) (head text : Bytes) : Bytes :=
  slice (Config.gcmTag (networkKey s byApplication) (sealNonce period word head) (head ++ text)) 0 8

/-- A received tag is that of its header and what follows it. -/
def sealRight (s : State) (period word : Nat) (head text tag : Bytes) : Bool :=
  networkKey s byApplication != [] && slice tag 0 8 == sealTag s period word head text

/-- Encryption, which is also decryption. -/
def crypt (s : State) (period word : Nat) (head text : Bytes) : Bytes :=
  List.zipWith (· ^^^ ·) text (slice (Config.gcmStream (networkKey s byApplication) (sealNonce period word head) text.length) 0 text.length)

/-- A text encrypted, with its tag. -/
def sealed (s : State) (period word : Nat) (head text : Bytes) : Bytes :=
  crypt s period word head text ++ sealTag s period word head (crypt s period word head text)

/-! ### Bursts out (R316, R325) -/

/-- A burst goes out: its BURST_IDX is used up. `backoff` is what the link's tone map takes off the level, dB. -/
def putBurst (kind backoff : Nat) (b : Bytes) (symbols : List (List Point)) (s : State) : State :=
  { s with
    spk.sent := { kind := kind, bytes := b, level := -55 - ((s.cfg.spoke.txAtten + backoff : Nat) : Int), symbols := symbols } ::
      s.spk.sent
    spk.burst := s.spk.burst + 1 }

/-- A burst of short code words whose bytes stand as they are sent. -/
def putShort (kind words : Nat) (b : Bytes) (s : State) : State :=
  putBurst kind 0 b (shortBurst (activeCarriers s) (wordsOf 120 (slice b 0 (120 * words)))) s

/-- A beacon or an acknowledgement: authenticated only. -/
def sendClear (kind dst words : Nat) (text : Bytes) (s : State) : State :=
  let h := burstHeader s kind dst 0
  putShort kind words (h ++ text ++ sealTag s s.spk.period 0 h text) s

/-- A slot: encrypted and authenticated. -/
def sendSlot (kind dst words : Nat) (text : Bytes) (s : State) : State :=
  let h := burstHeader s kind dst 0
  putShort kind words (h ++ sealed s s.spk.period 0 h text) s

/-- The same contents as an Ethernet frame (R351). -/
def sendEth (kind dst : Nat) (text : Bytes) (s : State) : State :=
  let h := burstHeader s kind dst 0
  { s with
    spk.eth := s.spk.eth ++ [{ vid := s.cfg.spoke.islandVid, pcp := 6, etherType := 0x88B5, payload := h ++ sealed s s.spk.period 0 h text }]
    spk.burst := s.spk.burst + 1 }

/-! ### Links and segments (R326, R342) -/

/-- The link to a peer; a new one where there is none. Peer 0xFF stands for broadcasts. -/
def spkLink (s : State) (peer : Nat) : SpkLink := (s.spk.links.find? fun l => l.peer == peer).getD { peer := peer }

/-- Changing the link to a peer, made where there is none. -/
def onSpkLink (peer : Nat) (f : SpkLink → SpkLink) (s : State) : State :=
  { s with
    spk.links := if s.spk.links.any fun l => l.peer == peer then s.spk.links.map fun l => if l.peer == peer then f l else l
      else s.spk.links ++ [f { peer := peer }] }

abbrev lsBursts : Nat := 0
abbrev lsWords : Nat := 1
abbrev lsFailed : Nat := 2
abbrev lsImpulse : Nat := 3
abbrev lsResent : Nat := 4
abbrev lsDropped : Nat := 5
abbrev lsSlots : Nat := 6
abbrev lsBeacons : Nat := 7

/-- Adding to a counter of a link (R353). -/
def spkCount (peer i n : Nat) (s : State) : State :=
  onSpkLink peer (fun l => { l with stats := upd l.stats i fun c => (c + n) % 2 ^ 32 }) s

abbrev macJoin : Nat := 1
abbrev macNotice : Nat := 2
abbrev macToneMap : Nat := 3
abbrev macRequest : Nat := 4
abbrev macStatistics : Nat := 5
abbrev macDecision : Nat := 6
abbrev macBridged : Nat := 0x10

/-- The segments of a MAC frame, as far as `fuel` segments (R342). -/
def segments (fuel prio : Nat) (first : Bool) (b : Bytes) : List Segment :=
  match fuel with
  | 0 => []
  | fuel + 1 =>
    let d := b.take 520
    let last := b.length ≤ 520
    { prio := prio, ctrl := d.length + (if first then 16384 else 0) + (if last then 32768 else 0), data := d } ::
      (if last then [] else segments fuel prio false (b.drop 520))

/-- The segment begins a MAC frame. -/
def segFirst (x : Segment) : Bool := bit x.ctrl 14

/-- Segments put into a queue: before the first frame of a lower priority that has not been begun (table of priorities). -/
def enqueue (new : List Segment) (prio : Nat) : List Segment → List Segment
  | [] => new
  | x :: xs => if segFirst x && x.seq.isNone && x.prio < prio then new ++ x :: xs else x :: enqueue new prio xs

/-- A MAC frame queued to a peer (R335, R342). -/
def queueFrame (peer prio type : Nat) (data : Bytes) (s : State) : State :=
  onSpkLink peer (fun l =>
    let b := u16 type ++ data
    { l with queue := enqueue (segments (b.length / 520 + 1) prio true b) prio l.queue }) s

/-- A frame of a type waits to be sent to a peer, or for its acknowledgement. -/
def frameWaits (s : State) (peer : Nat) (types : List Nat) : Bool :=
  let l := spkLink s peer
  (l.queue ++ l.sent.map (·.2)).any fun x => segFirst x && types.contains (g16 x.data 0)

/-! ### Grants (grant table, chapter 09) -/

/-- The grant of an outlet as the hub sends it in the running epoch. -/
def grantBytes (s : State) (n : Nat) : Bytes :=
  let g := nth s.alc.grants (n - 1)
  let dir := match groupOf s n with
    | some i => if (group s i).hold then 2 else g.dir
    | none => g.dir
  let st := match groupOf s n with | some i => groupCode s i | none => 0
  u8 n ++ u8 dir ++ u8 g.limit ++ u8 st ++ u16 (min g.p 65535) ++ u16 (min g.i 65535) ++
    u32 (s.alc.epoch % 2 ^ 32) ++ [0, 0, 0, 0]

/-- The remote outlets of the hub's network, ascending. -/
def remoteOutlets (s : State) : List Nat := (outlets s).filter fun n => outPost (outCfg s n) != 0

/-- GRANTS of a hub slot (R332). -/
def grantBlock (s : State) : Bytes := slice ((remoteOutlets s).flatMap (grantBytes s)) 0 192

/-- REQ_A and REQ_B of a node slot (R332). -/
def requestBlock (s : State) : Bytes := slice (ses s 0).sent 0 32 ++ slice (ses s 1).sent 0 32

/-- The periodic safety frame is due in a slot: handed over a safety tick or more ago, and not sent yet (R333). -/
def safeDue (s : State) : Bytes := if s.saf.frameTick < s.saf.tick then s.saf.frame else []

/-- SAFE_LEN and SAFE of a slot (R332, R333). -/
def safeBlock (s : State) (room : Nat) : Bytes := u8 ((safeDue s).take room).length ++ slice (safeDue s) 0 room

/-- The slot payload after its header, without its tag. -/
def slotText (s : State) : Bytes :=
  if isHub s then grantBlock s ++ safeBlock s 151 else requestBlock s ++ safeBlock s 39

/-- The hub's grants on ETH0 (R351). -/
def sendGrantsEth (s : State) : State := sendEth 0x12 255 (grantBlock s) s

/-- A post's requests on ETH0 (R351). -/
def sendRequestsEth (s : State) : State := sendEth 0x13 255 (requestBlock s) s

/-- The node a part sends its own network's MAC frames to (R346): the hub of the network, the accepted master for a guest
hub. -/
def upstream (s : State) : Nat := if isHub s then (match s.spk.master with | some m => m.1 | none => 255)
  else match s.spk.master with
    | some m => if m.1 / 8 = s.cfg.spoke.network then m.1 else 8 * s.cfg.spoke.network
    | none => 8 * s.cfg.spoke.network

end Sys2Proof.Machine
end

