-- ==== Sys2Proof/Machine/SessionCore.lean ====
section
/-!
DEFINITION. A session (chapter 09): what the hub is told, contactors, welding detection, how a session ends.
-/
namespace Sys2Proof.Machine

abbrev evSesState : Nat := 48
abbrev evSesAuthRequest : Nat := 49
abbrev evSesEnd : Nat := 50
abbrev evSesWeld : Nat := 51
abbrev evSesCableCheck : Nat := 52
abbrev evSesHubLost : Nat := 53
abbrev evSesRenegotiation : Nat := 54
abbrev evSesForcedOpen : Nat := 55

/-! ### Grants (R224) -/

/-- The grant in force on an outlet, empty before the first. -/
def slotGrant (s : State) (slot : Nat) : Bytes := ((ses s slot).grant).getD []

/-- The hub's group serves the outlet: GROUP_STATE 1 or 2 (R229). -/
def granting (s : State) (slot : Nat) : Bool := grState (slotGrant s slot) == 1 || grState (slotGrant s slot) == 2

/-! ### Contactors (R229, R230) -/

/-- A safety function or a fault holds one of the outlet's pairs off (R229). -/
def pairsHeld (s : State) (slot : Nat) : Bool :=
  [seSoPos (sesCfg s slot), seSoNeg (sesCfg s slot)].any fun n =>
    !(pairDemands s n).isEmpty || (pairOf s n).fault != 0 || !safeRunning s || !s.env.vsout

/-- A contactor of the outlet may close (R229). The post-check runs whether or not the connector is present (R232), so it
does not ask for the pilot state (log entry 24). -/
def mayClose (s : State) (slot : Nat) : Bool :=
  (vehicleEnables s slot || (ses s slot).state == 11) && !kicked s && !pairsHeld s slot && granting s slot

/-- The contactors commanded: both pairs requested accordingly, the state not yet confirmed (R230). -/
def command2 (slot : Nat) (pos neg : Bool) (s : State) : State :=
  onSes slot (fun x => { x with
      pos := pos, neg := neg, want := none, confirmed := false, cmdTick := s.saf.tick, closed := x.closed || pos || neg })
    (requestPair (seSoPos (sesCfg s slot)) pos (requestPair (seSoNeg (sesCfg s slot)) neg s))

/-- What waits for a switching window is commanded, where it may be (R229). -/
def driveWant (slot : Nat) (s : State) : State :=
  match (ses s slot).want with
  | none => s
  | some (p, n) =>
    let closes := (p && !(ses s slot).pos) || (n && !(ses s slot).neg)
    if closes && !mayClose s slot then s else command2 slot p n s

/-- Contactor states wanted: at the next switching window; at once in peloton mode (R229, R517). -/
def wantContacts (slot : Nat) (pos neg : Bool) (s : State) : State :=
  let s1 := onSes slot (fun x => { x with want := some (pos, neg) }) s
  if s.sys.role = 6 then driveWant slot s1 else s1

/-- Both contactors of the outlet open, and that confirmed. -/
def openNow2 (x : Session) : Bool := !x.pos && !x.neg && x.confirmed

/-! ### The end of a session (R232, R238 to R242) -/

/-- The post-check is deferred (R232). -/
def defersCheck (x : Session) : Bool :=
  match x.stop with
  | some .safety | some .kickstand | some .interrupted => true
  | _ => false

/-- ENDED: the traffic secrets erased, the connector to be removed before another session (R222, R245). -/
def toEnded (slot : Nat) (s : State) : State :=
  raise evSesState (onLink slot (fun l => { l with tls := false, tlsVersion := 0 })
    (onSes slot (fun x => { x with state := 12, mode := 0, waiting := false, stop := none, weld := .none, leave := true, renegDue := false }) s))

/-- A deferred post-check: the outlet is flagged (R232). -/
def deferCheck (slot : Nat) (s : State) : State :=
  raise evSesWeld { s with
    nvOut.unchecked := s.nvOut.unchecked.set slot true
    ses := upd s.ses slot fun x => { x with post1 := { outcome := 4 } } }

/-- Both contactors of a stopped session are confirmed open: its record closes, and the post-check follows, is deferred, or
is not needed where no contactor closed (R232, R235). -/
def stopped (slot : Nat) (s : State) : State :=
  let x := ses s slot
  let s1 := closeSessionRec slot s
  if !x.closed then toEnded slot s1
  else if defersCheck x then toEnded slot (deferCheck slot s1)
  else wantContacts slot false true (onSes slot (fun x => { x with state := 11, mode := 1, weld := .one, stop := none }) s1)

/-- The stop has opened its contactors, or had none to open. -/
def settleStopped (slot : Nat) (s : State) : State :=
  if (ses s slot).state = 10 && openNow2 (ses s slot) then stopped slot s else s

/-- Opening outside a window (table of stop classes). -/
def openAtOnce (slot : Nat) (s : State) : State :=
  if (ses s slot).pos || (ses s slot).neg then command2 slot false false s
  else onSes slot (fun x => { x with want := none }) s

/-- Opening in a switching window. -/
def openInWindow (slot : Nat) (s : State) : State :=
  if (ses s slot).pos || (ses s slot).neg then wantContacts slot false false s
  else onSes slot (fun x => { x with want := none }) s

/-- The contactors of a stop open under current (R239). -/
def forcedOpen (slot : Nat) (s : State) : State :=
  raise evSesForcedOpen (record (unstatedCode 5 0) srcPilot (u8 slot ++ u32 (outletAmps s slot))
    (onSes slot (fun x => { x with forced := true }) s))

/-- The opening of a stop at current zero: orderly in a window, urgent at once (table of stop classes). -/
def settleOpen (slot : Nat) (s : State) : State :=
  let x := ses s slot
  if x.state != 10 || x.lowRun < 3 || (!x.pos && !x.neg) then s
  else match x.stop with
    | some .orderly => if x.want.isSome then s else openInWindow slot s
    | some .urgent => openAtOnce slot s
    | _ => s

/-- The stop of an end cause is sent to the vehicle where it can be (R240). -/
def notify (slot code : Nat) (s : State) : State :=
  match stopNotice (link s slot) code with
  | some n => onSes slot (fun x => { x with notice := some n }) s
  | none => s

/-- A session ends in state 0x02 to 0x04: straight to ENDED (R222). -/
def endEarly (slot code : Nat) (s : State) : State :=
  toEnded slot (raise evSesEnd (notify slot code (onSes slot (takeCode code) s)))

/-- A stop begins, or a cause of higher precedence changes its class (R240, R241). -/
def beginStop (slot code : Nat) (s : State) : State :=
  let s1 := raise evSesEnd (notify slot code (onSes slot (fun x =>
    { takeCode code x with
      state := 10, mode := 6, stop := some (classOf code), weld := .none
      want := if x.state = 10 then x.want else none }) s))
  settleStopped slot (settleOpen slot s1)

/-- A cause that changes nothing is recorded (R241). -/
def noteCause (slot code : Nat) (s : State) : State :=
  record (unstatedCode 5 1) srcPilot (u8 slot ++ u8 code) (onSes slot (fun x => { x with noted := x.noted ++ [code] }) s)

/-- One end cause on an outlet, in whatever state it is (R222, R241, R242). -/
def endCause (slot code : Nat) (s : State) : State :=
  let x := ses s slot
  if x.state < 2 || 12 ≤ x.state || x.noted.contains code then s
  else if x.state ≤ 4 then endEarly slot code s
  else if x.state ≤ 9 then beginStop slot code s
  else if x.state = 10 then (if prevails code x.endCode then beginStop slot code s else noteCause slot code s)
  else match classOf code with
    | .safety | .kickstand | .interrupted =>
      let s1 := onSes slot (fun x => { x with
        noted := x.noted ++ [code], state := 10, mode := 6, stop := some (classOf code), weld := .none, want := none }) s
      settleStopped slot s1
    | _ => s

/-- The causes of one step: the one of highest precedence sets the class, the others are recorded (R241). -/
def endCauses (slot : Nat) (causes : List Nat) (s : State) : State :=
  let l := endOrder.filter causes.contains
  l.foldl (fun s c => endCause slot c s) s

/-! ### Welding detection (R231, R232) -/

/-- A weld test begins: DC- alone in the next window. -/
def startWeld (slot : Nat) (s : State) : State :=
  wantContacts slot false true (onSes slot (fun x => { x with weld := .one }) s)

/-- The check of the present state: the pre-check, or the post-check. -/
def onCheck (f : WeldCheck → WeldCheck) (x : Session) : Session :=
  if x.state = 5 then { x with pre1 := f x.pre1 } else { x with post1 := f x.post1 }

/-- A weld found: both contactors open, the weld latched, the outlet UNAVAILABLE; a pre-check weld ends the session with
0x09 (R232). -/
def weldFound (slot which : Nat) (s : State) : State :=
  let pre := (ses s slot).state = 5
  let s1 := onSes slot (onCheck fun c => { c with outcome := which }) s
  let s2 := { s1 with nvOut.weld := s1.nvOut.weld.set slot true }
  let s3 := if pre then raise evSesEnd (notify slot 0x09 (onSes slot (takeCode 0x09) s2)) else s2
  raise evSesWeld (openAtOnce slot (onLink slot (fun l => { l with tls := false, tlsVersion := 0 })
    (onSes slot (fun x => { x with state := 0, mode := 0, weld := .none, stop := none, leave := true }) s3)))

/-- V_CC: the lesser of the vehicle's maximum voltage and the outlet's rating, 0.1 V (R233). -/
def checkVolts (s : State) (slot : Nat) : Nat :=
  min (match (ses s slot).loop with | some l => l.vMax | none => 10 * ratedVolts s slot) (10 * ratedVolts s slot)

/-- The weld test is passed: CABLE_CHECK with both contactors to close, or the end of the post-check (R232, R233). -/
def weldPassed (slot : Nat) (s : State) : State :=
  let s1 := onSes slot (fun x => { onCheck (fun c => { c with outcome := 1 }) x with weld := .none }) s
  if (ses s slot).state = 5 then
    wantContacts slot true true { s1 with
      nvOut.unchecked := s1.nvOut.unchecked.set slot false
      ses := upd s1.ses slot fun x => { x with
        state := 6, mode := 2, vcc := checkVolts s slot, isoDone := false, imdNear := 0, imdMs := 0, imdLow := none } }
  else openInWindow slot s1

/-- A weld-test step is read (R231), in 0.1 V: the vehicle-side voltage with DC- closed, the magnitude of the voltage across the
DC- pole with DC+ closed. -/
def weldRead (slot : Nat) (s : State) : State :=
  let v := seVwt (sesCfg s slot)
  match (ses s slot).weld with
  | .oneSettled =>
    let reading := vehicleVolts s slot
    let s1 := onSes slot (onCheck fun c => { c with step1 := reading }) s
    if reading < v then wantContacts slot true false (onSes slot (fun x => { x with weld := .two }) s1)
    else weldFound slot 2 s1
  | .twoSettled =>
    let reading := poleVolts s slot
    let s1 := onSes slot (onCheck fun c => { c with step2 := reading }) s
    if 5 * v ≤ reading then weldPassed slot s1 else weldFound slot 3 s1
  | _ => s

/-- The mirror contacts have shown the commanded state for 3 consecutive safety ticks, closed for an open main contact: channel A
that of DC+, channel B that of DC-, each evaluated alone (R225, R230). -/
def mirrorShows (s : State) (slot : Nat) : Bool :=
  let m := nth s.saf.inputs (seMirror (sesCfg s slot))
  seMirror (sesCfg s slot) != 255 && m.a.raw == !(ses s slot).pos && 3 ≤ m.a.run && m.b.raw == !(ses s slot).neg && 3 ≤ m.b.run

/-- 50 ms, 200 safety ticks, have passed since the contactor command (R230). -/
def commandOld (s : State) (slot : Nat) : Bool := (ses s slot).cmdTick + 200 ≤ s.saf.tick

/-- A commanded contactor state is confirmed (R230, R231, R235). -/
def contactConfirmed (slot : Nat) (s : State) : State :=
  let x := ses s slot
  if x.confirmed then s
  else
    let s1 := onSes slot (fun x => { x with confirmed := true }) s
    if (x.state = 5 || x.state = 11) && x.weld = .one && x.neg then onSes slot (fun x => { x with weld := .oneSettled }) s1
    else if (x.state = 5 || x.state = 11) && x.weld = .two && x.pos then onSes slot (fun x => { x with weld := .twoSettled }) s1
    else if x.state = 6 && x.pos && x.neg then openSessionRec slot s1
    else if x.state = 10 then settleStopped slot s1
    else if x.state = 11 && !x.pos && !x.neg then toEnded slot s1
    else s1

/-! ### What the vehicle is shown (R224, R237, R238) -/

/-- The grant's ceilings and the outlet's ratings; a maximum current of 0 in a direction hold. -/
def supplyLimits (s : State) (slot : Nat) : SupplyLimits :=
  { power := grP (slotGrant s slot), current := if (ses s slot).state = 9 then 0 else grI (slotGrant s slot)
    ratedVolts := ratedVolts s slot, ratedAmps := ratedAmps s slot }

/-- The session is under schedule renegotiation (R237). -/
def renegotiates (s : State) (slot : Nat) : Bool := (link s slot).protocol == 3 && !(ses s slot).dynamic

/-- A loop response: with the limits in dynamic mode, under ISO 15118-2 and DIN SPEC 70121 (R237), and in a direction hold, where
the vehicle is shown a current of 0 (R238). -/
def loopAnswer (s : State) (slot : Nat) : VehicleAnswer :=
  .loop (if renegotiates s slot && (ses s slot).state != 9 then none else some (supplyLimits s slot)) (supplyVolts s slot)

/-! ### The outlet request (R223) -/

/-- V_MAX in modes 1 to 3: the test voltage, V_CC, the precharge target, 0.1 V. -/
def testVolts (s : State) (slot : Nat) : Nat :=
  let x := ses s slot
  if x.mode = 1 then 10 * seVwt (sesCfg s slot) else if x.mode = 2 then x.vcc else x.vTarget

/-- The power of the schedule entry in force, by its interval from the session start, or the dynamic-mode maximum, kW; 0xFFFF for
none (R117, R223). -/
def schedPower (s : State) (slot : Nat) : Nat :=
  let x := ses s slot
  if x.dynamic || x.schedule.isEmpty then (match x.loop with | some l => l.pSched | none => 0xFFFF)
  else match (x.schedule.filter fun (e : Nat × Nat) => x.start + e.1 ≤ s.nv.opSeconds).getLast? with
    | some e => e.2
    | none => 0xFFFF

/-- The outlet request of a local outlet. -/
def outletRequest (s : State) (slot : Nat) : Bytes :=
  let x := ses s slot
  let l : VehicleLoop := x.loop.getD { iTarget := 0, iMax := 0, vMax := 0, pMax := 0, pSched := 0xFFFF, pDisch := 0, departS := 0xFFFFFFFF, bidirectional := false }
  let test := 1 ≤ x.mode && x.mode ≤ 3
  let i := sePrechargeI (sesCfg s slot)
  u8 (outletOf s slot) ++ u8 x.state ++ u8 x.mode ++ u8 x.cls ++ u16 (if test then i else l.iTarget) ++
    u16 (if test then i else l.iMax) ++ u16 (if test then testVolts s slot else l.vMax) ++ u16 (if test then 1 else l.pMax) ++
    u16 (schedPower s slot) ++ u16 l.pDisch ++ u32 l.departS ++ u16 (nth s.heat.out slot).ceil ++ u16 (vehicleVolts s slot) ++
    u32 (nth s.nvOut.counter slot) ++
    u8 ((if l.bidirectional then 1 else 0) + (if (nth s.heat.out slot).stop then 2 else 0)) ++ [0, 0, 0]

/-- The outlet request as it stands is sent: inside the part where the part allocates; by a post when a field has changed,
on ETH0 and in the contention region, at P3 where it carries a local stop demand, and on ETH0 at least every 20 ms (R223,
R334, R335, R351). -/
def sendRequest (slot : Nat) (s : State) : State :=
  let b := outletRequest s slot
  let changed := b != (ses s slot).sent
  let s1 := onSes slot (fun x => { x with sent := b, sentMs := if changed || 19 ≤ x.sentMs then 0 else x.sentMs + 1 }) s
  if s.sys.role != 2 then deliverRequest b s1
  else if changed then queueFrame (upstream s1) (if bit (g8 b 28) 1 then 3 else 2) macRequest b (sendRequestsEth s1)
  else if 19 ≤ (ses s slot).sentMs then sendRequestsEth s1
  else s1

/-! ### Grants and the direction hold (R224, R238) -/

/-- A renegotiation raised (R237). -/
def raiseReneg (slot : Nat) (s : State) : State :=
  raise evSesRenegotiation (onSes slot (fun x => { x with
    reneg := some s.nv.opSeconds, renegDue := false, notice := some .renegotiate }) s)

/-- The direction of a mode. -/
def modeDir (mode : Nat) : Nat := if mode = 5 then 1 else 0

/-- A grant accepted (R224, R238, R243). -/
def takeGrant (slot : Nat) (b : Bytes) (s : State) : State :=
  let s1 := { onSes slot (fun x => { x with grant := some b, granted := x.granted || 0 < grI b }) s with grantAge := some 0 }
  let s2 := if hasKick s1 0x0602 then raise evSesHubLost (goneKick 0x0602 s1) else s1
  if (ses s2 slot).state = 9 && grDirection b = modeDir (ses s2 slot).mode then
    let s3 := raise evSesState (onSes slot (fun x => { x with state := 8 }) s2)
    if (ses s3 slot).renegDue then raiseReneg slot s3 else s3
  else s2

/-- A grant as it arrives: accepted where its EPOCH is newer (R224). -/
def receiveGrant (b : Bytes) (s : State) : State :=
  match slotOf s (grOutlet b) with
  | none => s
  | some slot =>
    match (ses s slot).grant with
    | some g => if newer 32 (grEpoch b) (grEpoch g) then takeGrant slot b s else s
    | none => takeGrant slot b s

end Sys2Proof.Machine
end

