-- ==== Sys2Proof/Machine/Session.lean ====
section
/-!
DEFINITION. The session sequencer (chapter 09): its 1 ms step, the vehicle's requests, its timers, grants and the OUT_
session commands. Readings: log entry 24.
-/
namespace Sys2Proof.Machine

/-! ### The 1 ms step (R221) -/

/-- The outlet is held UNAVAILABLE when it has no session (session state table). -/
def unavailable (s : State) (slot : Nat) : Bool :=
  (ses s slot).avail != 1 || !maySession s || kicked s || nth s.nvOut.weld slot || (link s slot).test.isSome

/-- A new session: a connector confirmed (R222, R246). -/
def startSession (slot : Nat) (s : State) : State :=
  let s1 := { s with
    nvOut.counter := upd s.nvOut.counter slot fun n => (n + 1) % 2 ^ 32
    links := upd s.links slot fun l => { l with protocol := 0, port := 0, fault := false, answer := none } }
  raise evSesState (onSes slot (fun x => { ({} : Session) with
    state := 2, avail := x.avail, pre := x.pre, start := s.nv.opSeconds, confirmed := x.confirmed, cmdTick := x.cmdTick
    pre1 := x.pre1, post1 := x.post1, vcc := x.vcc, iso := x.iso, isoOutcome := x.isoOutcome
    grant := x.grant, sent := x.sent, lowRun := x.lowRun }) s1)

/-- The states without a session: UNAVAILABLE, IDLE and ENDED (session state table, R222). -/
def settleIdle (slot : Nat) (s : State) : State :=
  let put (n : Nat) (s : State) : State := onSes slot (fun x => { x with state := n, mode := 0 }) s
  let s1 := if absent s slot then onSes slot (fun x => { x with leave := false }) s else s
  let free := if (ses s1 slot).leave then put 12 s1 else put 1 s1
  match (ses s1 slot).state with
  | 0 => if unavailable s1 slot then s1 else free
  | 1 => if unavailable s1 slot then put 0 s1 else if connected s1 slot && !absent s1 slot then startSession slot s1 else s1
  | 12 => if unavailable s1 slot then put 0 s1 else free
  | _ => s1

/-- The data link of the session has gone down, once a protocol is in use. -/
def linkLost (s : State) (slot : Nat) : Bool := 3 ≤ (ses s slot).state && !(link s slot).up

/-- The vehicle has withdrawn, or the connector is no longer latched (end cause 0x05). -/
def withdrawn (s : State) (slot : Nat) : Bool :=
  let x := ses s slot
  if x.state ≤ 4 then absent s slot
  else x.state ≤ 9 && ((x.seen && !vehicleEnables s slot) || (link s slot).prox.value == 2 || absent s slot)

/-- Causes that the step's inputs show (R240). -/
def stepCauses (s : State) (slot : Nat) (protocolError : Bool) : List Nat :=
  let x := ses s slot
  let d := (pairDemands s (seSoPos (sesCfg s slot)) ++ pairDemands s (seSoNeg (sesCfg s slot))).map (·.1)
  let out := if outletOf s slot = 0 then none else nth s.saf.demand (outletOf s slot - 1)
  x.causes ++
    (if d.contains 0 || out == some 0 then [0x0D] else []) ++
    (if d.contains 1 || out == some 1 then [0x0C] else []) ++
    (if (nth s.heat.out slot).stop && x.state ≤ 9 then [0x0B] else []) ++
    (if x.granted && (grState (slotGrant s slot) == 5 || 1000 ≤ x.bare) then [0x0F] else []) ++
    (if (link s slot).fault then [0x06] else []) ++
    (if withdrawn s slot then [0x05] else []) ++
    (if protocolError || linkLost s slot then [0x04] else []) ++
    (if x.avail == 2 then [0x02] else [])

/-- What the step keeps of its inputs: vehicle enable seen, precharge come near, stages withdrawn, queued causes taken. -/
def stepInputs (slot : Nat) (s : State) : State :=
  let g := slotGrant s slot
  let bare := g8 g 2 == 4 && grP g == 0 && grI g == 0
  onLink slot (fun l => { l with fault := false }) (onSes slot (fun x => { x with
    causes := []
    seen := x.seen || (5 ≤ x.state && x.state ≤ 9 && vehicleEnables s slot)
    near := x.near || (x.state == 7 && decide (((supplyVolts s slot : Int) - x.vTarget).natAbs ≤ 200))
    bare := if bare then x.bare + 1 else 0 }) s)

/-- A safety stop has switched a contactor pair off: both contactors are commanded open (table of stop classes). -/
def followSafety (slot : Nat) (s : State) : State :=
  let x := ses s slot
  if x.stop == some .safety && ((x.pos && !(pairOf s (seSoPos (sesCfg s slot))).request) ||
      (x.neg && !(pairOf s (seSoNeg (sesCfg s slot))).request)) then command2 slot false false s
  else s

/-- The pilot or charge-enable drive of a state (session state table). -/
def driveFor (s : State) (slot : Nat) : Nat :=
  let x := ses s slot
  let st := x.state
  let on := (2 ≤ st && st ≤ 9) || (st == 10 && !openNow2 x)
  if linkType s slot = lkMcs then (if 2 ≤ st && st ≤ 10 then driveX1 else driveOff)
  else if st == 0 && nth s.nvOut.weld slot then driveF
  else if on then driveX2 else driveX1

/-- The lowest local slot, whose step also counts what the part has once. -/
def firstSlot (s : State) (slot : Nat) : Bool := ([0, 1, 2].find? (localSlot s)) == some slot

/-- HUB_TIMEOUT of the part: the shortest of its outlets, ms. -/
def hubTimeout (s : State) : Nat :=
  (([0, 1, 2].filter (localSlot s)).map fun k => seHubTimeout (sesCfg s k)).foldl min 1000

/-- The hub is lost (R243). -/
def settleHub (s : State) : State :=
  match s.grantAge with
  | some a =>
    if s.sys.role = 2 && hubTimeout s ≤ a && !hasKick s 0x0602 && s.cfg.links != [] then
      raise evSesHubLost (enterKick 0x0602 s)
    else s
  | none => s

/-- Contactors that wait need no window in peloton mode, or after 60 s without a beacon, where each operation is recorded
(R229, R339, R517). -/
def settleWant (slot : Nat) (s : State) : State :=
  if s.sys.role = 6 then driveWant slot s
  else if s.spk.noWindows then
    let s1 := driveWant slot s
    recordIf ((ses s slot).want.isSome && (ses s1 slot).want.isNone) (unstatedCode 8 1) srcPilot (u8 slot) s1
  else s

/-- The end of the 50 ms without the mirror's confirmation (R230): both contactors are commanded open and the session ends with
0x0A; a post-check ends with it. Without a mirror contact the state is confirmed then. -/
def contactLate (slot : Nat) (s : State) : State :=
  if seMirror (sesCfg s slot) = 255 then contactConfirmed slot s
  else if (ses s slot).state = 11 then
    toEnded slot (raise evSesEnd (notify slot 0x0A (onSes slot (takeCode 0x0A) (command2 slot false false s))))
  else endCause slot 0x0A (command2 slot false false s)

/-- What the mirror contacts and the 50 ms say of a contactor command that is not confirmed (R230). -/
def settleContacts (slot : Nat) (s : State) : State :=
  if (ses s slot).confirmed then s
  else if mirrorShows s slot then contactConfirmed slot s
  else if commandOld s slot then contactLate slot s
  else s

/-- The insulation resistance on IMD_CHANNEL, kOhm: IMD_SCALE, in 10 kOhm, at full scale of the modulator (R225, R233). -/
def insulation (s : State) (slot : Nat) : Nat :=
  (corrected s (seImdChannel (sesCfg s slot))).toNat * (10 * seImdScale (sesCfg s slot)) / 2 ^ 24

/-- The supply side is within 2 % of V_CC (R233). -/
def nearCheckVolts (s : State) (slot : Nat) : Bool :=
  let v := (ses s slot).vcc
  decide (50 * ((supplyVolts s slot : Int) - v).natAbs ≤ v)

/-- One ms of a cable check (R233): the settle period starts once the supply side has been near V_CC for 100 ms; the lowest
resistance of its last 500 ms is kept. -/
def countImd (slot : Nat) (s : State) : State :=
  let x := ses s slot
  if !(x.state == 6 && !x.isoDone && x.confirmed && x.pos && x.neg) then s
  else if x.imdNear < 100 then onSes slot (fun x => { x with imdNear := if nearCheckVolts s slot then x.imdNear + 1 else 0 }) s
  else
    let k := insulation s slot
    onSes slot (fun x => { x with
      imdMs := x.imdMs + 1
      imdLow := if x.imdMs + 500 < seImdSettle (sesCfg s slot) then none
        else some (match x.imdLow with | some l => min l k | none => k) }) s

/-- The settle period is over and its reading not yet judged. -/
def imdDue (s : State) (slot : Nat) : Bool :=
  let x := ses s slot
  x.state == 6 && !x.isoDone && x.imdLow.isSome && seImdSettle (sesCfg s slot) ≤ x.imdMs

/-- The outcome of a cable check, by its reading in kOhm and V_CC in 0.1 V (table of cable-check outcomes): 0 valid, 1 warning,
2 fault. -/
def checkOutcome (vcc kohm : Nat) : Nat := if 500 * vcc ≤ kohm * 10000 then 0 else if 100 * vcc ≤ kohm * 10000 then 1 else 2

/-- The lowest reading is judged against V_CC (R233). -/
def judgeImd (slot : Nat) (s : State) : State :=
  let k := (ses s slot).imdLow.getD 0
  let vcc := (ses s slot).vcc
  let o := checkOutcome vcc k
  let s1 := onSes slot (fun x => { x with iso := k, isoDone := o != 2, isoOutcome := o }) s
  if o = 0 then s1
  else if o = 1 then raise evSesCableCheck (record (unstatedCode 5 2) srcPilot (u8 slot ++ u16 vcc ++ u32 k) s1)
  else endCause slot 0x07 (raise evSesCableCheck s1)

/-- The reading is judged where it is due. -/
def settleImd (slot : Nat) (s : State) : State := if imdDue s slot then judgeImd slot s else s

/-- SESSION_SEQUENCER_STEP (R221, R230, R233, R241): contactors confirmed, the causes of the step, the cable check, then stops,
availability, drive and the outlet request. -/
def execSessionSequencerStep (slot : Nat) (protocolError : Bool) (s : State) : Res :=
  .next (
    if !(up s && localSlot s slot) then s
    else
      let s1 := if firstSlot s slot then settleHub { s with grantAge := s.grantAge.map (· + 1) } else s
      let s2 := settleContacts slot (stepInputs slot s1)
      let s3 := settleImd slot (countImd slot (endCauses slot (stepCauses s1 slot protocolError) s2))
      let s4 := settleIdle slot (settleStopped slot (followSafety slot (settleWant slot (settleOpen slot s3))))
      sendRequest slot (onLink slot (fun l => { l with driveNext := driveFor s4 slot }) s4))

/-! ### The vehicle's requests -/

/-- A message on the outlet's data link is vehicle traffic: on a bridged outlet, a frame on ETH1 with BRIDGE_VID (R213). -/
def vehicleTraffic (s : State) (slot : Nat) (vid : Option Nat) : Bool :=
  linkType s slot != lkBridged || vid == some (lkVid (linkCfg s slot))

/-- The MAC address of an outlet's link: from the device identity digest and the slot, locally administered and unicast (R214). -/
def outletMac (s : State) (slot : Nat) : Bytes :=
  let m := slice (Config.vehicleMac (identity s) slot) 0 6
  u8 (g8 m 0 / 4 * 4 + 2) ++ slice m 1 5

/-- The link-local IPv6 address formed from a MAC address. PRESUMED (log entry 36): the modified EUI-64 of RFC 4291. -/
def linkLocal (mac : Bytes) : Bytes :=
  [0xFE, 0x80] ++ List.replicate 6 0 ++ u8 ((g8 mac 0 + 2) % 4 + g8 mac 0 / 4 * 4) ++ slice mac 1 2 ++ [0xFF, 0xFE] ++ slice mac 3 3

/-- The port for the session: from 49,152 to 65,535, drawn once (R214). -/
def drawPort (slot : Nat) (s : State) : State :=
  if (link s slot).port != 0 then s
  else onLink slot (fun l => { l with port := 49152 + Config.freshNat s.free 16384 % 16384 }) (drawn s)

/-- SDP_REQUEST (R213, R214): answered with the link's address and the session's port. -/
def execSdpRequest (slot : Nat) (vid : Option Nat) (s : State) : Res :=
  .next (
    if !(up s && localSlot s slot && 2 ≤ (ses s slot).state && (ses s slot).state ≤ 4 && (link s slot).up &&
        vehicleTraffic s slot vid) then s
    else
      let s1 := drawPort slot s
      answer slot (.sdp (linkLocal (outletMac s slot)) (link s1 slot).port) s1)

/-- A protocol that the outlet's type and transport security allow (R215, R216): 1 DIN SPEC 70121 without TLS, 2 ISO 15118-2
under TLS 1.2, 3 ISO 15118-20 under TLS 1.3. -/
def protocolOk (s : State) (slot p : Nat) : Bool :=
  let type := linkType s slot
  let v := (link s slot).tlsVersion
  1 ≤ p && p ≤ 3 && bit (lkProtocols (linkCfg s slot)) (p - 1) &&
    (if p = 1 then type == lkCcs && v == 0 else if p = 2 then type != lkMcs && v == 0x0303 else v == 0x0304)

/-- SUPPORTED_APP_PROTOCOL_REQ (R215, R216): the vehicle's highest-priority match, or the failure response. -/
def execSupportedAppProtocolReq (slot : Nat) (offers : List Nat) (s : State) : Res :=
  .next (
    if !(up s && localSlot s slot && (ses s slot).state == 2 && (link s slot).up) then s
    else match offers.find? (protocolOk s slot) with
      | some p => answer slot (.protocol p) (onLink slot (fun l => { l with protocol := p }) s)
      | none => answer slot .failure s)

/-- A vehicle's handshake meets the parameters of its version with a server key of an algorithm (R244, R245): P-256 for TLS 1.2,
P-521 or Ed448 for TLS 1.3. -/
def tlsFits (h : VehicleTls) (alg : Nat) : Bool :=
  if h.version = 0x0303 then
    (h.suites.contains .ecdheAes128CbcSha256 || h.suites.contains .ecdhAes128CbcSha256) && h.groups.contains .secp256r1 && alg == 0x10
  else h.version == 0x0304 && h.suites.contains .aes256GcmSha384 && (h.groups.contains .x448 || h.groups.contains .secp521r1) &&
    ((alg == 0x13 && h.sigs.contains .ed448) || (alg == 0x12 && h.sigs.contains .ecdsaSecp521r1Sha512))

/-- TLS_HANDSHAKE_COMPLETE (R244, R245): the key engine has signed with the server key, and holds the traffic secrets. -/
def execTlsHandshakeComplete (slot keySlot : Nat) (hello : VehicleTls) (s : State) : Res :=
  .next (
    if up s && localSlot s slot && (ses s slot).state == 2 && (link s slot).up && keySlot < 256 &&
        (invocation s keySlot (fun k => k.usage == useTls && tlsFits hello k.alg) byApplication true).isNone then
      onLink slot (fun l => { l with tls := true, tlsVersion := hello.version, tlsSlot := keySlot }) s
    else s)

/-- The decision of an authorisation (R227, R228); a refusal ends the session in the failure response. -/
def decide2 (slot : Nat) (accept : Bool) (cls : Nat) (ident : Bytes) (s : State) : State :=
  let s1 := onSes slot (fun x => { x with waiting := false, pre := none }) s
  if accept then answer slot .accepted (onSes slot (fun x => { x with
      state := 4, cls := cls, ident := if ident.isEmpty then x.ident else ident }) s1)
  else endCause slot 0x03 (answer slot .failure s1)

/-- The decision given in advance, where it is still valid (R228). -/
def preAuth (s : State) (slot : Nat) : Option PreAuth :=
  match (ses s slot).pre with
  | some p => if s.nv.opSeconds < p.until_ then some p else none
  | none => none

/-- A method is allowed (R227): 1 external identification, 2 Plug & Charge, whose chain must verify. -/
def methodAllowed (s : State) (slot method : Nat) (chain : List Cert) : Bool :=
  let flags := seFlags (sesCfg s slot)
  (method == 1 && bit flags 0) || (method == 2 && bit flags 1 && (link s slot).protocol != 1 && contractVerified s chain)

/-- AUTHORISING is entered (R227): what is reported of the request. -/
def enterAuthorising (slot method : Nat) (ident : Bytes) (chain : List Cert) (s : State) : State :=
  onSes slot (fun x => { x with
    state := 3, method := method
    ident := if method = 2 then ident.take 64 else []
    chain := if method = 2 then digest32 (chain.flatMap fun c => c.raw) else []
    undated := method == 2 && !s.env.wallGood }) s

/-- AUTHORIZATION_REQ (R227, R228): a repeated request is answered "ongoing" until the decision. -/
def execAuthorizationReq (slot method : Nat) (ident : Bytes) (chain : List Cert) (s : State) : Res :=
  .next (
    if !(up s && localSlot s slot && (link s slot).protocol != 0) then s
    else if (ses s slot).state == 3 then answer slot .ongoing s
    else if (ses s slot).state != 2 then s
    else
      let s1 := enterAuthorising slot method ident chain s
      if !methodAllowed s slot method chain then endCause slot 0x03 (answer slot .failure s1)
      else match preAuth s slot with
        | some p => decide2 slot p.accept p.cls p.ident s1
        | none => answer slot .ongoing (raise evSesAuthRequest (onSes slot (fun x => { x with waiting := true }) s1)))

/-- AUTH_TIMEOUT_EXPIRY (R227): no decision counts as a refusal. -/
def execAuthTimeoutExpiry (slot : Nat) (s : State) : Res :=
  .next (if up s && localSlot s slot && (ses s slot).state == 3 then decide2 slot false 255 [] s else s)

/-- AUTH_VALIDITY_EXPIRY (R228). -/
def execAuthValidityExpiry (slot : Nat) (s : State) : Res :=
  .next (if up s && localSlot s slot && (preAuth s slot).isNone then onSes slot (fun x => { x with pre := none }) s else s)

/-- The bit of SERVICES for an energy service of ISO 15118-20; none for what Drinov does not support (R215, R216). -/
def serviceBit : VehicleService → Option Nat
  | .dc => some 0
  | .dcBpt => some 1
  | .dcAcdp => some 2
  | .dcAcdpBpt => some 3
  | _ => none

/-- Drinov offers the service on the outlet (R215, R216). -/
def serviceOffered (s : State) (slot : Nat) (v : VehicleService) : Bool :=
  match serviceBit v with
  | none => false
  | some b => if (link s slot).protocol = 3 then bit (lkServices (linkCfg s slot)) b && (b < 2 || linkType s slot == lkBridged) else b == 0

/-- VEHICLE_NEGOTIATION_REQUEST (R117, R215, R216, R224, R237, R238): a service that is offered is agreed, with the control mode,
the vehicle's limits and its schedule, and answered with the supply's limits; any other is answered with the failure response. -/
def execVehicleNegotiationRequest (slot : Nat) (service : VehicleService) (dynamic : Bool) (limits : VehicleLoop)
    (schedule : List (Nat × Nat)) (s : State) : Res :=
  .next (
    if !(up s && localSlot s slot && (ses s slot).state == 4) then s
    else if serviceOffered s slot service then
      answer slot (.limits (supplyLimits s slot)) (onSes slot (fun x => { x with
        bpt := service == .dcBpt || service == .dcAcdpBpt, dynamic := (link s slot).protocol == 3 && dynamic
        loop := some limits, schedule := schedule }) s)
    else answer slot .failure s)

/-- The limits kept of the vehicle, before any. -/
def noLoop : VehicleLoop :=
  { iTarget := 0, iMax := 0, vMax := 0, pMax := 0, pSched := 0xFFFF, pDisch := 0, departS := 0xFFFFFFFF, bidirectional := false }

/-- CABLE_CHECK_REQ (R232, R233): the first one starts the weld pre-check; a repeat is answered with the progress. -/
def execCableCheckReq (slot vMax : Nat) (s : State) : Res :=
  .next (
    let x := ses s slot
    if !(up s && localSlot s slot) then s
    else if x.state = 4 then
      answer slot (.cableCheck false) (startWeld slot (onSes slot (fun x => { x with
        state := 5, mode := 1, isoDone := false, pre1 := {}
        loop := some { (x.loop.getD noLoop) with vMax := vMax } }) s))
    else if x.state = 5 || x.state = 6 then answer slot (.cableCheck (x.state == 6 && x.isoDone)) s
    else s)

/-- PRECHARGE_REQ (R234): the first one after a finished cable check enters PRECHARGE; each gives the target and is answered with
the present voltage. -/
def execPrechargeReq (slot target : Nat) (s : State) : Res :=
  .next (
    let x := ses s slot
    if up s && localSlot s slot && ((x.state == 6 && x.isoDone) || x.state == 7) then
      answer slot (.precharge (supplyVolts s slot))
        (onSes slot (fun x => { x with state := 7, mode := 3, vTarget := target, near := x.near && x.state == 7 }) s)
    else s)

/-- Export is allowed in the session (R238). -/
def mayExport (s : State) (slot : Nat) : Bool :=
  bit (seFlags (sesCfg s slot)) 2 && (ses s slot).bpt && ((ses s slot).loop.getD noLoop).bidirectional

/-- POWER_DELIVERY_START_REQ (R236, R238): TRANSFER in mode 4, or mode 5 where the first request is a discharge; a discharge that
may not be is answered as outside the offered limits. -/
def execPowerDeliveryStartReq (slot : Nat) (discharge : Bool) (s : State) : Res :=
  .next (
    if !(up s && localSlot s slot && (ses s slot).state == 7) then s
    else if discharge && !mayExport s slot then answer slot .outsideLimits s
    else answer slot .accepted
      (raise evSesState (onSes slot (fun x => { x with state := 8, mode := if discharge then 5 else 4 }) s)))

/-- POWER_DELIVERY_STOP_REQ (R240): the vehicle's stop. -/
def execPowerDeliveryStopReq (slot : Nat) (s : State) : Res :=
  .next (if up s && localSlot s slot then endCause slot 0x01 s else s)

/-- DIRECTION_CHANGE_REQ (R238): a request for the other direction that is accepted enters DIRECTION_HOLD; within the hold the
mode follows the request; one that is not accepted is answered as outside the offered limits. -/
def execDirectionChangeReq (slot : Nat) (exporting : Bool) (s : State) : Res :=
  .next (
    let x := ses s slot
    let mode := if exporting then 5 else 4
    if !(up s && localSlot s slot && (x.state == 8 || x.state == 9)) || x.mode = mode then s
    else if !mayExport s slot then answer slot .outsideLimits s
    else
      let s1 := if x.state = 8 then raise evSesState (onSes slot (fun x => { x with state := 9, mode := mode }) s)
        else onSes slot (fun x => { x with mode := mode }) s
      answer slot (loopAnswer s1 slot) s1)

/-- WELDING_DETECTION_REQ (R232): answered with the vehicle-side voltage, no conclusion drawn. -/
def execWeldingDetectionReq (slot : Nat) (s : State) : Res :=
  .next (if up s && localSlot s slot && (link s slot).up then answer slot (.weldingDetection (vehicleVolts s slot)) s else s)

/-- VEHICLE_RENEGOTIATION_REQ (R117, R237): always answered; the schedule it brings replaces the one in force. -/
def execVehicleRenegotiationReq (slot : Nat) (schedule : List (Nat × Nat)) (s : State) : Res :=
  .next (
    if up s && localSlot s slot && 4 ≤ (ses s slot).state && (ses s slot).state ≤ 9 then
      answer slot .renegotiation (raise evSesRenegotiation (onSes slot (fun x => { x with
        schedule := if schedule.isEmpty then x.schedule else schedule }) s))
    else s)

/-- VEHICLE_LOOP_REQUEST (R224, R236 to R238): the vehicle's targets and limits, answered with the supply's limits and the present
voltage. -/
def execVehicleLoopRequest (slot : Nat) (request : VehicleLoop) (s : State) : Res :=
  .next (
    if up s && localSlot s slot && ((ses s slot).state == 8 || (ses s slot).state == 9) then
      answer slot (loopAnswer s slot) (onSes slot (fun x => { x with loop := some request }) s)
    else s)

/-- GRANT_RECEIVED (R224): a grant of 16 bytes on a post. -/
def execGrantReceived (grant : Bytes) (s : State) : Res := .next (if up s then receiveGrant grant s else s)

/-! ### Contactors, checks and timers -/

/-- CONTACTOR_CONFIRMED (R230): where the mirror contacts have shown the commanded state. -/
def execContactorConfirmed (slot : Nat) (s : State) : Res :=
  .next (if up s && localSlot s slot && mirrorShows s slot then contactConfirmed slot s else s)

/-- CONTACTOR_CONFIRM_TIMEOUT (R230): 50 ms after the command. -/
def execContactorConfirmTimeout (slot : Nat) (s : State) : Res :=
  .next (if up s && localSlot s slot && !(ses s slot).confirmed && commandOld s slot then contactLate slot s else s)

/-- WELD_TEST_STEP_READ (R231): 200 ms after the step's contactor state is confirmed. -/
def execWeldTestStepRead (slot : Nat) (s : State) : Res :=
  .next (if up s && localSlot s slot && ((ses s slot).state == 5 || (ses s slot).state == 11) then weldRead slot s else s)

/-- POSTCHECK_GRANT_TIMEOUT (R232): no grant within 1 s, the post-check is deferred. -/
def execPostcheckGrantTimeout (slot : Nat) (s : State) : Res :=
  .next (
    if up s && localSlot s slot && (ses s slot).state == 11 && !granting s slot then
      toEnded slot (openAtOnce slot (deferCheck slot s))
    else s)

/-- IMD_SETTLE_COMPLETE (R233): the judgement that is due. -/
def execImdSettleComplete (slot : Nat) (s : State) : Res := .next (if up s && localSlot s slot then settleImd slot s else s)

/-- CABLE_CHECK_MAX_EXPIRY (R233). -/
def execCableCheckMaxExpiry (slot : Nat) (s : State) : Res :=
  .next (
    let x := ses s slot
    if up s && localSlot s slot && (x.state == 5 || (x.state == 6 && !x.isoDone)) then
      endCause slot 0x07 (raise evSesCableCheck (onSes slot (fun x => { x with isoOutcome := 3 }) s))
    else s)

/-- PRECHARGE_TIMEOUT (R234): 7 s in PRECHARGE without coming within 20 V. -/
def execPrechargeTimeout (slot : Nat) (s : State) : Res :=
  .next (if up s && localSlot s slot && (ses s slot).state == 7 && !(ses s slot).near then endCause slot 0x08 s else s)

/-- No renegotiation was raised in the last 60 s (R237). -/
def renegFree (s : State) (slot : Nat) : Bool :=
  match (ses s slot).reneg with
  | some t => t + 60 ≤ s.nv.opSeconds
  | none => true

/-- P_CEIL differs from the schedule entry's power by more than RENEG_BAND (R237). -/
def offSchedule (s : State) (slot : Nat) : Bool :=
  let p := schedPower s slot
  p != 0xFFFF && decide (seRenegBand (sesCfg s slot) * p < 100 * ((grP (slotGrant s slot) : Int) - p).natAbs)

/-- RENEG_HOLD_EXPIRY (R237, R238): raised in TRANSFER, kept for the end of a hold. -/
def execRenegHoldExpiry (slot : Nat) (s : State) : Res :=
  .next (
    let x := ses s slot
    if !(up s && localSlot s slot && renegotiates s slot && offSchedule s slot && renegFree s slot) then s
    else if x.state = 8 then raiseReneg slot s
    else if x.state = 9 then onSes slot (fun x => { x with renegDue := true }) s
    else s)

/-- OUTLET_CURRENT_AT_OPEN (table of stop classes): the outlet current has been at most I_OPEN for three samples. -/
def execOutletCurrentAtOpen (slot : Nat) (s : State) : Res :=
  .next (if up s && localSlot s slot then settleOpen slot s else s)

/-- The contactors of a stop are closed and the current has not come down. -/
def stopUnderCurrent (s : State) (slot : Nat) (c : StopClass) : Bool :=
  let x := ses s slot
  x.state == 10 && x.stop == some c && (x.pos || x.neg) && x.lowRun < 3

/-- END_TIMEOUT_EXPIRY (R239): an orderly stop opens in a window whatever the current. -/
def execEndTimeoutExpiry (slot : Nat) (s : State) : Res :=
  .next (if up s && localSlot s slot && stopUnderCurrent s slot .orderly then openInWindow slot (forcedOpen slot s) else s)

/-- URGENT_STOP_100MS_EXPIRY (R239): an urgent stop opens at once whatever the current. -/
def execUrgentStop100msExpiry (slot : Nat) (s : State) : Res :=
  .next (if up s && localSlot s slot && stopUnderCurrent s slot .urgent then openAtOnce slot (forcedOpen slot s) else s)

/-- HUB_LOST (R243): no grant has been accepted for HUB_TIMEOUT. -/
def execHubLost (s : State) : Res := .next (if up s then settleHub s else s)

/-! ### Commands (R246, R247) -/

/-- OUT_GET_SESSION. -/
def execOutGetSession (r : Req) (slot : Nat) (s : State) : Res :=
  command { op := 0x0510, own := .outlet } r (fun s =>
    checked [(!slotOk s slot, stBadArg)] s fun s =>
      let x := ses s slot
      .ok s (u8 x.state ++ u32 (nth s.nvOut.counter slot) ++ u8 (link s slot).protocol ++ u8 x.method ++ u8 x.cls ++
        u8 x.mode ++ u8 x.endFirst ++ u8 x.endCode ++
        u8 ((if nth s.nvOut.weld slot then 1 else 0) + (if nth s.nvOut.unchecked slot then 2 else 0) +
          (if x.avail = 1 then 4 else 0) + (if x.forced then 8 else 0)) ++
        u64 x.start ++ u8 x.ident.length ++ x.ident)) s

/-- OUT_AUTHORISE. -/
def execOutAuthorise (r : Req) (slot decision cls validity : Nat) (ident : Bytes) (s : State) : Res :=
  command { op := 0x0511, own := .outlet, secure := true, states := lcIF, cred := 1, kick := false } r (fun s =>
    checked [(!localSlot s slot || 1 < decision || (7 < cls && cls != 255) || 3600 < validity || 64 < ident.length, stBadArg),
        (validity == 0 && !((ses s slot).state == 3 && (ses s slot).waiting), stBadArg)] s fun s =>
      if validity = 0 then .ok (decide2 slot (decision == 1) cls ident s)
      else .ok (onSes slot (fun x => { x with
        pre := some { accept := decision == 1, cls := cls, until_ := s.nv.opSeconds + validity, ident := ident } }) s)) s

/-- OUT_STOP_SESSION: end cause 0x02 at the next step, or nothing without a session. -/
def execOutStopSession (r : Req) (slot : Nat) (s : State) : Res :=
  command { op := 0x0512, own := .outlet, secure := true, cred := 1 } r (fun s =>
    checked [(!localSlot s slot, stBadArg)] s fun s =>
      .ok (if inSession s slot then onSes slot (fun x => { x with causes := x.causes ++ [0x02] }) s else s)) s

/-- OUT_SET_AVAILABILITY. -/
def execOutSetAvailability (r : Req) (slot mode : Nat) (s : State) : Res :=
  command { op := 0x0513, own := .outlet, secure := true, states := lcIFS, cred := 1 } r (fun s =>
    checked [(!localSlot s slot || 2 < mode, stBadArg)] s fun s =>
      .ok (onSes slot (fun x => { x with avail := mode }) s)) s

/-- OUT_CLEAR_WELD. -/
def execOutClearWeld (r : Req) (slot : Nat) (s : State) : Res :=
  command { op := 0x0514, own := .outlet, secure := true, states := lcIS, cred := 1 } r (fun s =>
    checked [(!localSlot s slot || !nth s.nvOut.weld slot, stBadArg), (connected s slot, stBusy)] s fun s =>
      .ok { s with nvOut.weld := s.nvOut.weld.set slot false }) s

/-- The bytes of a weld check in OUT_GET_CHECKS. -/
def weldBytes (c : WeldCheck) : Bytes := u8 c.outcome ++ u16 c.step1 ++ u16 c.step2

/-- OUT_GET_CHECKS. -/
def execOutGetChecks (r : Req) (slot : Nat) (s : State) : Res :=
  command { op := 0x0515, own := .outlet } r (fun s =>
    checked [(!slotOk s slot, stBadArg)] s fun s =>
      let x := ses s slot
      .ok s (weldBytes x.pre1 ++ weldBytes x.post1 ++ u16 x.vcc ++ u32 x.iso ++ u8 x.isoOutcome)) s

/-- OUT_RENEGOTIATE. -/
def execOutRenegotiate (r : Req) (slot : Nat) (s : State) : Res :=
  command { op := 0x0516, own := .outlet, secure := true, states := lcIF, cred := 1 } r (fun s =>
    checked [(!localSlot s slot, stBadArg),
        ((ses s slot).state != 8 || !renegotiates s slot || !renegFree s slot, stBusy)] s fun s =>
      .ok (raiseReneg slot s)) s

end Sys2Proof.Machine
end

