-- ==== Sys2Proof/Machine/Loads.lean ====
section
/-!
DEFINITION. Load switch channels (chapter 15): the 1 ms evaluation, faults and retries, the load watchdog's trip and
test, VLOAD, the commands, and what the configuration checker asks of the entries.
-/
namespace Sys2Proof.Machine

/-! ### Configuration (R417, R426, R432) -/

/-- A channel entry is within range (R417). -/
def loadEntryOk (gens : List Bytes) (b : Bytes) : Bool :=
  g8 b 0 < 24 && ldMode b ≤ 2 &&
    (ldMode b == 0 ||
      ((if ldMode b = 2 then ldGen b < 8 && ldPhase b < 1024 && ldClamp b == 0 &&
          (match entryAt gens (ldGen b) with | some g => gnEnabled g | none => false)
        else ldGen b == 255) &&
        g8 b 3 < 4 && 100 ≤ ldTrip b && ldTrip b ≤ 2200 && (ldOlMin b == 0 || (5 ≤ ldOlMin b && ldOlMin b ≤ 500)) &&
        ldInrush b ≤ 100 && ldRetryMax b ≤ 15 && 1 ≤ ldRetryDelay b && ldRetryDelay b ≤ 1000 && ldClamp b ≤ 150 && g8 b 15 == 0))

/-- A generator entry is within range (R417). -/
def genEntryOk (b : Bytes) : Bool :=
  g8 b 0 < 8 && g8 b 1 < 2 && (!gnEnabled b || (50 ≤ gnFreq b && gnFreq b ≤ 25000)) && g32 b 4 == 0

/-- Channels in use. -/
def usedLoads (loads : List Bytes) : List Bytes := loads.filter fun b => ldMode b != 0

/-- The current limit of R426, mA. -/
def loadCurrent (loads : List Bytes) : Nat :=
  ((usedLoads loads).map ldTrip).sum +
    (((usedLoads loads).filter fun b => ldInrush b != 0).map fun b => 4000 - ldTrip b).foldl max 0

/-- Dissipation of a channel at a current in mA, nW (R426). -/
def channelWatts (gens : List Bytes) (b : Bytes) (i : Nat) : Nat :=
  80 * i * i + (if ldMode b = 2 then 16 * i * (match entryAt gens (ldGen b) with | some g => gnFreq g | none => 0) else 0) +
    (if ldClamp b ≤ 20 then ldClamp b * 10000000 else ldClamp b * 100000)

/-- The dissipation of R426, nW. -/
def loadWatts (loads gens : List Bytes) : Nat :=
  300000000 + ((usedLoads loads).map fun b => channelWatts gens b (ldTrip b)).sum

/-- Both limits of R426 hold. -/
def loadBudgetOk (loads gens : List Bytes) : Bool := loadCurrent loads ≤ 24000 && loadWatts loads gens ≤ 5000000000

/-- Instructions of the housekeeping core per 1 ms (R432). -/
def loadCost (loads gens : List Bytes) : Nat :=
  3000 + 400 * (usedLoads loads).length + 300 * (gens.filter gnEnabled).length

/-! ### Faults, retries and the latch (R421 to R425) -/

/-- A channel is configured. -/
def loadUsed (s : State) (c : Nat) : Bool := ldMode (loadCfg s c) != 0

/-- The latch clears at the third consecutive sample below 140 degC; the retry delay starts, or what waits is asked for
again (R423, R424). -/
def settleLatch (c : Nat) (s : State) : State :=
  let l := load s c
  if !l.latch || l.cool < 3 then s
  else
    let s1 := raise evLdcOvertemp (onLoad c (fun l => { l with latch := false }) s)
    if l.fault != 0 then afterFault c s1 else askOn c s1

/-- The end of the retry delay: the channel's switch-on is asked for again where its request is still on (R424, R425). -/
def settleRetry (c : Nat) (s : State) : State :=
  let l := load s c
  match l.retry with
  | none => s
  | some t =>
    if l.latch || t < 10 * ldRetryDelay (loadCfg s c) then s
    else askOn c (onLoad c (fun l => { l with fault := 0, retry := none, byRetry := l.request }) s)

/-- RETRY_LEFT reloads after 10 s on without a fault (R425). -/
def settleReload (c : Nat) (s : State) : State :=
  let l := load s c
  if !l.on || l.onMs < 10000 then s
  else raiseIf l.retried evLdcRecovered
    (onLoad c (fun l => { l with left := ldRetryMax (loadCfg s c), retried := false }) s)

/-- The reports of a channel that hold now (R421): open load on, open load off, short to VLOAD. -/
def reportNow (s : State) (c vOut : Nat) : Nat :=
  let l := load s c
  let e := loadCfg s c
  let off := !l.on && ldOffDiag e && (ldMode e != 2 || genDuty s (ldGen e) == 0)
  (if l.on && 10 ≤ l.onMs && ldOlMin e != 0 && 3 ≤ l.low then 1 else 0) + (if off && 30 ≤ vOut then 2 else 0) +
    (if off && s.ldc.vload ≤ vOut + 20 then 4 else 0)

/-- A channel's 1 ms: its mean and temperature taken, its times counted, the latch's samples judged. -/
def sampleLoad (r : LoadReading) (e : Bytes) (l : Load) : Load :=
  { l with
    means := (r.mean :: l.means).take 10
    temp := r.temp
    onMs := if l.on then l.onMs + 1 else l.onMs
    offMs := if l.on then l.offMs else l.offMs.map (· + 1)
    retry := if l.latch then l.retry else l.retry.map (· + 1)
    waitMs := if l.waiting.isSome then l.waitMs + 1 else l.waitMs
    cool := if r.temp < 1400 then l.cool + 1 else 0
    low := if l.on && r.mean < ldOlMin e then l.low + 1 else 0 }

/-- Overload in the 1 ms that has just passed: in its inrush window, or outside it (R421). -/
def overloaded (e : Bytes) (l : Load) : Bool :=
  if l.onMs ≤ ldInrush e then decide (4000 < l.means.headD 0) else decide (10 * ldTrip e < l.means.sum)

/-- The reports of a channel brought up to date; the open-load event with FLAGS[1] only. -/
def settleReport (c vOut : Nat) (s : State) : State :=
  let now := reportNow s c vOut
  raiseIf (now != (load s c).report && ldOpenEvent (loadCfg s c)) evLdcOpenLoad
    (onLoad c (fun l => { l with report := now }) s)

/-- The evaluation of one channel (R421). -/
def evalLoad (readings : List LoadReading) (s : State) (c : Nat) : State :=
  let r : LoadReading := readings.getD c { mean := 0, temp := 0, vOut := 0 }
  let e := loadCfg s c
  let s1 := onLoad c (sampleLoad r e) s
  let l := load s1 c
  if ldMode e = 0 then settleLatch c s1
  else
    let s2 := if 1700 ≤ r.temp && (l.on || !l.latch) then loadFault c 1 s1 else s1
    let s3 := if l.on && overloaded e l then loadFault c 2 s2 else s2
    settleReload c (settleRetry c (settleLatch c (settleReport c r.vOut s3)))

/-- Channels that wait, in order of request, then ascending. -/
def waitingLoads (s : State) : List Nat :=
  ((List.range 24).filter fun c => (load s c).waiting.isSome).mergeSort fun a b =>
    ((load s a).waiting.getD 0) ≤ ((load s b).waiting.getD 0)

/-- LDC_DIAGNOSTIC_EVAL (R421 to R428): VLOAD as measured, 0.1 V, and a reading of each channel. -/
def execLdcDiagnosticEval (vload : Nat) (readings : List LoadReading) (s : State) : Res :=
  .next (if !up s then s
    else
      let s1 := { s with ldc.vload := vload }
      let s2 := (List.range 24).foldl (evalLoad readings) s1
      (waitingLoads s2).foldl (fun s c => tryAdmit c s) s2)

/-- LDC_SHORT_TO_GROUND (R421). -/
def execLdcShortToGround (c : Nat) (s : State) : Res := .next (if up s && (load s c).on then loadFault c 0 s else s)

/-- LDC_OVERTEMPERATURE (R421, R423). -/
def execLdcOvertemperature (c : Nat) (s : State) : Res :=
  .next (if up s && loadUsed s c && ((load s c).on || !(load s c).latch) then loadFault c 1 s else s)

/-- LDC_LATCH_CLEAR (R423). -/
def execLdcLatchClear (c : Nat) (s : State) : Res := .next (if up s then settleLatch c s else s)

/-- LDC_RETRY_DELAY_EXPIRY (R424). -/
def execLdcRetryDelayExpiry (c : Nat) (s : State) : Res := .next (if up s then settleRetry c s else s)

/-- LDC_RETRY_RELOAD (R425). -/
def execLdcRetryReload (c : Nat) (s : State) : Res := .next (if up s then settleReload c s else s)

/-- LDC_SWITCH_ON_ADMITTED (R427, R428). -/
def execLdcSwitchOnAdmitted (c : Nat) (s : State) : Res := .next (if up s then tryAdmit c s else s)

/-! ### The load watchdog and VLOAD (R429 to R431) -/

/-- LOAD_WATCHDOG_TRIP (R430). -/
def execLoadWatchdogTrip (core : Nat) (s : State) : Res := .next (if up s then tripLoads core s else s)

/-- LOAD_WATCHDOG_TEST (R431): after a trip, once both cores have fed for 1 s. -/
def execLoadWatchdogTest (openUs closeUs : Nat) (s : State) : Res :=
  let ok := decide (4000 ≤ openUs) && decide (openUs < 4500) && decide (closeUs ≤ 250)
  .next (if !up s || !s.ldc.tripped || s.ldc.fed < 4000 then s
    else raise evLdcWatchdog (record 0x2A01 srcSafety (u8 (if ok then 1 else 2) ++ u8 0)
      { s with ldc.tripped := !ok }))

/-- VLOAD_RANGE_CHANGE (R75, R429): off and requests kept, or each channel asked for again. -/
def execVloadRangeChange (inRange : Bool) (s : State) : Res :=
  let s1 := { s with env.vload := inRange }
  .next (if s.env.vload == inRange || !up s then s1
    else
      let s2 := raise evLdcSupply (record 0x4A03 srcHousekeeping (uFlag inRange) s1)
      if inRange then (List.range 24).foldl (fun s c => askOn c s) s2 else loadsOff s2)

/-! ### Commands (R433, R434) -/

/-- State byte of a channel. -/
def loadState (s : State) (c : Nat) : Nat :=
  let l := load s c
  if loadsHeld s then 5
  else if l.on then 1
  else if l.exhausted then 4
  else if l.request && l.retry.isSome then 3
  else if l.waiting.isSome then 2 else 0

/-- LDC_GET_CHANNEL. -/
def execLdcGetChannel (r : Req) (c : Nat) (s : State) : Res :=
  command { op := 0x0A01, own := .anyRole } r (fun s =>
    checked [(24 ≤ c, stBadArg)] s fun s =>
      let l := load s c
      let e := loadCfg s c
      .ok s (u8 (ldMode e) ++ uFlag (loadOwned s c) ++ uFlag l.request ++ u8 (loadState s c) ++ u8 l.fault ++ u8 l.report ++
        uFlag l.latch ++ u8 l.left ++ u16 (if ldMode e = 2 then genDuty s (ldGen e) else 0) ++ u16 (l.means.headD 0) ++
        i16 l.temp ++ u32 l.faults)) s

/-- LDC_SET_CHANNEL. -/
def execLdcSetChannel (r : Req) (c request : Nat) (s : State) : Res :=
  command { op := 0x0A02, own := .anyRole, secure := true, states := lcIFS, cred := 1 } r (fun s =>
    checked [(request == 1 && kicked s, stKickstand), (loadOwned s c, stSafetyLocked),
        (24 ≤ c || 1 < request || (request == 1 && !loadUsed s c), stBadArg)] s fun s =>
      .ok (requestLoad c (request == 1) s)) s

/-- LDC_SET_DUTY. -/
def execLdcSetDuty (r : Req) (g duty : Nat) (s : State) : Res :=
  command { op := 0x0A03, own := .anyRole, secure := true, states := lcIFS, cred := 1 } r (fun s =>
    checked [(duty != 0 && kicked s, stKickstand),
        (8 ≤ g || 1024 < duty || !gnEnabled (genCfg s g) || (genGroup s g).isSome, stBadArg)] s fun s =>
      .ok (newPulses g { s with ldc.duty := s.ldc.duty.set g duty })) s

/-- LDC_CLEAR_FAULT. -/
def execLdcClearFault (r : Req) (mask : Nat) (s : State) : Res :=
  command { op := 0x0A04, own := .anyRole, secure := true, states := lcIFS, cred := 1 } r (fun s =>
    let l := maskList mask 24
    checked [(l.any (loadOwned s), stSafetyLocked), (2 ^ 24 ≤ mask, stBadArg), (l.any fun c => (load s c).latch, stBusy)] s
      fun s => .ok (l.foldl (fun s c => clearLoad c s) s)) s

/-- Dissipation with measured currents, mW. -/
def measuredWatts (s : State) : Nat :=
  (300000000 + ((List.range 24).map fun c => if loadUsed s c then
    channelWatts s.cfg.gens (loadCfg s c) ((load s c).means.headD 0) else 0).sum) / 1000000

/-- LDC_GET_PACKAGE. -/
def execLdcGetPackage (r : Req) (s : State) : Res :=
  command { op := 0x0A05, own := .anyRole } r (fun s =>
    .ok s (u32 (packageCurrent s) ++ u32 ((s.ldc.chans.map fun l => l.means.headD 0).sum) ++ u32 (measuredWatts s) ++
      u16 s.ldc.vload ++ uFlag s.ldc.tripped ++ u8 (s.ldc.chans.filter fun l => l.waiting.isSome).length)) s

end Sys2Proof.Machine
end

