-- ==== Sys2Proof/Machine/SafeCmd.lean ====
section
/-!
DEFINITION. The commands of the safety functions (R389, R392, R393, R405).
-/
namespace Sys2Proof.Machine

/-! ### Reaction times (R389, R405) -/

/-- The larger FILTER of an instance's function inputs, as a time in microseconds. -/
def filterUs (s : State) (e : Bytes) : Nat := 250 * ((functionInputs e).map fun i => siFilter (siCfg s i)).foldl max 0

/-- Longest beacon period, microseconds (R395, R517). -/
def longestPeriod (s : State) : Nat :=
  if s.sys.role = 6 then 1000 else if s.cfg.site.nominal = 60 then 36400 else 44500

/-- The number, under R546, of the part that holds the contactors of outlet `n`: a post, the hub pair, or in peloton
mode the member that the entry names. -/
def holderOf (s : State) (n : Nat) : Nat :=
  let p := outPost (outCfg s n)
  if s.sys.role = 6 then p else 8 * s.cfg.spoke.network + (if p = 0 then 0 else p + 1)

/-- Remote parts that an instance's demand reaches: the holders of its outlets elsewhere, and the hub that runs their
groups, both members of a pair (R367). -/
def receivers (s : State) (j : Nat) : List Nat :=
  let targets := (maskList (inTargets (instCfg s j)) 12).map (· + 1)
  if s.sys.role = 2 then
    if targets.isEmpty then []
    else 8 * s.cfg.spoke.network ::
      (targets.filter fun n => (slotOf s n).isNone).map fun n => 8 * s.cfg.spoke.network + (n + 1) / 2 + 1
  else
    let held := (targets.filter fun n => (slotOf s n).isNone).map (holderOf s)
    if targets.isEmpty then []
    else if s.sys.role = 4 then (8 * s.cfg.spoke.network + 1) :: held
    else if s.sys.role = 5 then (8 * s.cfg.spoke.network) :: held
    else held.filter (· != ownNode s)

/-- ETH_MAX and WATCHDOG of this part's enabled connection from a source; the largest permitted where it has none. -/
def linkTimes (s : State) (node : Nat) : Nat × Nat :=
  let src := if s.sys.role = 6 then node else 32 * s.cfg.spoke.network + node
  match (List.range 8).find? fun c => connOn s c && cnSrc (connCfg s c) == src with
  | some c => (cnEth (connCfg s c), cnWatchdog (connCfg s c))
  | none => (20, 500)

/-- Worst case over the three paths to one receiver, microseconds (R405). -/
def remoteUs (s : State) (filter node : Nat) : Nat :=
  let t := linkTimes s node
  max (filter + 2000 + 1000 * t.1) (max (filter + 2000 + longestPeriod s + 1600) (1000 * t.2 + 1350))

/-- The worst-case reaction of an instance, microseconds (R389, R405). -/
def reactionUs (s : State) (j : Nat) : Nat :=
  let e := instCfg s j
  let f := filterUs s e
  ((receivers s j).map (remoteUs s f)).foldl max (f + 1500) + (if inCat e = 1 then 1000 * inRamp e else 0)

/-! ### Reading commands -/

/-- A stop of the instance still runs: a pair of its stop set or a contactor pair of a target is on. -/
def stopRuns (s : State) (j : Nat) : Bool :=
  (stopPairs s j).any (fun n => (pairOf s n).on) ||
    (targetSlots s j).any fun k => (List.range 6).any fun n => (pairSlots s n).contains k && (pairOf s n).on

/-- State byte of SAF_GET_INSTANCE. -/
def instState (s : State) (j : Nat) : Nat :=
  let x := inst s j
  if inKind (instCfg s j) = 0 then 0
  else if instFaulted s j then 4
  else if x.unlocking then 6
  else if x.unlocked then 7
  else if x.mute.isSome then 5
  else if x.permit then 1
  else if stopRuns s j then 2
  else 3

/-- State byte of a pair (SAF_GET_STATUS). -/
def pairState (s : State) (n : Nat) : Nat :=
  if prMode (pairCfg s n) = 0 then 0
  else if (pairOf s n).fault != 0 then 3
  else if (pairOf s n).on then 2 else 1

/-- The instances 0 to 31 that satisfy a test, as a mask. -/
def instMask (s : State) (p : Nat → Bool) : Nat := maskOf ((List.range 32).filter fun j => inKind (instCfg s j) != 0 && p j)

/-- SAF_GET_STATUS. -/
def execSafGetStatus (r : Req) (s : State) : Res :=
  command { op := 0x0901, own := .anyRole } r (fun s =>
    .ok s (uFlag (safeRunning s) ++ u32 (instMask s fun j => (inst s j).permit) ++ u32 (instMask s (instFaulted s)) ++
      ((List.range 6).flatMap fun n => u8 (pairState s n)) ++ u32 s.saf.compareFails ++ u64 s.saf.tick)) s

/-- SAF_GET_INSTANCE. -/
def execSafGetInstance (r : Req) (index : Nat) (s : State) : Res :=
  command { op := 0x0902, own := .anyRole } r (fun s =>
    checked [(32 ≤ index, stBadArg)] s fun s =>
      .ok s (u8 (inKind (instCfg s index)) ++ u8 (instState s index) ++ u8 (inst s index).cause ++
        u32 (if inKind (instCfg s index) = 0 then 0 else reactionUs s index) ++ u32 (inst s index).stops)) s

/-- SAF_GET_PAIR. -/
def execSafGetPair (r : Req) (pair : Nat) (s : State) : Res :=
  command { op := 0x0904, own := .anyRole } r (fun s =>
    checked [(6 ≤ pair, stBadArg)] s fun s =>
      let p := pairOf s pair
      .ok s (u8 (pairState s pair) ++ uFlag p.request ++ u16 p.vHigh ++ u16 p.vLow ++ u16 p.current ++ u64 p.tested ++
        u8 p.fault)) s

/-! ### Commanding -/

/-- The mask names an instance whose RESET is not the command (R393). -/
def resetMisnamed (s : State) (mask : Nat) : Bool :=
  (maskList mask 32).any fun j => inKind (instCfg s j) == 0 || inReset (instCfg s j) != 254

/-- A reset from the command: to the part, and to the instances named, at once (R378, R379, log entry 20). -/
def commandReset (mask part : Nat) (s : State) : State :=
  let s1 := if part = 1 then kickReset s else s
  let s2 := if safeRunning s1 then (maskList mask 32).foldl (fun s j => giveReset true j s) s1 else s1
  raise evSafReset s2

/-- SAF_RESET (R378, R379, R393). -/
def execSafReset (r : Req) (mask part : Nat) (s : State) : Res :=
  command { op := 0x0905, own := .anyRole, secure := true, states := lcMPIFS, cred := 1 } r (fun s =>
    checked [(safeAwaiting s, stSafetyLocked), (resetMisnamed s mask, stBadArg), (1 < part, stBadArg),
        (part = 1 && partSource s != 254, stBadArg)] s fun s => .ok (commandReset mask part s)) s

/-- A permit of the pair's mask is 0. -/
def permitMissing (s : State) (n : Nat) : Bool :=
  (maskList (prMask (pairCfg s n)) 32).any fun j => inKind (instCfg s j) == 0 || !(inst s j).permit

/-- SAF_SET_OUTPUT (R385, R393): request 0 needs only checks 1 to 9. -/
def execSafSetOutput (r : Req) (pair request : Nat) (s : State) : Res :=
  command { op := 0x0906, own := .anyRole, secure := true, states := lcIFS, cred := 1 } r (fun s =>
    let on := request == 1
    checked [(on && kicked s, stKickstand), (on && safeAwaiting s, stSafetyLocked),
        (6 ≤ pair || prMode (pairCfg s pair) != 2 || 1 < request, stBadArg),
        (on && permitMissing s pair, stBusy)] s fun s => .ok (requestPair pair on s)) s

/-- SAF_DOOR_LOCK (R373, R393). -/
def execSafDoorLock (r : Req) (index action : Nat) (s : State) : Res :=
  command { op := 0x0907, own := .anyRole, secure := true, states := lcIFS, cred := 1 } r (fun s =>
    checked [(safeAwaiting s, stSafetyLocked), (32 ≤ index || !locks (instCfg s index) || 1 < action, stBadArg)] s fun s =>
      if action = 1 then .ok (driveLock index true s)
      else .ok (onInst index (fun x => { x with unlocking := true }) (fallPermit index 0 s))) s

end Sys2Proof.Machine
end

