-- ==== Sys2Proof/Machine/SafeCfg.lean ====
section
/-!
DEFINITION. The safety parameter set (R359, R366, R372 to R376, R385, R387, R391, R395, R406 to R414, R418, R422): its
blocks, its checks, the edit session, the password, commit and acknowledgement.
-/
namespace Sys2Proof.Machine

/-! ### Blocks (R406) -/

/-- Number of blocks and size of a block of each kind. -/
def blockShape : Nat → Nat × Nat
  | 0 => (1, 16)
  | 1 => (16, 8)
  | 2 => (32, 16)
  | 3 => (6, 8)
  | 4 => (8, 16)
  | 5 => (1, 16)
  | _ => (0, 0)

/-- A block of a set. -/
def blockOf (t : SafeSet) (kind index : Nat) : Bytes :=
  match kind with
  | 0 => t.header
  | 1 => nth t.inputs index
  | 2 => nth t.insts index
  | 3 => nth t.pairs index
  | 4 => nth t.conns index
  | _ => t.exports

/-- A set with one block replaced. -/
def setBlock (t : SafeSet) (kind index : Nat) (b : Bytes) : SafeSet :=
  match kind with
  | 0 => { t with header := b }
  | 1 => { t with inputs := t.inputs.set index b }
  | 2 => { t with insts := t.insts.set index b }
  | 3 => { t with pairs := t.pairs.set index b }
  | 4 => { t with conns := t.conns.set index b }
  | _ => { t with exports := b }

/-- Every block of a set: kind and index. -/
def allBlocks : List (Nat × Nat) := (List.range 6).flatMap fun k => (List.range (blockShape k).1).map fun i => (k, i)

/-! ### Checks -/

/-- An unused entry: its index byte, every other byte 0 (R410). -/
def unusedEntry (i : Nat) (b : Bytes) : Bool := g8 b 0 == i && allZero (b.drop 1)

/-- Mode of an input of a set; 0 for a number that names none. -/
def modeIn (t : SafeSet) (i : Nat) : Nat := if i < 16 then siMode (nth t.inputs i) else 0

/-- A test-pulse source byte. -/
def tpOk (v : Nat) : Bool := v < 4 || v == 255

/-- A safe input entry (table, R359). -/
def inputEntryOk (b : Bytes) (i : Nat) : Bool :=
  if siMode b = 0 then unusedEntry i b
  else g8 b 0 == i && siMode b ≤ 4 && tpOk (siTp b false) && tpOk (siTp b true) &&
    (siMode b != 4 || (siTp b false == 255 && siTp b true == 255)) &&
    2 ≤ siFilter b && siFilter b ≤ 40 && g8 b 5 == 0 &&
    (siMode b == 3 || (4 ≤ siDiscrepancy b && siDiscrepancy b ≤ 5000))

/-- The inputs of an instance suit its kind (R369, R370, R372, R374 to R376). -/
def usesOk (t : SafeSet) (b : Bytes) : Bool :=
  let m1 := modeIn t (inSi1 b)
  let m2 := modeIn t (inSi2 b)
  match inKind b with
  | 1 => (m1 == 1 || m1 == 2) && inSi2 b == 255
  | 2 => (m1 == 1 || m1 == 2) && (if inSi2 b = 255 then inLoad b == 255 else m2 == 1 || m2 == 2 || m2 == 4)
  | 3 => m1 == 2 && m2 == 2 && inSi1 b != inSi2 b
  | 4 => m1 == 4 && (inSi2 b == 255 || m2 == 3)
  | 5 => (m1 == 1 || m1 == 2 || m1 == 4 || (128 ≤ inSi1 b && inSi1 b < 144)) && inSi2 b == 255
  | _ => false

/-- Parameters of an instance (instance table). -/
def paramsOk (b : Bytes) : Bool :=
  match inKind b with
  | 2 => inParam1 b ≤ 6000 && inParam2 b == 0
  | 3 => 100 ≤ inParam1 b && inParam1 b ≤ 500 && inParam2 b == 0
  | 4 => inSi2 b == 255 || (30 ≤ inParam1 b && inParam1 b ≤ 4000 && 1 ≤ inParam2 b && inParam2 b ≤ 600)
  | _ => inParam2 b == 0

/-- RESET of an instance (R366). -/
def resetOk (t : SafeSet) (b : Bytes) : Bool :=
  (inReset b ≥ 254 || modeIn t (inReset b) == 3) && (inKind b != 1 || inReset b != 255) && (inKind b != 3 || inReset b == 255)

/-- LOAD_CH of an instance: a static channel, with its diagnostics enabled where it is a muting lamp (R418, R422). -/
def loadChOk (s : State) (b : Bytes) : Bool :=
  inLoad b == 255 || (inLoad b < 24 && ldMode (loadCfg s (inLoad b)) == 1 &&
    (inKind b != 4 || (ldOffDiag (loadCfg s (inLoad b)) && ldOlMin (loadCfg s (inLoad b)) != 0)))

/-- An instance entry. -/
def instEntryOk (s : State) (t : SafeSet) (b : Bytes) (j : Nat) : Bool :=
  if inKind b = 0 then unusedEntry j b
  else g8 b 0 == j && inKind b ≤ 5 && usesOk t b && inCat b ≤ 1 && resetOk t b &&
    (inCat b == 0 || (10 ≤ inRamp b && inRamp b ≤ 100)) && inTargets b < 4096 && paramsOk b && loadChOk s b && g8 b 15 < 2

/-- A pair entry. -/
def pairEntryOk (b : Bytes) (n : Nat) : Bool :=
  if prMode b = 0 then unusedEntry n b
  else g8 b 0 == n && prMode b ≤ 2 && 1 ≤ prDark b && prDark b ≤ 60 && g8 b 7 < 2

/-- A connection entry (R395). -/
def connEntryOk (s : State) (t : SafeSet) (b : Bytes) (c : Nat) : Bool :=
  if !cnEnabled b then unusedEntry c b
  else g8 b 0 == c && cnSrc b < 128 && g8 b 2 < 4 && cnCat b ≤ 1 && cnLoss b < 4096 && 20 ≤ cnWatchdog b &&
    cnWatchdog b ≤ 500 && longestPeriod s + 1000 * (cnSkew b + 1) ≤ 1000 * cnWatchdog b && 1 ≤ cnSkew b && cnSkew b ≤ 20 &&
    1 ≤ cnEth b && cnEth b ≤ 20 && 1 ≤ cnHold b && cnHold b ≤ 600 &&
    (cnCat b == 0 || (10 ≤ cnRamp b && cnRamp b ≤ 100)) && g8 b 15 == 0 &&
    (!cnPaired b || (c < 7 && cnEnabled (nth t.conns (c + 1)) && (c == 0 || !cnPaired (nth t.conns (c - 1)))))

/-- The header. -/
def safeHeaderOk (t : SafeSet) : Bool :=
  10 ≤ shPeriod t.header && shPeriod t.header ≤ 1000 && (shReset t.header == 254 || modeIn t (shReset t.header) == 3) &&
    allZero (t.header.drop 7)

/-- Used instances of a set. -/
def usedInsts (t : SafeSet) : List Bytes := t.insts.filter fun b => inKind b != 0

/-- Function inputs named by the instances of a set, with repeats. -/
def namedInputs (t : SafeSet) : List Nat := (usedInsts t).flatMap fun b => [inSi1 b, inSi2 b].filter (· < 16)

/-- Inputs named by the session entries: the mirror contact and the insulation monitor. -/
def sessionInputs (s : State) : List Nat := s.cfg.sessions.flatMap fun e => [seMirror e, seImdSi e].filter (· < 16)

/-- Reset inputs of a set. -/
def resetInputs (t : SafeSet) : List Nat := (shReset t.header :: (usedInsts t).map inReset).filter (· < 16)

/-- No input serves twice (R366). -/
def sharesOk (s : State) (t : SafeSet) : Bool :=
  let l := namedInputs t
  l.Nodup && l.all (fun i => !(sessionInputs s).contains i) &&
    (resetInputs t).all fun i => !l.contains i && !(sessionInputs s).contains i

/-- At most 8, 8, 2, 4 and 8 instances of the kinds (R366). -/
def kindsOk (t : SafeSet) : Bool :=
  [(1, 8), (2, 8), (3, 2), (4, 4), (5, 8)].all fun k => ((usedInsts t).filter fun b => inKind b == k.1).length ≤ k.2

/-- Every entry of a list passes a check with its place. -/
def entriesOk (l : List Bytes) (p : Bytes → Nat → Bool) : Bool := l.zipIdx.all fun x => p x.1 x.2

/-- A set passes the checks of R408 (R359 to R387, R395, R410). -/
def safeSetOk (s : State) (t : SafeSet) : Bool :=
  safeHeaderOk t && entriesOk t.inputs inputEntryOk && entriesOk t.insts (instEntryOk s t) && entriesOk t.pairs pairEntryOk &&
    entriesOk t.conns (connEntryOk s t) && t.exports.all (fun b => b.toNat < 32 || b == 255#8) && kindsOk t && sharesOk s t

/-- Instructions of each safety core per tick (R391, R412). -/
def safeCost (t : SafeSet) : Nat :=
  6000 + 450 * (t.inputs.filter fun b => siMode b != 0).length + 700 * (usedInsts t).length +
    600 * (t.pairs.filter fun b => prMode b != 0).length + 1500 + 900 * (t.conns.filter cnEnabled).length

/-! ### Password (R407) -/

/-- The salted digest of a password. -/
def passwordDigest (salt password : Bytes) : Bytes := slice (Config.shake256 (salt ++ password) 32) 0 32

/-- A lock-out holds. -/
def lockedOut (s : State) : Bool := match s.nvSaf.lockUntil with | some t => decide (s.nv.opSeconds < t) | none => false

/-- A lock-out whose time has passed ends. -/
def settleLockout (s : State) : State :=
  match s.nvSaf.lockUntil with
  | some t => if t ≤ s.nv.opSeconds then raise evSafCfgLockout { s with nvSaf.lockUntil := none, nvSaf.fails := 0 } else s
  | none => s

/-- The password is the one held. -/
def passwordRight (s : State) (p : Bytes) : Bool :=
  match s.nvSaf.password with
  | some (salt, d) => passwordDigest salt p == d
  | none => false

/-- Length of the lock-out after `n` earlier ones: 15 min, doubling, up to 24 h. -/
def lockSeconds (n : Nat) : Nat := min (900 * 2 ^ n) 86400

/-- A wrong password: counted, recorded; the fifth in a row begins a lock-out. -/
def wrongPassword (s : State) : State :=
  let s1 := raise evSafCfgLockout (record 0x3914 srcHost [] { s with nvSaf.fails := s.nvSaf.fails + 1 })
  if s1.nvSaf.fails < 5 then s1
  else record 0x3915 srcHost (u32 (lockSeconds s1.nvSaf.lockouts)) { s1 with
    nvSaf.lockUntil := some (s1.nv.opSeconds + lockSeconds s1.nvSaf.lockouts)
    nvSaf.lockouts := s1.nvSaf.lockouts + 1 }

/-- A right password ends a run of failures and of lock-outs. -/
def rightPassword (s : State) : State := { s with nvSaf.fails := 0, nvSaf.lockouts := 0 }

/-- A length that a password may have. -/
def passwordLength (p : Bytes) : Bool := 8 ≤ p.length && p.length ≤ 64

/-- What a password command does with a password: refused and counted, or its effect. -/
def withPassword (p : Bytes) (s : State) (effect : State → Reply) : Reply :=
  if passwordRight s p then effect (rightPassword s) else .no (wrongPassword s) stDeniedCredential

/-! ### The set in its two copies (R409) -/

/-- The place of the older copy. -/
def olderCopy (n : SafNv) : Nat :=
  match n.copies with
  | [a, b] => if !safeGood a then 0 else if !safeGood b then 1 else if b.generation > a.generation then 0 else 1
  | _ => 0

/-- Generation of the copy in service, 0 for none. -/
def safeGeneration (s : State) : Nat := match safeWinner s.nvSaf with | some c => c.generation | none => 0

/-- The older copy written with the next generation. -/
def writeCopy (t : SafeSet) (acked : Bool) (s : State) : State :=
  let c : SafeCopy := { generation := safeGeneration s + 1, acked := acked, set := some t }
  { s with nvSaf.copies := s.nvSaf.copies.set (olderCopy s.nvSaf) c }

/-- Evaluation starts anew under a set that comes into service: inputs, instances, pairs, connections, demands. -/
def restartSafety (s : State) : State :=
  { s with
    saf.inputs := List.replicate 16 {}
    saf.insts := List.replicate 35 {}
    saf.pairs := List.replicate 6 {}
    saf.conns := List.replicate 8 {}
    saf.demand := List.replicate 12 none
    saf.demandNext := List.replicate 12 none
    saf.stopBits := [0, 0, 0]
    saf.advance := false
    saf.darkTick := none }

/-! ### Reading commands -/

/-- SAF_CFG_GET (R410, R413). -/
def execSafCfgGet (r : Req) (s : State) : Res :=
  command { op := 0x0911, own := .anyRole } r (fun s =>
    .ok s (u8 (if (safeHeld s).isNone then 0 else if safeAwaiting s then 1 else 2) ++
      u32 (match safeHeld s with | some t => setSignature t | none => 0) ++ u32 (safeGeneration s) ++
      uFlag s.saf.edit.isSome ++ u8 s.nvSaf.fails ++
      u32 (match s.nvSaf.lockUntil with | some t => t - s.nv.opSeconds | none => 0))) s

/-- The set a copy byte names: 0 in service, 1 staging. -/
def copySet (s : State) (copy : Nat) : Option SafeSet :=
  if copy = 0 then safeHeld s else if copy = 1 then s.saf.edit.map (·.staging) else none

/-- SAF_CFG_READ (R410, R414). -/
def execSafCfgRead (r : Req) (copy kind index : Nat) (s : State) : Res :=
  command { op := 0x0912, own := .anyRole } r (fun s =>
    checked [((blockShape kind).1 ≤ index, stBadArg), ((copySet s copy).isNone, stBadArg)] s fun s =>
      .ok s (blockOf ((copySet s copy).getD {}) kind index)) s

/-- SAF_CFG_GET_LOG: the records the head holds of those asked for, newest first. -/
def execSafCfgGetLog (r : Req) (first n : Nat) (s : State) : Res :=
  command { op := 0x0919, own := .anyRole } r (fun s =>
    checked [(32 ≤ first || n = 0 || 32 < n, stBadArg)] s fun s => .ok s ((s.nvSaf.log.drop first).take n).flatten) s

/-! ### The edit session (R408) -/

/-- The common form of the Secure safety configuration commands. -/
abbrev cfgCmd (op : Nat) : Cmd := { op := op, own := .anyRole, secure := true, states := lcIS, cred := 1 }

/-- The caller holds the edit session. -/
def editing (s : State) (r : Req) : Bool := match s.saf.edit with | some e => e.ch == r.ch && e.handle == r.handle | none => false

/-- The edit session ends; staging is discarded. -/
def endEdit (s : State) : State := if s.saf.edit.isSome then raise evSafCfgEdit { s with saf.edit := none } else s

/-- The edit session of a channel, or of one credential of it, ends. -/
def endEditOf (ch : Nat) (handle : Option Nat) (s : State) : State :=
  match s.saf.edit with
  | some e => if e.ch == ch && (handle.isNone || handle == some e.handle) then endEdit s else s
  | none => s

/-- SAF_CFG_OPEN. -/
def execSafCfgOpen (r : Req) (password : Bytes) (s : State) : Res :=
  command (cfgCmd 0x0913) r (fun s =>
    let s := settleLockout s
    checked [(lockedOut s || s.nvSaf.password.isNone, stSafetyLocked), (!passwordLength password, stBadArg),
        (s.saf.edit.isSome, stBusy)] s fun s =>
      withPassword password s fun s =>
        .ok (raise evSafCfgEdit { s with saf.edit := some { ch := r.ch, handle := r.handle, since := s.nv.opSeconds, staging := safeSet s } })) s

/-- SAF_CFG_WRITE. -/
def execSafCfgWrite (r : Req) (kind index : Nat) (block : Bytes) (s : State) : Res :=
  command { cfgCmd 0x0914 with fits := 5 < kind || block.length == (blockShape kind).2 } r (fun s =>
    checked [(!editing s r, stBadArg),
        ((blockShape kind).1 ≤ index, stBadArg)] s fun s =>
      .ok { s with saf.edit := s.saf.edit.map fun e => { e with
              since := s.nv.opSeconds, staging := setBlock e.staging kind index block } }) s

/-- First 8 bytes of the identity digest of the credential's holder: of the public key it was judged by (log entry 9). -/
def holderDigest (s : State) (r : Req) : Bytes :=
  match credOf s r with | some c => (digest32 (publicOf s c.slot)).take 8 | none => List.replicate 8 0

/-- Records of a commit: one for each changed block, then the commit (R411). -/
def recordCommit (r : Req) (old new : SafeSet) (held : Bool) (s : State) : State :=
  let s1 := allBlocks.foldl (fun s k =>
    let a := blockOf old k.1 k.2
    let b := blockOf new k.1 k.2
    recordIf (a != b) 0x2911 srcSafety (u8 k.1 ++ u8 k.2 ++ u32 (crc32c a) ++ u32 (crc32c b)) s) s
  record 0x2910 srcSafety (u32 (if held then setSignature old else 0) ++ u32 (setSignature new) ++ u32 (safeGeneration s) ++
    holderDigest s r) s1

/-- The commit of a staging set: stored awaiting acknowledgement, in service from now, Kickstand 0x0303 (R408, R410). -/
def commitSet (r : Req) (t : SafeSet) (s : State) : Reply :=
  let old := safeSet s
  let held := (safeHeld s).isSome
  let s1 := recordCommit r old t held (restartSafety (writeCopy t false { s with saf.edit := none }))
  let s2 := enterKick 0x0303 (goneKick 0x0305 (raise evSafCfgCommit (raise evSafCfgEdit s1)))
  .ok s2 (u32 (setSignature t) ++ u32 (safeGeneration s2))

/-- The staging copy. -/
def stagingOf (s : State) : SafeSet := match s.saf.edit with | some e => e.staging | none => {}

/-- SAF_CFG_COMMIT. -/
def execSafCfgCommit (r : Req) (s : State) : Res :=
  command (cfgCmd 0x0915) r (fun s =>
    checked [(!editing s r, stBadArg), (!safeSetOk s (stagingOf s), stBadArg), (35000 < safeCost (stagingOf s), stOverBudget),
        (s.saf.pairs.any (·.on), stBusy)] s fun s => commitSet r (stagingOf s) s) s

/-- SAF_CFG_CLOSE. -/
def execSafCfgClose (r : Req) (s : State) : Res :=
  command (cfgCmd 0x0916) r (fun s => checked [(!editing s r, stBadArg)] s fun s => .ok (endEdit s)) s

/-- The edit session ends after 600 s without a write (R408). -/
def settleEdit (s : State) : State :=
  match s.saf.edit with
  | some e => if e.since + 600 ≤ s.nv.opSeconds then endEdit s else s
  | none => s

/-- EDIT_SESSION_TIMEOUT (R408). -/
def execEditSessionTimeout (s : State) : Res := .next (settleEdit s)

/-- PASSWORD_LOCKOUT_END (R407). -/
def execPasswordLockoutEnd (s : State) : Res := .next (settleLockout s)

/-- SAF_CFG_ACK (R408, R411, R414). -/
def execSafCfgAck (r : Req) (signature : Nat) (password : Bytes) (s : State) : Res :=
  command (cfgCmd 0x0917) r (fun s =>
    let s := settleLockout s
    let t := safeSet s
    if lockedOut s || s.nvSaf.password.isNone then .no s stSafetyLocked
    else if !safeAwaiting s then .no (raise evSafCfgAck s) stBadArg
    else if setSignature t != signature then
      .no (raise evSafCfgAck (record 0x2912 srcSafety (u8 0 ++ u32 signature) s)) stBadArg
    else if !passwordLength password then .no (raise evSafCfgAck s) stBadArg
    else if !passwordRight s password then .no (raise evSafCfgAck (wrongPassword s)) stDeniedCredential
    else .ok (goneKick 0x0303 (raise evSafCfgAck (record 0x2912 srcSafety (u8 1 ++ u32 signature)
      (writeCopy t true (rightPassword s)))))) s

/-- A new password under a fresh salt. -/
def storePassword (p : Bytes) (s : State) : State :=
  let salt := fresh s 16
  record 0x2913 srcSafety [] (drawn { s with nvSaf.password := some (salt, passwordDigest salt p) })

/-- SAF_CFG_SET_PASSWORD (R410, R414). -/
def execSafCfgSetPassword (r : Req) (old new : Bytes) (s : State) : Res :=
  command (cfgCmd 0x0918) r (fun s =>
    let s := settleLockout s
    checked [(lockedOut s, stSafetyLocked), (!passwordLength new, stBadArg),
        (old.isEmpty && (s.nvSaf.password.isSome || lifecycle s != lcIntegration), stBadArg),
        (!old.isEmpty && !passwordLength old, stBadArg)] s fun s =>
      if old.isEmpty then .ok (storePassword new s)
      else withPassword old s fun s => .ok (storePassword new s)) s

end Sys2Proof.Machine
end

