-- ==== Sys2Proof/Machine/Spoke.lean ====
section
/-!
DEFINITION. The Spoke-line's beacon period (chapter 12): zero-cross timing, the slot map, beacons, slots, joining and loss of
nodes, switching windows. Readings: log entry 25.
-/
namespace Sys2Proof.Machine

/-! ### The slot map (R329, R330, R341) -/

/-- Nodes of the slot map besides the master. -/
def mapNodes (s : State) : List Node := s.spk.nodes.filter fun n => n.state == 0

/-- The slot map in order: hub slots first, then node slots, each ascending: node, hub slot, network, joined this period. -/
def slotMap (s : State) : List (Nat × Bool × Nat × Bool) :=
  let own := (ownNode s, true, s.cfg.spoke.network, false)
  let all := own :: (mapNodes s).map fun n => (n.node, n.hub, n.network, n.new)
  let sorted := (List.range 32).flatMap fun k => all.filter fun (e : Nat × Bool × Nat × Bool) => e.1 == k
  sorted.filter (fun (e : Nat × Bool × Nat × Bool) => e.2.1) ++ sorted.filter (fun (e : Nat × Bool × Nat × Bool) => !e.2.1)

/-- Symbols of the beacon and of `hubs` hub slots and `nodes` node slots (table of burst kinds). -/
def slotSymbols (hubs nodes : Nat) : Nat := 13 + 18 * hubs + 8 * nodes

/-- CF_END of a period, us after the origin. -/
def cfEndAt (phase symbols : Nat) : Nat := phase + (symbols * 4608 + 99) / 100

/-- The contention region holds S1 symbols (R330). -/
def contentionOk (bp phase swLen s1 symbols : Nat) : Bool :=
  100 * (cfEndAt phase symbols + 1000 * swLen) + 4608 * s1 ≤ 100 * bp

/-- BP_US in use: the measured or last one, the nominal one where there is none (R327, R328). -/
def bpUs (s : State) : Nat := if s.spk.bp != 0 then s.spk.bp else if s.cfg.site.nominal = 60 then 33333 else 40000

/-- A slot map with these nodes beside the master's leaves the contention region whole (R330). -/
def mapFits (s : State) (l : List Node) : Bool :=
  l.length + 1 ≤ 32 && contentionOk (bpUs s) s.cfg.spoke.slotPhase s.cfg.spoke.swLen (span1 s)
    (slotSymbols (1 + (l.filter (·.hub)).length) (l.filter fun n => !n.hub).length)

/-! ### Loss of nodes (R348) -/

/-- The outlets of a post are taken as lost (R136). -/
def losePost (post : Nat) (s : State) : State :=
  if post = 0 then s
  else (outlets s).foldl (fun s n => if outPost (outCfg s n) = post then onOut n (fun o => { o with lost := true, joined := false }) s else s) s

/-- MISS_MAX slots of a node of the hub's network have been missed in a row: it is silent (R348). -/
def nodeDue (s : State) (n : Node) : Bool := n.state == 0 && n.network == s.cfg.spoke.network && s.cfg.spoke.missMax < n.missed

/-- A node leaves the slot map: 1 silent, 3 removed. -/
def dropNode (node state : Nat) (s : State) : State :=
  raise evSpkNodeLost { s with spk.nodes := s.spk.nodes.map fun m => if m.node == node then { m with state := state } else m }

/-- A silent node leaves the slot map. -/
def settleNode (node : Nat) (s : State) : State :=
  if s.spk.nodes.any fun n => n.node == node && nodeDue s n then dropNode node 1 s else s

/-- A post from which neither path has delivered for MISS_MAX periods is lost. -/
def settlePost (post : Nat) (s : State) : State :=
  if s.spk.nodes.any fun n => n.post == post && post != 0 && s.cfg.spoke.missMax < n.silent then losePost post s else s

/-- One more period without word of each node. -/
def countNodes (s : State) : State :=
  { s with spk.nodes := s.spk.nodes.map fun (n : Node) => { n with missed := n.missed + 1, silent := n.silent + 1 } }

/-- What falls due at the hub by it. -/
def settleNodes (s : State) : State :=
  if !isHub s then s
  else s.spk.nodes.foldl (fun s (n : Node) => settlePost n.post
    (settleNode n.node (if 1 < n.missed then spkCount n.node lsSlots 1 s else s))) s

/-- One more period: silent nodes, and the age of the links' tone maps. -/
def ageNodes (s : State) : State :=
  let s1 := settleNodes (countNodes s)
  { s1 with spk.links := s1.spk.links.map fun l => { l with mapUs := l.mapUs + bpUs s1 } }

/-- NODE_SILENT (R348). -/
def execNodeSilent (node : Nat) (s : State) : Res := .next (if up s && isHub s then settleNode node s else s)

/-- POST_LOST (R348). -/
def execPostLost (post : Nat) (s : State) : Res := .next (if up s && isHub s then settlePost post s else s)

/-! ### Joining (R24, R346, R347) -/

/-- The node number of a requester, where the network has one for it (R22, R546). -/
def numberFor (s : State) (r : JoinReq) : Option Nat :=
  if r.role = 2 then
    if 1 ≤ r.post && r.post ≤ 6 && (outlets s).any fun n => outPost (outCfg s n) == r.post then some (8 * r.network + r.post + 1) else none
  else if r.role = 5 && s.sys.role = 4 then some (8 * r.network + 1)
  else if r.role = 4 && s.sys.role = 5 then some (8 * r.network)
  else none

/-- The identity prefix a request carries. -/
def joinIdent (r : JoinReq) : Bytes := slice r.identity 0 8

/-- The record of a node that joins. -/
def newNode (r : JoinReq) (k : Nat) : Node :=
  { node := k, network := r.network, post := r.post, new := true, heard := true, ident := joinIdent r }

/-- The nodes with one of them put in. -/
def putNode (n : Node) (l : List Node) : List Node := l.filter (fun m => m.node != n.node) ++ [n]

/-- Another part holds the number, or asks for it in the same beacon period (R24). -/
def duplicate (s : State) (all : List JoinReq) (r : JoinReq) (k : Nat) : Bool :=
  (s.spk.nodes.any fun n => n.state == 0 && n.node == k && n.ident != joinIdent r) ||
    all.any fun q => q.role == r.role && q.post == r.post && joinIdent q != joinIdent r

/-- The result of a request among those of its beacon period (R24, R330, R343). -/
def joinResult (s : State) (all : List JoinReq) (r : JoinReq) : Nat × Nat :=
  if r.ifMajor != (fwInUse s).ifMajor then (255, 3)
  else match numberFor s r with
    | none => (255, 4)
    | some k =>
      let l := putNode (newNode r k) (mapNodes s)
      if duplicate s all r k then (255, 1)
      else if !mapFits s l || 8 < (l.filter fun n => n.network == r.network).length + 1 then (255, 2)
      else (k, 0)

/-- A node admitted: its slot from this beacon on, its outlets from the epoch after (R346, R347). -/
def admitNode (n : Node) (s : State) : State :=
  let s1 := raise evSpkNodeJoined { s with spk.nodes := putNode n s.spk.nodes }
  if n.post = 0 then s1
  else (outlets s1).foldl (fun s k => if outPost (outCfg s k) = n.post then onOut k (fun o => { o with joined := true }) s else s) s1

/-- A join decision as a MAC frame carries it (R342). -/
def decisionBytes (d : Bytes × Nat × Nat × Nat) : Bytes := slice d.1 0 8 ++ u8 d.2.1 ++ u8 d.2.2.1 ++ u8 d.2.2.2

/-- An answer to list in the next beacon. -/
def listAnswer (a : Bytes × Nat × Nat) (s : State) : State :=
  { s with spk.answers := if s.spk.answers.contains a then s.spk.answers else s.spk.answers ++ [a] }

/-- The decision about one request: listed in a beacon by the master, passed to the master by a guest hub (R346). -/
def decideJoin (all : List JoinReq) (s : State) (r : JoinReq) : State :=
  let d := joinResult s all r
  let s1 := if d.2 = 0 then admitNode (newNode r d.1) s else raise evSpkJoinRefused s
  let s2 := recordIf (d.2 == 1) (unstatedCode 8 0) srcSpoke (u8 r.post ++ joinIdent r) s1
  if isMaster s2 then listAnswer (joinIdent r, d.1, d.2) s2
  else queueFrame (upstream s2) 2 macDecision (decisionBytes (r.identity, r.network, d.1, d.2)) s2

/-- A request that arrived in the present beacon period; one part's counts once (R346). -/
def takeJoin (s : State) (r : JoinReq) : State :=
  if r.network != s.cfg.spoke.network || s.spk.requests.any fun q => joinIdent q == joinIdent r then s
  else { s with spk.requests := s.spk.requests ++ [r] }

/-- The requests of the beacon period are decided by the hub of their network (R24, R346). -/
def decideJoins (s : State) : State :=
  if isHub s then s.spk.requests.foldl (decideJoin s.spk.requests) { s with spk.requests := [] } else s

/-- JOIN_REQUEST (R24, R346): the requests that arrived in one beacon period. -/
def execJoinRequest (requests : List JoinReq) (s : State) : Res :=
  .next (if up s && isHub s then decideJoins (requests.foldl takeJoin s) else s)

/-- One decision of the hub `src` of a guest network at the master (R330, R346): identity, network, node, result. -/
def takeDecision (src : Nat) (s : State) (d : Bytes × Nat × Nat × Nat) : State :=
  let k := d.2.2.1
  let post := if 2 ≤ k % 8 then k % 8 - 1 else 0
  let n : Node := { node := k, network := d.2.1, post := post, hub := k == src, new := true, ident := slice d.1 0 8 }
  let l := putNode n (mapNodes s)
  if d.2.2.2 = 0 && mapFits s l && (l.filter fun m => m.network == d.2.1).length ≤ 8 then
    raise evSpkNodeJoined (listAnswer (slice d.1 0 8, k, 0) { s with spk.nodes := putNode n s.spk.nodes })
  else raise evSpkJoinRefused (listAnswer (slice d.1 0 8, 255, if d.2.2.2 = 0 then 2 else d.2.2.2) s)

/-- JOIN_DECISION (R346). -/
def execJoinDecision (hub : Nat) (decisions : List (Bytes × Nat × Nat × Nat)) (s : State) : Res :=
  .next (if up s && isMaster s then decisions.foldl (takeDecision hub) s else s)

/-- A post's power-fail notice (R349). -/
def takeNotice (post : Nat) (s : State) : State :=
  if isHub s && 1 ≤ post then
    raise evSpkNotice (losePost post { s with
      spk.nodes := s.spk.nodes.map fun n => if n.post == post && n.network == s.cfg.spoke.network then { n with state := 2 } else n })
  else s

/-- POWER_FAIL_NOTICE (R349). -/
def execPowerFailNotice (post : Nat) (s : State) : Res := .next (if up s then takeNotice post s else s)

/-! ### The beacon period at the master (R327, R328) -/

/-- A beacon period begins at an origin, us (R327, R344). -/
def startPeriod (origin : Nat) (s : State) : State :=
  let p := (s.spk.period + 1) % 2 ^ 48
  let s := decideJoins s
  let hubs := 1 + ((mapNodes s).filter (·.hub)).length
  let nodes := ((mapNodes s).filter fun n => !n.hub).length
  ageNodes { s with
    nvHub.period := if s.nvHub.period < p then p - 1 + 65536 else s.nvHub.period
    spk.period := p
    spk.origin := origin
    spk.burst := 0
    spk.sent := []
    spk.window := false
    spk.slotPhase := s.cfg.spoke.slotPhase
    spk.cfEnd := cfEndAt s.cfg.spoke.slotPhase (slotSymbols hubs nodes)
    spk.swStart := bpUs s - 1000 * s.cfg.spoke.swLen }

/-- BP of accepted edges, newest first: twice the mean of their periods, rounded to 1 us. -/
def bpOf (edges : List Nat) : Nat :=
  let k := edges.length - 1
  (roundDiv (2 * ((edges.headD 0 : Int) - (edges.getLastD 0 : Nat))) (max 1 k : Nat)).toNat

/-- The mean period of accepted edges lies in the band of the nominal frequency (R327). -/
def bandOk (nominal : Nat) (edges : List Nat) : Bool :=
  let d := edges.headD 0 - edges.getLastD 0
  let k := edges.length - 1
  k == 0 || ((nominal - 5) * d ≤ 1000000 * k && 1000000 * k ≤ (nominal + 5) * d)

/-- Mains periods from an edge to another, to the nearest. -/
def periodsTo (bp elapsed : Nat) : Nat := max 1 ((4 * elapsed + bp) / (2 * bp))

/-- The edges kept if one at `time` is accepted; none where it is rejected (R327). -/
def edgesWith (s : State) (time : Nat) : Option (List Nat) :=
  match s.spk.edges with
  | [] => some [time]
  | last :: rest =>
    let bp := bpUs s
    let k := periodsTo bp (time - last)
    let off := ((2 * (time - last) : Nat) - (k * bp : Int)).natAbs
    let l := if k = 1 then ((time :: last :: rest).take 9) else [time]
    if time ≤ last || bp < 20 * off || !bandOk s.cfg.site.nominal l then none else some l

/-- Free-running begins (R328). -/
def freeRunNow (s : State) : State := if s.spk.freeRun then s else raise evSpkZx { s with spk.freeRun := true, spk.zxGood := 0 }

/-- An edge at the master. -/
def masterEdge (time : Nat) (s : State) : State :=
  match edgesWith s time with
  | none =>
    let s1 := { s with spk.zxBad := s.spk.zxBad + 1, spk.zxGood := 0 }
    if 3 ≤ s1.spk.zxBad then freeRunNow s1 else s1
  | some l =>
    let k := match s.spk.edges with | last :: _ => periodsTo (bpUs s) (time - last) | [] => 1
    let s1 := { s with
      spk.edges := l
      spk.bp := if s.spk.freeRun || l.length < 2 then s.spk.bp else bpOf l
      spk.zxBad := 0
      spk.zxGood := if 1 < k then 1 else s.spk.zxGood + 1 }
    if s.spk.freeRun then s1
    else if 3 < k then freeRunNow s1
    else
      let odd := s.spk.odd != (k % 2 == 1)
      let s2 := { s1 with spk.odd := odd }
      if odd then s2 else startPeriod time s2

/-- The phase of the local supply against the beacon: an edge's distance from the nearest half of the period (R317). -/
def localPhase (s : State) (time : Nat) : Int :=
  let t := max 1 (bpUs s / 2)
  (((time : Int) - (s.spk.origin : Nat) + (t / 2 : Nat)) % (t : Nat)) - (t / 2 : Nat)

/-- ZX_EDGE (R317, R327): a pulse of `width` us that rises at `time`. The master times the network; any other node reports its
local phase against the beacon it has. -/
def execZxEdge (time width : Nat) (s : State) : Res :=
  .next (
    if !(up s && onSpoke s) || width < 100 then s
    else if isMaster s then masterEdge time s
    else { s with spk.phase := if beaconCurrent s then some (localPhase s time) else none })

/-- ZX_FREE_RUN (R328): the third edge in a row is missing. -/
def execZxFreeRun (s : State) : Res :=
  .next (if up s && isMaster s then freeRunNow { s with spk.zxBad := max 3 s.spk.zxBad, spk.zxGood := 0 } else s)

/-- ZX_RESYNC (R328): the origin moves by at most 100 us toward ZX; where the two agree, free-running ends. -/
def execZxResync (s : State) : Res :=
  .next (
    if !(up s && isMaster s && s.spk.freeRun && 8 ≤ s.spk.zxGood) then s
    else
      let d := localPhase s (s.spk.edges.headD 0)
      let s1 := { s with spk.origin := ((s.spk.origin : Int) + clampI (-100) 100 d).toNat }
      if d.natAbs ≤ 100 then
        let k := (4 * ((s1.spk.edges.headD 0 : Int) - (s1.spk.origin : Nat)) + (bpUs s : Nat)) / (2 * (bpUs s : Nat))
        raise evSpkZx { s1 with spk.freeRun := false, spk.odd := k % 2 == 1 }
      else s1)

/-! ### Beacons (R331, R341, R350) -/

/-- A slot-map entry of the beacon body. -/
def mapBytes (e : Nat × Bool × Nat × Bool) : Bytes :=
  u8 (e.1 % 32 + (if e.2.1 then 32 else 0) + 64 * (e.2.2.1 % 4)) ++ u8 (1 + (if e.2.2.2 then 2 else 0))

/-- A join answer of the beacon body. -/
def answerBytes (a : Bytes × Nat × Nat) : Bytes := slice a.1 0 8 ++ u8 a.2.1 ++ u8 a.2.2

/-- The beacon body, bytes 8 to 231. -/
def beaconBody (s : State) : Bytes :=
  u48 s.spk.period ++ u32 (bpUs s) ++ u16 s.chr.authGen ++ u8 s.cfg.site.nominal ++
    u8 ((if s.spk.freeRun then 1 else 0) + (if s.spk.takeover then 2 else 0)) ++
    u16 s.spk.slotPhase ++ u16 s.spk.cfEnd ++ u16 s.spk.swStart ++ u8 (slotMap s).length ++ [0, 0, 0] ++
    slice ((slotMap s).flatMap mapBytes) 0 64 ++ slice ((s.spk.answers.take 4).flatMap answerBytes) 0 40 ++
    List.replicate 96 0

/-- BEACON_TRANSMIT (R327, R328, R341): a free-running master starts its period by its own time. -/
def execBeaconTransmit (s : State) : Res :=
  .next (
    if !(up s && isMaster s && s.env.vline) then s
    else
      let s1 := if s.spk.freeRun then startPeriod (s.spk.origin + bpUs s) s else s
      let s2 := sendClear 1 255 2 (beaconBody s1) s1
      { s2 with
        spk.answers := s2.spk.answers.drop 4
        spk.takeover := false
        spk.nodes := s2.spk.nodes.map fun n => { n with new := false } })

/-- A slot-map entry as a beacon has it, where it is valid. -/
def mapEntry (b : Bytes) : Option (Nat × Bool × Nat × Bool) :=
  if bit (g8 b 1) 0 then some (g8 b 0 % 32, bit (g8 b 0) 5, g8 b 0 / 64, bit (g8 b 1) 1) else none

/-- The fields of a beacon, 240 bytes (R341). -/
def beaconOf (b : Bytes) : Beacon :=
  { network := hdNet b, src := hdSrc b, period := leNat (slice b 8 6), bpUs := g32 b 14, authGen := g16 b 18, nominal := g8 b 20
    freeRun := bit (g8 b 21) 0, takeover := bit (g8 b 21) 1, slotPhase := g16 b 22, cfEnd := g16 b 24, swStart := g16 b 26
    slotMap := (List.range (min 32 (g8 b 28))).filterMap fun k => mapEntry (slice b (32 + 2 * k) 2)
    answers := ((List.range 4).map fun k => (slice b (96 + 10 * k) 8, g8 b (104 + 10 * k), g8 b (105 + 10 * k))).filter
      fun (a : Bytes × Nat × Nat) => !allZero a.1 }

/-- The tag of a beacon is right (R344). -/
def beaconSealed (s : State) (b : Bytes) : Bool :=
  b.length == 240 && hdKind b == 1 && sealRight s (leNat (slice b 8 6)) 0 (slice b 0 8) (slice b 8 224) (slice b 232 8)

/-- The generation rule for a beacon (R181, R331). -/
def beaconNewer (s : State) (b : Beacon) : Bool :=
  match s.spk.master with
  | none => true
  | some (src, gen) =>
    let d := (b.authGen + 65536 - gen % 65536) % 65536
    if d = 0 then b.src == src && (s.spk.missed.isNone || s.spk.period < b.period) else d < 32768

/-- The join request of the part (R346). -/
def joinRequestBytes (s : State) : Bytes :=
  slice (identity s) 0 8 ++ u8 s.sys.role ++ u8 (if s.sys.role = 2 then s.sys.nodeStrap else 0) ++
    u8 s.cfg.spoke.network ++ u64 s.sys.idrev

/-- A node that is not in the slot map asks for it (R346). -/
def askJoin (s : State) : State :=
  if s.spk.joined || s.spk.refused || frameWaits s (upstream s) [macJoin, macDecision] then s
  else if isHub s then queueFrame (upstream s) 2 macDecision (decisionBytes (identity s, s.cfg.spoke.network, ownNode s, 0)) s
  else queueFrame (upstream s) 2 macJoin (joinRequestBytes s) s

/-- An answer to this part: its identity prefix, and its own number where it is admitted (R24, R346). -/
def ownAnswer (s : State) (a : Bytes × Nat × Nat) : Bool :=
  slice a.1 0 8 == slice (identity s) 0 8 && (a.2.2 != 0 || a.2.1 == ownNode s)

/-- A node of a guest hub that the master's map no longer holds is removed (R348). -/
def dropMissing (b : Beacon) (s : State) : State :=
  if !isHub s then s
  else (mapNodes s).foldl (fun s n =>
    if n.new || b.slotMap.any fun (e : Nat × Bool × Nat × Bool) => e.1 == n.node then s else dropNode n.node 3 s) s

/-- The answers and the slot map of an accepted beacon (R24, R346): a part joins by an answer to itself and stays joined while
the map has its number. -/
def takeMap (b : Beacon) (s : State) : State :=
  let within := b.slotMap.any fun (e : Nat × Bool × Nat × Bool) => e.1 == ownNode s
  match b.answers.find? (ownAnswer s) with
  | some a =>
    if a.2.2 = 0 then
      let s1 := raiseIf (!s.spk.joined) evSpkNodeJoined { s with spk.joined := within }
      if hasKick s1 0x0104 then goneKick 0x0104 s1 else s1
    else
      let s1 := raise evSpkJoinRefused { s with spk.joined := false, spk.refused := true }
      if a.2.2 = 1 then enterKick 0x0104 s1 else s1
  | none => { s with spk.joined := s.spk.joined && within }

/-- A beacon accepted by a node, its preamble beginning at `time` (R331). -/
def takeBeacon (time : Nat) (b : Beacon) (s : State) : State :=
  let lost := match s.spk.missed with | some m => s.cfg.spoke.missMax ≤ m | none => false
  let s1 := raiseIf lost evSpkBeaconLost { decideJoins s with
    spk.period := b.period
    spk.bp := b.bpUs
    spk.missed := some 0
    spk.origin := time - b.slotPhase
    spk.slotPhase := b.slotPhase
    spk.cfEnd := b.cfEnd
    spk.swStart := b.swStart
    spk.freeRun := b.freeRun
    spk.master := some (b.src, b.authGen)
    spk.burst := 0
    spk.sent := []
    spk.window := false
    spk.noWindows := false }
  let s2 := dropMissing b (ageNodes s1)
  askJoin (takeMap b { s2 with spk.nodes := s2.spk.nodes.map fun n => { n with new := false } })

/-- BEACON_RECEIVED (R331, R346, R350): a beacon whose preamble begins at `time`, us. -/
def execBeaconReceived (time : Nat) (beacon : Bytes) (s : State) : Res :=
  .next (
    let b := beaconOf beacon
    if !(up s && onSpoke s && s.env.vline && beaconSealed s beacon) then s
    else if isMaster s then
      if b.network = s.cfg.spoke.network && newer 16 b.authGen s.chr.authGen then
        takeBeacon time b (raise evSpkForeign { s with spk.silenced := true, spk.master := some (b.src, b.authGen) })
      else raiseIf (b.network != s.cfg.spoke.network) evSpkForeign s
    else if (match s.spk.master with | some m => m.1 / 8 != b.src / 8 | none => false) then raise evSpkForeign s
    else if beaconNewer s b then takeBeacon time b s
    else s)

/-- BEACON_LOST (R331): the MISS_MAXth beacon in a row is missing. -/
def execBeaconLost (s : State) : Res :=
  .next (
    if up s && onSpoke s && !isMaster s && beaconCurrent s then
      raise evSpkBeaconLost { spkCount (match s.spk.master with | some m => m.1 | none => 255) lsBeacons s.cfg.spoke.missMax s with
        spk.missed := some s.cfg.spoke.missMax, spk.joined := false, spk.phase := none }
    else s)

/-! ### Slots (R332, R344, R351) -/

/-- SLOT_TRANSMIT (R331, R332, R333). -/
def execSlotTransmit (s : State) : Res :=
  .next (
    if !(up s && onSpoke s && isJoined s) then s
    else
      let s1 := if isHub s then sendSlot 2 255 3 (slotText s) s else sendSlot 3 255 1 (slotText s) s
      if (safeDue s).isEmpty then s1 else { s1 with saf.frame := [] })

/-- Pair (PERIOD, BURST_IDX) `a` is below `b` (R344). -/
def pairBelow (a b : Nat × Nat) : Bool := a.1 < b.1 || (a.1 == b.1 && a.2 < b.2)

/-- A code word passes the replay check of R344 on a link. -/
def wordFresh (l : SpkLink) (pair : Nat × Nat) (word : Nat) : Bool :=
  match l.last with
  | none => true
  | some p => pairBelow p pair || (p == pair && !l.words.contains word)

/-- The pair and the code word are kept. -/
def keepWord (pair : Nat × Nat) (word : Nat) (l : SpkLink) : SpkLink :=
  { l with words := if l.last == some pair then l.words ++ [word] else [word], last := some pair }

/-- Word of a node on either path (R348). -/
def heardNode (src : Nat) (spoke : Bool) (s : State) : State :=
  { s with spk.nodes := s.spk.nodes.map fun n =>
      if n.node == src then { n with silent := 0, heard := true, missed := if spoke then 0 else n.missed } else n }

/-- The tag of a slot payload is right (R344). -/
def slotSealed (s : State) (m : SlotMsg) : Bool := sealRight s m.period 0 m.head m.text m.tag

/-- An outlet request from the node that an admitted post with that outlet has (R24, R345, R347). -/
def requestFrom (src : Nat) (s : State) (b : Bytes) : State :=
  if isHub s && reqOutlet b != 0 && s.spk.nodes.any fun n => n.node == src && n.post != 0 && n.post == outPost (outCfg s (reqOutlet b))
  then deliverRequest b s else s

/-- Grants and requests of a slot or of its ETH0 form (R224, R351). -/
def takeRecords (src : Nat) (hub : Bool) (text : Bytes) (s : State) : State :=
  if hub then
    if s.sys.role = 2 then (List.range 12).foldl (fun s k =>
      if grOutlet (slice text (16 * k) 16) != 0 then receiveGrant (slice text (16 * k) 16) s else s) s
    else s
  else [0, 1].foldl (fun s k => requestFrom src s (slice text (32 * k) 32)) s

/-- The safety frames of a slot payload (R333). -/
def safeFrames (block : Bytes) : List Bytes := (List.range (g8 block 0 / 36)).map fun k => slice block (1 + 36 * k) 36

/-- SLOT_RECEIVED (R332, R333, R344): a slot of the own network with a right tag that is no replay. -/
def execSlotReceived (m : SlotMsg) (s : State) : Res :=
  .next (
    let src := hdSrc m.head
    let hub := hdKind m.head == 2
    if !(up s && onSpoke s && s.env.vline && slotSealed s m && hdNet m.head = s.cfg.spoke.network) then s
    else if !wordFresh (spkLink s src) (m.period, hdIdx m.head) 0 then s
    else
      let text := crypt s m.period 0 m.head m.text
      let s1 := heardNode src true (onSpkLink src (keepWord (m.period, hdIdx m.head) 0) s)
      (safeFrames (text.drop (if hub then 192 else 64))).foldl (fun s f => receiveCopy 0 f true s) (takeRecords src hub text s1))

/-- What an island-control frame on ETH0 holds: grants, requests, or a power-fail notice (R349, R351, log entry 25). -/
def takeIsland (head text : Bytes) (s : State) : State :=
  if hdKind head = 0x15 then takeNotice (hdSrc head % 8 - 1) s
  else takeRecords (hdSrc head) (hdKind head == 0x12) text s

/-- ISLAND_ETH0_FRAME (R351). -/
def execIslandEth0Frame (m : SlotMsg) (s : State) : Res :=
  .next (
    let src := hdSrc m.head
    let p := (m.period, hdIdx m.head)
    let seen := match (spkLink s src).ethLast with | some q => !pairBelow q p | none => false
    if !(up s && onSpoke s && slotSealed s m && hdNet m.head = s.cfg.spoke.network) || seen then s
    else takeIsland m.head (crypt s m.period 0 m.head m.text)
      (heardNode src false (onSpkLink src (fun l => { l with ethLast := some p }) s)))

/-! ### Switching windows (R337 to R339) -/

/-- Contactors of every local outlet that wait for a window. -/
def windowContacts (s : State) : State := [0, 1, 2].foldl (fun s k => if localSlot s k then driveWant k s else s) s

/-- SWITCHING_WINDOW_OPEN (R337, R338). -/
def execSwitchingWindowOpen (s : State) : Res :=
  .next (if up s && onSpoke s then windowContacts (windowMatrix { s with spk.window := true }) else s)

/-- NO_BEACON_60S (R339): a post without a beacon for 60 s switches without windows. -/
def execNoBeacon60s (s : State) : Res :=
  .next (if up s && s.sys.role == 2 && !beaconCurrent s then { s with spk.noWindows := true } else s)

/-! ### The rail of the line driver -/

/-- VLINE_RANGE_CHANGE (R75, R316): below its range the node neither transmits nor counts as joined. The event of the group is
the one of a node that no longer receives (log entry 25). -/
def execVlineRangeChange (inRange : Bool) (s : State) : Res :=
  .next (raiseIf (up s && onSpoke s && inRange != s.env.vline) evSpkBeaconLost { s with env.vline := inRange })

end Sys2Proof.Machine
end

