-- ==== Sys2Proof/Machine/Stack.lean ====
section
/-!
DEFINITION. Pannier chains and the buffer stack (chapter 16): frames, enumeration, sweeps, plausibility, balancing,
commands, and what the configuration checker asks.
-/
namespace Sys2Proof.Machine

/-! ### Configuration (R25, R448, R453, R455) -/

/-- The four values rise strictly. -/
def rising (l : List Int) : Bool := (l.zip (l.drop 1)).all fun x => decide (x.1 < x.2)

/-- A string entry within its ranges (R453). -/
def stringEntryOk (h : StackCfg) (b : Bytes) : Bool :=
  1 ≤ stNumber b && stNumber b ≤ 4 && stChain b < 2 && 1 ≤ stFirst b && 1 ≤ stCount b &&
    stFirst b + stCount b ≤ nth h.companions (stChain b) + 1 && stLast b < 2 ^ 18 && g8 b 7 == 0 &&
    rising ((List.range 4).map fun i => (stVolt b i : Int)) && rising ((List.range 4).map (stTemp b)) &&
    5 ≤ stWindow b && stWindow b ≤ 100 && allZero (slice b 27 5)

/-- Two strings share a position. -/
def stringsMeet (a b : Bytes) : Bool :=
  stChain a == stChain b && stFirst a < stFirst b + stCount b && stFirst b < stFirst a + stCount a

/-- The strings of an image do not overlap and carry different numbers. -/
def stringsApart : List Bytes → Bool
  | [] => true
  | a :: l => l.all (fun b => !stringsMeet a b && stNumber a != stNumber b) && stringsApart l

/-- The stack header within its ranges. -/
def stackHeaderOk (h : StackCfg) : Bool :=
  h.companions.all (fun n => decide (n ≤ 48)) && h.filter.all (fun n => decide (n ≤ 7)) && h.uvTrip < h.ovTrip &&
    60 ≤ h.balTmax && h.balTmax ≤ 100 && 2 ≤ h.flpFilter && h.flpFilter ≤ 8 && h.bufPairs.all fun m => decide (m < 64)

/-- Pairs named for the chains are function outputs of the set in service (R448). -/
def bufPairsOk (t : SafeSet) (h : StackCfg) : Bool :=
  h.bufPairs.all fun m => (maskList m 6).all fun n => prMode (nth t.pairs n) == 2

/-- A stack section passes (R448, R453). -/
def stackOk (t : SafeSet) (c : ConfigImage) : Bool :=
  stackHeaderOk c.stack && c.strings.all (stringEntryOk c.stack) && stringsApart c.strings && bufPairsOk t c.stack

/-- Instructions of the housekeeping core per 1 ms (R455). -/
def stackCost (h : StackCfg) : Nat := 500 + 40 * (nth h.companions 0 + nth h.companions 1)

/-! ### Chain frames (R438, R439) -/

/-- A frame out on a chain, from PANcA or from PANcB: preamble and start delimiter, header, body, CRC-16; in a pair only while the
drivers of the shared groups are enabled (R500). -/
def sendChain (c cmd addr : Nat) (fromB : Bool) (body : Bytes) (s : State) : State :=
  if paired s && !gateOpen s then s
  else onChain c (fun h =>
    let f := u8 cmd ++ u8 addr ++ u8 (if fromB then 2 else 0) ++ u8 h.seq ++ u16 body.length ++ body
    { h with seq := (h.seq + 1) % 256, sent := h.sent ++ [[0x55, 0x55, 0xD5] ++ f ++ u16 (crc16 f)] }) s

/-- Positions that a sweep covers: all of the chain, or in an enumeration fault those the counter reached (R440). -/
def swept (s : State) (c : Nat) : Nat :=
  if (chain s c).state = 4 then min (chain s c).counter (chainLen s c) else chainLen s c

/-- Every position of a chain. -/
def chainPositions (s : State) (c : Nat) : List Nat := (List.range (chainLen s c)).map (· + 1)

/-- A change on every companion of a chain that satisfies a test on its position. -/
def onComps (c : Nat) (p : Nat → Bool) (f : Comp → Comp) (s : State) : State :=
  onChain c (fun h => { h with
    comps := h.comps.zipIdx.map fun (x : Comp × Nat) => if p (x.2 + 1) then f x.1 else x.1 }) s

/-- READ_ALL from one end (R439, R450). -/
def sendReadAll (c : Nat) (fromB : Bool) (s : State) : State :=
  sendChain c 0x04 0 fromB (List.replicate (48 * swept s c) 0) (onChain c (fun h => { h with reading := some fromB }) s)

/-- CONFIG to every companion of a chain. -/
def sendConfig (c : Nat) (s : State) : State :=
  sendChain c 0x02 0 false (u8 (nth s.cfg.stack.filter c) ++ u16 s.cfg.stack.ovTrip ++ u16 s.cfg.stack.uvTrip ++
    u8 s.cfg.stack.balTmax) s

/-- WAKE, then ENUMERATE with counter 0 (R440, R446). -/
def sendEnumerate (c : Nat) (s : State) : State :=
  sendChain c 0x01 0 false (u8 0) (sendChain c 0x09 0 false [] (onChain c (fun h => { h with enumDue := true }) s))

/-! ### Sweeps (R440, R441) -/

/-- One chain at the start of a sweep: enumeration where it is due, else SNAP and READ_ALL. -/
def startSweep (s : State) (c : Nat) : State :=
  if chainLen s c = 0 then s
  else
    let s0 := onChain c (fun h => { h with sent := [] }) s
    if (chain s c).enumDue then (if (chain s c).tries = 0 then sendEnumerate c s0 else s)
    else
      let s1 := onComps c (fun _ => true) (fun x => { x with read := false })
        (onChain c (fun h => { h with sweep := (h.sweep + 1) % 65536, fromA := 0 }) s0)
      sendReadAll c false (sendChain c 0x03 0 false (u16 (chain s1 c).sweep) s1)

/-- STACK_SWEEP (R441): a sweep that still runs makes this one start at the following boundary. -/
def execStackSweep (s : State) : Res :=
  .next (if !up s || !ownsStack s || s.stk.chains.any (fun h => h.reading.isSome) then s
    else [0, 1].foldl startSweep s)

/-! ### Plausibility (R452) -/

/-- Cells of the companion at offset `i` of a string that are used. -/
def usedCells (e : Bytes) (i : Nat) : List Nat := maskList (if i + 1 = stCount e then stLast e else 2 ^ 18 - 1) 18

/-- The slots of a string's companions as last read. -/
def stringSlots (s : State) (e : Bytes) : List Bytes := (stringPositions e).map fun p => (comp s (stChain e) p).slot

/-- Cell voltages of a string in the slots of its companions, 100 uV. -/
def stringCells (e : Bytes) (slots : List Bytes) : List Nat :=
  slots.zipIdx.flatMap fun (x : Bytes × Nat) => (usedCells e x.2).map fun k => g16 x.1 (2 * k)

/-- Temperature inputs of a string, 0.1 degC. -/
def stringTemps (slots : List Bytes) : List Int := slots.flatMap fun b => [gi16 b 36, gi16 b 38]

/-- The cell sum agrees with the string's meter point, where its voltage channel is valid. -/
def sumAgrees (s : State) (k sum : Nat) : Bool :=
  !pointOn s (k + 1) || (mchan s (12 + 2 * k)).faulted ||
    100 * ((sum : Int) - 10 * corrected s (12 + 2 * k)).natAbs ≤ (10 * corrected s (12 + 2 * k)).natAbs + 2000000

/-- The sweep just finished is plausible for a string. -/
def plausible (s : State) (k : Nat) (e : Bytes) : Bool :=
  (stringPositions e).all (fun p => (comp s (stChain e) p).read) &&
    (stringCells e (stringSlots s e)).all (fun v => decide (5000 ≤ v) && decide (v ≤ 50000)) &&
    sumAgrees s k (stringCells e (stringSlots s e)).sum

/-- Least and greatest of a list; 0 for none. -/
def leastInt (l : List Int) : Int := l.foldl min (l.headD 0)
def greatestInt (l : List Int) : Int := l.foldl max (l.headD 0)

/-- The values of a plausible sweep, and the new flags it clears (R452, R454). -/
def takeSweep (k : Nat) (e : Bytes) (s : State) : State :=
  let slots := stringSlots s e
  let v := (stringCells e slots).map Int.ofNat
  let t := stringTemps slots
  let news := (stringPositions e).any fun p => (comp s (stChain e) p).fresh
  raiseIf news evStkCompanion (onComps (stChain e) (fun p => (stringPositions e).contains p) (fun x => { x with fresh := false })
    (onString k (fun y => { y with
      slots := slots, vMin := (leastInt v).toNat, vMax := (greatestInt v).toNat, vSum := (stringCells e slots).sum
      tMin := leastInt t, tMax := greatestInt t }) s))

/-- One string of a chain after a sweep. -/
def judgeString (c : Nat) (s : State) (k : Nat) : State :=
  match stringCfg s k with
  | some e => if stChain e = c && plausible s k e then takeSweep k e s else s
  | none => s

/-- The end of a sweep on a chain: what was not read is stale, strings are judged, the limits delivered once no chain
reads any more (R451, R452, R454). -/
def finishSweep (c : Nat) (s : State) : State :=
  let s1 := onChain c (fun h => { h with reading := none }) s
  let lost := (chainPositions s1 c).filter fun p => !(comp s1 c p).read
  let s2 := raiseIf (lost.any fun p => !(comp s1 c p).stale) evStkStale
    (onComps c (fun p => lost.contains p) (fun x => { x with stale := true }) s1)
  let s3 := settleService ([1, 2, 3, 4].foldl (judgeString c) s2)
  if s3.stk.chains.all fun h => h.reading.isNone then deliverStack s3 else s3

/-! ### READ_ALL (R450, R451) -/

/-- SLOT_CRC is right and SWEEP_TAG current. -/
def slotClean (s : State) (c p : Nat) (b : Bytes) : Bool :=
  g16 b 46 == crc16 (slice b 0 46 ++ u8 p) && g8 b 44 == (chain s c).sweep % 256

/-- A companion that holds its balancing for its die's temperature: a mask is commanded and T_DIE is at least BAL_TMAX
(R445). -/
def holdsBalance (s : State) (x : Comp) : Bool := x.balance != 0 && (10 * s.cfg.stack.balTmax : Int) ≤ gi16 x.slot 40

/-- A clean slot taken: its values are those of the sample 2 ms after the sweep's boundary. -/
def takeSlot (c : Nat) (s : State) (x : Nat × Bytes) : State :=
  let p := x.1
  let b := slice x.2 0 48
  let old := comp s c p
  if p = 0 || swept s c < p || !slotClean s c p b then s
  else
    let s1 := onComp c p (fun y => { y with
      slot := b, at_ := some (16 * (s.alc.epoch / 16) + 2), read := true, stale := false }) s
    raiseIf (holdsBalance s (comp s1 c p) && !holdsBalance s old) evStkBalance
      (raiseIf (g8 b 43 != g8 old.slot 43) evStkComparator (raiseIf old.stale evStkStale s1))

/-- Blank slots on a whole ring: the companion has lost its position, and enumeration is due (R440, R452). -/
def noteBlanks (c : Nat) (slots : List (Nat × Bytes)) (s : State) : State :=
  let blank := (chainPositions s c).filter fun p => p ≤ swept s c && slots.any fun x => x.1 == p && allZero x.2
  if blank.isEmpty then s
  else raise evStkCompanion (onComps c (fun p => blank.contains p) (fun x => { x with fresh := true })
    (onChain c (fun h => { h with enumDue := true }) s))

/-- A chain found broken between a position and the next (R450). -/
def breakFound (c position : Nat) (s : State) : State :=
  let h := chain s c
  if h.state = 2 && h.break_ = position then s
  else raise evStkBreak (record (unstatedCode 11 0) srcHousekeeping (u8 c ++ u8 position)
    (onChain c (fun h => { h with state := if h.state = 4 then 4 else 2, break_ := position }) s))

/-- A READ_ALL from PANcA has come back at PANcB: the chain is whole (R451). -/
def wholeAgain (c : Nat) (s : State) : State :=
  if (chain s c).state = 2 then raise evStkBreak (onChain c (fun h => { h with state := 1, break_ := 0 }) s) else s

/-- The sweep is partial: counted, and the rest is read from the other end (R450). -/
def goPartial (c : Nat) (s : State) : State :=
  sendReadAll c true (raise evStkPartial (onChain c (fun h => { h with
    partials := h.partials + 1
    fromA := (((List.range 48).filter fun i => (nth h.comps i).read).map (· + 1)).foldl max 0 }) s))

/-- The reread from PANcB has ended: the break lies above the highest position read from PANcA. -/
def endReread (c : Nat) (s : State) : State := finishSweep c (breakFound c (chain s c).fromA s)

/-- A slot as the part without authority keeps it (R500): the sweep is not its own, so its tag is not judged. -/
def keepSlot (c : Nat) (s : State) (x : Nat × Bytes) : State :=
  let b := slice x.2 0 48
  if x.1 = 0 || chainLen s c < x.1 || g16 b 46 != crc16 (slice b 0 46 ++ u8 x.1) then s
  else onComp c x.1 (fun y => { y with slot := b, at_ := some (16 * (s.alc.epoch / 16) + 2), read := true, stale := false }) s

/-- A READ_ALL frame as it arrives is one that Drinov sent: its CRC fails, or it has CMD 0x04 and the SEQ of the frame last sent
(R450). -/
def readAllOwn (s : State) (c : Nat) (f : Bytes) : Bool :=
  let n := f.length - 2
  g16 f n != crc16 (f.take n) || (g8 f 0 == 4 && (g8 f 3 + 1) % 256 == (chain s c).seq)

/-- The slots of a READ_ALL frame, with their positions: body offset 48 x (position - 1). -/
def frameSlots (f : Bytes) : List (Nat × Bytes) :=
  (List.range ((f.length - 8) / 48)).map fun k => (k + 1, slice f (6 + 48 * k) 48)

/-- READ_ALL_RETURN: a frame, header to CRC, comes back at PANcA or PANcB. At the other end from the one that sent it the ring is
whole; at the same end the sweep is partial (R450, R451). -/
def execReadAllReturn (c : Nat) (atB : Bool) (frame : Bytes) (s : State) : Res :=
  let slots := frameSlots frame
  .next (if up s && shadowing s then slots.foldl (keepSlot c) s
    else if !up s || !ownsStack s || !readAllOwn s c frame then s
    else match (chain s c).reading with
      | none => s
      | some fromB =>
        let s1 := slots.foldl (takeSlot c) s
        if fromB then endReread c s1
        else if atB then finishSweep c (noteBlanks c slots (wholeAgain c s1))
        else goPartial c s1)

/-- READ_ALL_TIMEOUT. -/
def execReadAllTimeout (c : Nat) (s : State) : Res :=
  .next (if !up s || !ownsStack s then s
    else match (chain s c).reading with
      | some false => goPartial c s
      | some true => endReread c s
      | none => s)

/-! ### Enumeration (R440) -/

/-- The stored serial of a position. -/
def serialOf (s : State) (c p : Nat) : Option Nat := nth (nth s.nvStk.serials c) (p - 1)

/-- READ_INFO of one companion: its serial judged and stored, its balancing mask taken. -/
def takeInfo (c : Nat) (s : State) (x : Companion) : State :=
  let p := x.position
  if p = 0 || chainLen s c < p then s
  else
    let s1 := onComp c p (fun y => { y with balance := x.balMask }) (sendChain c 0x06 p false (List.replicate 32 0) s)
    let s2 := raiseIf x.conflict evStkComparator
      { s1 with nvStk.serials := upd s1.nvStk.serials c fun l => l.set (p - 1) (some x.serial) }
    match serialOf s c p with
    | none => onComp c p (fun y => { y with fresh := true }) s2
    | some old =>
      if old = x.serial then s2
      else raise evStkCompanion (record (unstatedCode 11 1) srcHousekeeping (u8 c ++ u8 p ++ u48 old ++ u48 x.serial)
        (onComp c p (fun y => { y with fresh := true, replaced := true }) s2))

/-- The counter equals the number of companions: serials are read, CONFIG goes out, and after a chain start or sleep every
companion is newly enumerated. -/
def enumerated (c : Nat) (companions : List Companion) (s : State) : State :=
  let started := (chain s c).state = 3
  let s1 := onChain c (fun h => { h with
    state := if h.state = 2 then 2 else 1, counter := chainLen s c, tries := 0, enumDue := false }) s
  let s2 := if started then raise evStkCompanion (onComps c (fun _ => true) (fun x => { x with fresh := true }) s1) else s1
  sendConfig c (companions.foldl (takeInfo c) s2)

/-- A wrong counter: twice repeated, then the enumeration fault (R440). -/
def miscounted (c counter : Nat) (s : State) : State :=
  let s1 := onChain c (fun h => { h with counter := counter, tries := h.tries + 1 }) s
  if (chain s1 c).tries < 3 then s1
  else
    let s2 := onChain c (fun h => { h with state := 4, enumDue := false }) s1
    let s3 := onComps c (fun p => min counter (chainLen s c) < p) (fun x => { x with stale := true }) s2
    settleService (if (chain s c).state = 4 then s3
      else raise evStkCompanion (record (unstatedCode 11 2) srcHousekeeping (u8 c ++ u8 counter) s3))

/-- ENUMERATE_RETURN (R440). -/
def execEnumerateReturn (c counter : Nat) (turned : Bool) (companions : List Companion) (s : State) : Res :=
  .next (if !up s || !ownsStack s || chainLen s c = 0 || !(chain s c).enumDue then s
    else if turned then
      breakFound c counter (onChain c (fun h => { h with counter := counter, tries := 0, enumDue := false }) s)
    else if counter = chainLen s c then enumerated c companions s
    else miscounted c counter s)

/-- ENUMERATION_RETRY: after a wrong counter, or in the enumeration fault (R440). -/
def execEnumerationRetry (c : Nat) (s : State) : Res :=
  let h := chain s c
  .next (if !up s || !ownsStack s || chainLen s c = 0 then s
    else if (h.enumDue && 1 ≤ h.tries) || h.state = 4 then sendEnumerate c s
    else s)

/-! ### Balancing (R444) -/

/-- The mean cell temperature lies within [T_LOW_FULL, T_HIGH_FULL). -/
def balanceTemp (s : State) (k : Nat) (e : Bytes) : Bool :=
  let l := stringTemps (stackString s k).slots
  let n : Int := l.length
  10 * stTemp e 1 * n ≤ l.sum && l.sum < 10 * stTemp e 2 * n

/-- BALANCE to one companion of a string, where a cell of it is above the window. -/
def balanceComp (k : Nat) (e : Bytes) (s : State) (i : Nat) : State :=
  let p := stFirst e + i
  let b := nth (stackString s k).slots i
  let lo := (stackString s k).vMin
  let mask := maskOf ((usedCells e i).filter fun n => decide (lo + 10 * stWindow e < g16 b (2 * n)))
  if mask = 0 then s
  else raise evStkBalance (onComp (stChain e) p (fun y => { y with balance := mask })
    (sendChain (stChain e) 0x05 p false (uLE 3 mask ++ u16 ((lo + 5 * stWindow e) / 10) ++ u16 60) s))

/-- Balancing of one string in service. -/
def balanceString (s : State) (k : Nat) : State :=
  match stringCfg s k with
  | some e => if (stackString s k).service && balanceTemp s k e then (List.range (stCount e)).foldl (balanceComp k e) s else s
  | none => s

/-- BALANCE_CYCLE (R444). -/
def execBalanceCycle (s : State) : Res := .next (if up s && ownsStack s then [1, 2, 3, 4].foldl balanceString s else s)

/-- Boot: the companions of every chain in use have slept (R446). -/
def startStack (s : State) : State :=
  { s with stk.chains := s.stk.chains.zipIdx.map fun (x : Pannier × Nat) =>
      { x.1 with state := if chainLen s x.2 = 0 then 0 else 3, enumDue := true } }

/-- One metering sample integrated into a string's charge (R454). -/
def integrateString (s : State) (k : Nat) : State :=
  match stringCfg s k with
  | some e => onString k (fun y => { y with
      charge := min (stringFull e) ((y.charge : Int) + corrected s (13 + 2 * k)).toNat }) s
  | none => s

/-! ### Commands (R456, R457) -/

/-- STK_GET_STATUS. -/
def execStkGetStatus (r : Req) (s : State) : Res :=
  command { op := 0x0B01, own := .stack, reads := true } r (fun s =>
    .ok s ((s.stk.chains.flatMap fun h => u8 h.state ++ u8 h.counter ++ uFlag (!h.loop.value) ++ u8 h.break_ ++ u16 h.sweep ++
        u32 h.partials) ++
      ([1, 2, 3, 4].flatMap fun k =>
        let t := stackString s k
        uFlag t.service ++ u16 (stringSoc (stringOf s k) t) ++ u16 t.iDis ++ u16 t.iChg) ++
      u32 s.stk.dis ++ u32 s.stk.chg)) s

/-- STK_GET_COMPANION. -/
def execStkGetCompanion (r : Req) (c p : Nat) (s : State) : Res :=
  command { op := 0x0B02, own := .stack, reads := true } r (fun s =>
    checked [(2 ≤ c || p = 0 || chainLen s c < p, stBadArg)] s fun s =>
      let x := comp s c p
      .ok s (x.slot ++ u32 (match x.at_ with | some e => age32 (s.alc.epoch - e) | none => 4294967295) ++
        u8 ((if x.stale then 1 else 0) + (if x.fresh then 2 else 0) + (if x.replaced then 4 else 0)) ++
        u48 ((serialOf s c p).getD 0) ++ uLE 3 x.balance)) s

/-- STK_SET_SOC. -/
def execStkSetSoc (r : Req) (k soc : Nat) (s : State) : Res :=
  command { op := 0x0B03, own := .stack, secure := true, states := lcIFS, cred := 1 } r (fun s =>
    checked [((stringCfg s k).isNone || 1000 < soc, stBadArg)] s fun s =>
      .ok (onString k (fun y => { y with charge := soc * stringFull (stringOf s k) / 1000 }) s)) s

/-- STK_CLEAR_FAULT. -/
def execStkClearFault (r : Req) (c p : Nat) (s : State) : Res :=
  command { op := 0x0B04, own := .stack, secure := true, states := lcIFS, cred := 1 } r (fun s =>
    checked [(2 ≤ c || chainLen s c = 0 || chainLen s c < p, stBadArg),
        ((chain s c).state == 2 || (chain s c).state == 3, stBusy)] s fun s =>
      .ok (sendChain c 0x07 p false [] s)) s

end Sys2Proof.Machine
end

