-- ==== Sys2Proof/Machine/Check.lean ====
section
/-!
DEFINITION. The configuration checker as it judges an image (R22, R23, R42, R43 and the load checks of the owning chapters):
the status with which it refuses an image, if it does. Readings: log entry 29.
-/
namespace Sys2Proof.Machine

/-- A value within its range. -/
def within (lo hi x : Nat) : Bool := lo ≤ x && x ≤ hi

/-- No two entries of a list have the same first byte. -/
def firstDistinct (l : List Bytes) : Bool := allDistinct (l.map fun b => g8 b 0)

/-! ### Allocation section (R22, R23, R130) -/

/-- A ring-position entry within its ranges; its reserved fields are ignored (R6). -/
def positionOk (b : Bytes) : Bool :=
  posKind b = 0 || (posKind b ≤ 2 && posOk (g8 b 0) && posReach b < 4096 && g8 b 10 < 2 &&
    1 ≤ posRamp b && posCurrent b ≤ 3000 && (if posKind b = 2 then posReach b == 0 else posRating b ≤ 625))

/-- An outlet entry within its ranges, its POST suiting the role (R130). -/
def outletEntryOk (role : Nat) (b : Bytes) : Bool :=
  within 1 12 (outNumber b) && outCurrent b ≤ 3000 && outVoltage b ≤ 1250 && within 50 500 (outVMin b) &&
    within 1 3750 (outRampUp b) && within 10 200 (outHold b) && outClass b ≤ 7 &&
    (if outPost b = 0 then role == 3 || role == 6 else outPost b ≤ 6 && [1, 3, 4, 5].contains role)

/-- The site entry within its ranges; the contract values must be given. -/
def siteOk (t : SiteCfg) : Bool :=
  t.contractImport.isSome && t.contractExport.isSome &&
    ([t.contractImport, t.contractExport, t.fallbackImport, t.fallbackExport] ++ t.feederLimit).all (fun x => decide (x.getD 0 ≤ 50000)) &&
    (t.nominal == 50 || t.nominal == 60) && t.maxOther ≤ 5000 && within 1 600 t.releaseDelay && t.headroom.getD 0 ≤ 3750

/-- Used ring positions of an image. -/
def usedPositions (c : ConfigImage) : List Bytes := c.positions.filter fun b => posKind b != 0

/-- Posts that an image names. -/
def postsNamed (c : ConfigImage) : List Nat := ([1, 2, 3, 4, 5, 6] : List Nat).filter fun p => c.outlets.any fun b => outPost b == p

/-- The limits of R22 and of the table of outlet and stage limits: two outlets for each POST part among them. -/
def limitsOk (c : ConfigImage) : Bool :=
  let outs := c.outlets.length
  let localOuts := (c.outlets.filter fun b => outPost b == 0).length
  let stages := (usedPositions c).length
  (([1, 2, 3, 4, 5, 6] : List Nat).all fun p => (c.outlets.filter fun b => outPost b == p).length ≤ 2) && match c.role with
  | 2 => stages == 0
  | 3 => outs ≤ 8 && localOuts ≤ 2 && (postsNamed c).length ≤ 3 && stages ≤ 48
  | 6 => localOuts ≤ 3 && stages ≤ 12
  | _ => outs ≤ 12 && (postsNamed c).length ≤ 6 && stages ≤ 48

/-! ### Chainring section (R179, R516) -/

/-- The section within its ranges. -/
def chainOk (c : ConfigImage) : Bool :=
  within 20 200 c.chain.tick && [0, 1].all fun r =>
    !nth c.chain.enabled r || (within 1 24 (nth c.chain.slots r) && within 1 150 (nth c.chain.lengthM r) &&
      (usedPositions c).all fun b => g8 b 0 / 128 != r || g8 b 0 % 32 ≤ nth c.chain.slots r)

/-- The tick carries the frame of every enabled ring (R179), in ns; a peloton member has one ring of at most 12 (R516). -/
def chainFits (c : ConfigImage) : Bool :=
  [0, 1].all fun r => !nth c.chain.enabled r ||
    (40 * (24 + 24 * nth c.chain.slots r) + 160 * nth c.chain.slots r + 5 * nth c.chain.lengthM r + 2000 ≤ 1000 * c.chain.tick &&
      (c.role != 6 || (r == 0 && nth c.chain.slots r ≤ 12)))

/-! ### Vehicle links and sessions (R217, R225) -/

/-- Four edges rise strictly; the second and third may be equal where allowed. -/
def edgesRise (a b c d : Nat) (equal : Bool) : Bool := a < b && (b < c || (equal && b == c)) && c < d

/-- A vehicle-link entry within its ranges (R205, R217). -/
def linkEntryOk (role : Nat) (b : Bytes) : Bool :=
  let bridged := lkType b == 3
  g8 b 0 < 3 && (g8 b 0 < 2 || role == 6) && lkType b ≤ 3 && (g8 b 0 < 2 || bridged || lkType b == 0) &&
    lkProtocols b < 8 && lkServices b < 16 && within 3 10 (lkFilter b) &&
    g8 b 5 ≤ 20 && (lkAttenMax b == 0 || within 20 80 (lkAttenMax b)) && within 20 50 (lkSlacInit b) &&
    (if bridged then within 1 4094 (lkVid b) && lkGpio b ≤ 15 else lkVid b == 0 && lkGpio b == 255) &&
    g8 b 11 == 0 && edgesRise (lkE b 0) (lkE b 1) (lkE b 2) (lkE b 3) true &&
    (if lkType b = 2 then edgesRise (lkC b 0) (lkC b 1) (lkC b 2) (lkC b 3) false else zeroAt b 20 8) && zeroAt b 28 4

/-- The VIDs of the bridged outlets differ, and none is that of a mailbox binding on ETH1 (R213). -/
def vidsApart (c : ConfigImage) : Bool :=
  let vids := (c.links.filter fun b => lkType b == 3).map lkVid
  allDistinct vids && (List.range 4).all fun ch => nth c.binding ch != 2 || !vids.contains (nth c.bindingVid ch)

/-- A session entry within its ranges (R225). -/
def sessionEntryOk (b : Bytes) : Bool :=
  g8 b 0 < 3 && seSoPos b ≤ 5 && seSoNeg b ≤ 5 && seSoPos b != seSoNeg b && (seMirror b ≤ 15 || seMirror b == 255) &&
    within 32 39 (seImdChannel b) && seImdSi b ≤ 15 && 1 ≤ seImdScale b && within 30 60 (seVwt b) && within 10 300 (seIOpen b) &&
    within 500 5000 (seEndTimeout b) && within 100 1000 (seHubTimeout b) && within 5 120 (seAuthTimeout b) &&
    within 5 60 (seCheckMax b) && within 500 20000 (seImdSettle b) && within 5 50 (seRenegBand b) && within 1 60 (seRenegHold b) &&
    within 5 20 (sePrechargeI b) && seFlags b < 8 && zeroAt b 27 5

/-- No pair and no input serves two session entries. -/
def sessionsApart (l : List Bytes) : Bool :=
  allDistinct (l.flatMap fun b => [seSoPos b, seSoNeg b]) &&
    allDistinct (l.flatMap fun b => [seMirror b, seImdSi b].filter fun (x : Nat) => x < 16)

/-- No pair that a session entry names is a function output of the safety set (R225). -/
def sessionPairsFree (t : SafeSet) (l : List Bytes) : Bool :=
  l.all fun b => prMode (nth t.pairs (seSoPos b)) != 2 && prMode (nth t.pairs (seSoNeg b)) != 2

/-! ### Heat (R251, R254) -/

/-- An outlet slot that the role has, or none. -/
def slotNamed (role slot : Nat) : Bool := slot == 255 || (if role = 6 then slot < 3 else (role == 2 || role == 3) && slot < 2)

/-- A thermal input entry within its ranges. -/
def tinEntryOk (role : Nat) (b : Bytes) : Bool :=
  g8 b 0 < 32 && tinType b ≤ 2 && (tinType b == 0 || (tinUse b ≤ 4 && slotNamed role (tinSlot b) && tinGroup b ≤ 15 &&
    tinMargin b ≤ 50 && (if tinType b = 2 then 100 ≤ g16 b 6 && within 2000 6000 (g16 b 8) else zeroAt b 6 4) &&
    decide (-5000 ≤ tinLo b) && decide (tinHi b ≤ 25000) &&
    ([2, 3, 6].contains role || tinUse b == 0 || tinUse b == 4)))

/-- A frequency input entry within its ranges. -/
def finEntryOk (role : Nat) (b : Bytes) : Bool :=
  g8 b 0 < 8 && finUse b ≤ 2 && (finUse b == 0 || ([2, 3, 6].contains role && within 1 60000 (finPulses b) && within 1 10000 (finMax b) &&
    slotNamed role (finSlot b)))

/-- A threshold entry that R254 lets pass. -/
def thresholdOk (c : ConfigImage) (b : Bytes) : Bool :=
  g8 b 0 < 64 && thKind b ≤ 3 && (thKind b == 0 ||
    (thSource b < (if thKind b = 1 then 32 else if thKind b = 2 then 8 else 3) && thType b ≤ 2 && thAction b ≤ 2 &&
      !(thType b == 2 && thKind b == 2) && (if thAction b = 0 then thSlot b == 255 else thSlot b != 255 && slotNamed c.role (thSlot b)) &&
      (if thKind b = 2 then 10 else 100) ≤ thHyst b && (thAction b == 1 || thDerate b == 0) &&
      (if thType b = 2 then within 1 60 (thWindow b) else thWindow b == 0) &&
      (if thKind b = 2 then true else within 1 20 (thNear b)) && zeroAt b 14 2))

/-- An outlet thermal entry within its ranges. -/
def thermalEntryOk (b : Bytes) : Bool :=
  g8 b 0 < 3 && within 10 30000 (htLimit b) && htDerate b < htStop b && within 1 3000 (htRise b) &&
    htHotSlot b ≤ 9 && htMeanSlot b ≤ 9 && htTinIn b < 32 && htTinOut b < 32 && htFlow b < 8

/-! ### Spoke-line (R319, R330) -/

/-- The section within its ranges. -/
def spokeOk (s : State) (c : ConfigImage) : Bool :=
  let k := c.spoke
  k.network ≤ 3 && k.conductor ≤ 3 && within 200 2000 k.slotPhase && within 4 20 k.swLen && k.tmMargin ≤ 12 && k.txAtten ≤ 20 &&
    k.notches.length ≤ 16 && k.notches.all (fun (n : Nat × Nat) => 82 ≤ n.1 && n.1 ≤ n.2 && n.2 ≤ 1131) &&
    within 1 16 k.retryMax && within 2 10 k.missMax && k.keySlot ≤ 255 && within 1 4094 k.islandVid && k.bridgeVid ≤ 4094 &&
    768 ≤ activeCarriers { s with cfg := c }

/-- The contention region of the configured island holds S1 symbols (R330). -/
def spokeFits (s : State) (c : ConfigImage) : Bool :=
  let t := { s with cfg := c }
  c.spoke.guest || c.role == 2 ||
    contentionOk (if c.site.nominal = 60 then 33333 else 40000) c.spoke.slotPhase c.spoke.swLen (span1 t)
      (slotSymbols 1 ((postsNamed c).length + if c.role = 4 || c.role = 5 then 1 else 0))

/-! ### Recorder and peloton (R490, R496, R515) -/

/-- A rate-limit entry that R490 lets pass. -/
def limitEntryOk (b : Bytes) : Bool :=
  within 2 4 (g16 b 0 / 4096) && 1 ≤ g8 b 2 && g8 b 3 == 0 && within 1 3600 (g16 b 4) && zeroAt b 6 2

/-- The rate limits of an image. -/
def limitsTableOk (c : ConfigImage) : Bool :=
  within 8 64 c.rateMax && c.limits.length ≤ 64 && c.limits.all limitEntryOk && allDistinct (c.limits.map fun b => g16 b 0)

/-- The channel bindings of an image (R56). -/
def bindingOk (c : ConfigImage) : Bool := c.binding.length == 4 && c.binding.all (fun b => decide (b ≤ 3)) && c.binding.any (· != 3)

/-! ### Load channels (R417) -/

/-- The load-channel section within its ranges. -/
def loadsOk (c : ConfigImage) : Bool :=
  c.loads.all (loadEntryOk c.gens) && c.gens.all genEntryOk && firstDistinct c.loads && firstDistinct c.gens

/-! ### The verdict -/

/-- The Cadence configuration of an image. -/
def imageCadence (c : ConfigImage) : CadConfig :=
  { role := c.role, tick := c.chain.tick, positions := c.positions, outlets := c.outlets, loops := c.loops, groups := c.groups }

/-- Sections whose values are in range and agree; otherwise ST_BAD_ARG. -/
def imageValues (s : State) (c : ConfigImage) : Bool :=
  let outs := c.outlets.map outNumber
  bindingOk c && c.positions.all positionOk && allDistinct ((usedPositions c).map fun b => posIndex (g8 b 0)) &&
    c.outlets.all (outletEntryOk c.role) && allDistinct outs && siteOk c.site && chainOk c &&
    ruleTableOk outs (ruleTable c.rules) && cadVerdict (imageCadence c) != some stBadArg &&
    c.links.all (linkEntryOk c.role) && firstDistinct c.links && vidsApart c && c.sessions.all sessionEntryOk && firstDistinct c.sessions &&
    sessionsApart c.sessions && sessionPairsFree (safeSet s) c.sessions && sharesOk { s with cfg := c } (safeSet s) &&
    c.tins.all (tinEntryOk c.role) && firstDistinct c.tins && c.fins.all (finEntryOk c.role) && firstDistinct c.fins &&
    c.thresholds.all (thresholdOk c) && firstDistinct c.thresholds && c.thermal.all thermalEntryOk && within 1 10 c.dieHyst &&
    loadsOk c && stackOk (safeSet s) c && limitsTableOk c && (c.shares.sum ≤ 1000) &&
    (c.role == 6 || (spokeOk s c && spokeFits s c))

/-- Instructions of the housekeeping core per 1 ms (R432, R455, R496). -/
def housekeepingCost (c : ConfigImage) : Nat :=
  loadCost c.loads c.gens + (if c.role = 2 then 0 else stackCost c.stack) + 1500

/-- Budgets and limits; otherwise ST_OVER_BUDGET (R23, R42, R167, R179, R311, R426). -/
def imageFits (s : State) (c : ConfigImage) : Bool :=
  limitsOk c && chainFits c && meterLoad { s with cfg := c, sys.role := c.role } ≤ meterBudget && cadVerdict (imageCadence c) == none && epochCost c (ruleTable c.rules) ≤ epochBudget &&
    loadBudgetOk c.loads c.gens && housekeepingCost c ≤ 50000

/-- The status with which the checker refuses an image; none where it passes: a group that the role does not own (R16, R152),
a value, a budget. -/
def imageVerdict (s : State) (c : ConfigImage) : Option Nat :=
  if cadVerdict (imageCadence c) == some stNotInRole then some stNotInRole
  else if !imageValues s c then some stBadArg
  else if !imageFits s c then some stOverBudget
  else none

end Sys2Proof.Machine
end

