-- ==== Sys2Proof/Machine/Heat.lean ====
section
/-!
DEFINITION. Heat (chapter 10): thermal and frequency inputs, thresholds, failed sensors, the observer's estimate, the
thermal ceiling, die temperatures. Temperatures are in 0.01 degC, flows in 0.01 L/min (log entry 18).
-/
namespace Sys2Proof.Machine

abbrev evHeatThreshold : Nat := 56
abbrev evHeatSensorFailed : Nat := 57
abbrev evHeatSensorRecovered : Nat := 58
abbrev evHeatCeiling : Nat := 59
abbrev evHeatStopDemand : Nat := 60
abbrev evHeatThrottle : Nat := 61
abbrev evHeatShutdown : Nat := 62
abbrev evHeatObserver : Nat := 63

/-! ### Entries and inputs -/

def tinCfg (s : State) (i : Nat) : Bytes := (entryAt s.cfg.tins i).getD []
def finCfg (s : State) (i : Nat) : Bytes := (entryAt s.cfg.fins i).getD []
def heatCfg (s : State) (slot : Nat) : Bytes := (entryAt s.cfg.thermal slot).getD []

/-- The threshold entries in use, ascending. -/
def thresholds (s : State) : List Nat :=
  (List.range 64).filter fun i => match entryAt s.cfg.thresholds i with | some e => thKind e != 0 | none => false
def thCfg (s : State) (i : Nat) : Bytes := (entryAt s.cfg.thresholds i).getD []

/-- An input by kind 0 TIN, 1 FIN, 2 die, 3 hot-spot. -/
def inputAt (s : State) (kind i : Nat) : Input :=
  match kind with
  | 0 => nth s.heat.tin i
  | 1 => nth s.heat.fin i
  | 2 => nth s.heat.die i
  | _ => (nth s.heat.out i).hot

def onOutHeat (slot : Nat) (f : OutletHeat → OutletHeat) (s : State) : State :=
  { s with heat.out := upd s.heat.out slot f }

/-- Changing an input by kind. -/
def onInput (kind i : Nat) (f : Input → Input) (s : State) : State :=
  match kind with
  | 0 => { s with heat.tin := upd s.heat.tin i f }
  | 1 => { s with heat.fin := upd s.heat.fin i f }
  | 2 => { s with heat.die := upd s.heat.die i f }
  | _ => onOutHeat i (fun o => { o with hot := f o.hot }) s

/-- An input kind and number that exist (HEAT_GET_INPUT). -/
def inputOk (kind i : Nat) : Bool := (kind == 0 && i < 32) || (kind == 1 && i < 8) || (kind == 2 && i < 8) || (kind == 3 && i < 3)

/-- The input is failed or recovered: its substitute is in force. -/
def substituted (x : Input) : Bool := x.state == 2 || x.state == 3

/-- The latest reading is not failed. -/
def readingGood (x : Input) : Bool := x.state == 1 || 0 < x.valid

/-- Local outlets with an observer. -/
def observed (s : State) (slot : Nat) : Bool := localSlot s slot && htObserver (heatCfg s slot)

/-- Inputs of every kind that are configured, as (kind, number). -/
def inputsUsed (s : State) : List (Nat × Nat) :=
  (((List.range 32).filter fun i => tinType (tinCfg s i) != 0).map fun i => (0, i)) ++
    (((List.range 8).filter fun i => finUse (finCfg s i) != 0).map fun i => (1, i)) ++
    ((List.range 8).map fun i => (2, i)) ++ (((List.range 3).filter (observed s)).map fun i => (3, i))

/-! ### Failed sensors (R262 to R265) -/

/-- The neighbours of an input (R251, R259, die sensor table). -/
def neighbours (s : State) (kind i : Nat) : List (Nat × Nat) :=
  match kind with
  | 0 =>
    if tinGroup (tinCfg s i) = 0 then []
    else ((List.range 32).filter fun j => j != i && tinType (tinCfg s j) != 0 && tinGroup (tinCfg s j) == tinGroup (tinCfg s i)).map
      fun j => (0, j)
  | 1 => []
  | 2 => ((List.range 8).filter fun j => j != i && (j < 6) == (i < 6)).map fun j => (2, j)
  | _ => ((List.range 32).filter fun j => tinUse (tinCfg s j) == 1 && tinSlot (tinCfg s j) == i && tinType (tinCfg s j) != 0).map
      fun j => (0, j)

/-- The margin in 0.01 K. -/
def margin (s : State) (kind i : Nat) : Int :=
  match kind with
  | 0 => 100 * tinMargin (tinCfg s i)
  | 2 => 1000
  | _ => 2000

/-- What a neighbour contributes: its reading, or its last good value where it has failed. -/
def liveReading (s : State) (k : Nat × Nat) : Int :=
  let x := inputAt s k.1 k.2
  if substituted x then x.good else x.value

/-- The substitute at a sample point (R262); a frequency input carries 0. -/
def substitute (s : State) (kind i : Nat) (prev : Option Int) : Int :=
  if kind = 1 then 0
  else
    let x := inputAt s kind i
    let v := (neighbours s kind i).foldl (fun m k => max m (liveReading s k)) x.good + margin s kind i
    match prev with
    | some p => max p v
    | none => v

/-- An input fails at this sample point, which is recorded (R262). -/
def failInput (kind i : Nat) (s : State) : State :=
  let v := substitute s kind i none
  record (unstatedCode 6 1) srcHousekeeping (u8 kind ++ u8 i ++ i32 v)
    (raiseIf (kind = 3) evHeatObserver (raise evHeatSensorFailed (onInput kind i (fun x => { x with
      state := 2, sub := v, value := v, valid := 0, ack := false, failures := (x.failures + 1) % 2 ^ 32 }) s)))

/-- A failed input becomes recovered (R263). -/
def recoverInput (kind i : Nat) (s : State) : State :=
  let x := inputAt s kind i
  if x.state == 2 && 10 ≤ x.valid then raise evHeatSensorRecovered (onInput kind i (fun x => { x with state := 3 }) s) else s

/-- A reading of an input at a sample point: `v` the converted value where the reading is not failed, `raw` what the
converter gave (R262 to R264). -/
def takeReading (kind i : Nat) (raw v : Option Int) (s : State) : State :=
  let x := inputAt s kind i
  let s := onInput kind i (fun x => { x with last := match raw with | some r => some r | none => x.last }) s
  match v with
  | some r =>
    if substituted x && !(x.state == 3 && x.ack) then
      let s := onInput kind i (fun x => { x with good := r, valid := x.valid + 1 }) s
      let t := substitute s kind i (some x.sub)
      recoverInput kind i (onInput kind i (fun x => { x with sub := t, value := t }) s)
    else
      raiseIf (kind = 3 && x.state == 3) evHeatObserver
        (onInput kind i (fun x => { x with state := 1, value := r, good := r, valid := 0, ack := false }) s)
  | none =>
    if substituted x && !(x.state == 3 && x.ack) then
      let t := substitute s kind i (some x.sub)
      onInput kind i (fun x => { x with sub := t, value := t, valid := 0, state := 2 }) s
    else failInput kind i s

/-- The thermal history area after a sample: every failed input (R265). -/
def keepFailed (s : State) : State :=
  let now := ((inputsUsed s).filter fun k => substituted (inputAt s k.1 k.2)).map fun k =>
    (k.1, k.2, (inputAt s k.1 k.2).good, (inputAt s k.1 k.2).sub)
  { s with nvHeat.failed := now }

/-! ### Conversion (R249 to R251) -/

/-- 10^23 times R(t) / R(0) of a PT1000 at t in 0.01 degC, by the Callendar-Van Dusen equation with the coefficients of IEC 60751.
PRESUMED, log entry 18: the spec names the standard and restates no coefficient. -/
def ptRatio (n : Int) : Int :=
  10 ^ 23 + 39083 * 10 ^ 14 * n - 5775 * 10 ^ 9 * n * n - if n < 0 then 4183 * (n - 10000) * n * n * n else 0

/-- The largest t in [lo, lo + 2^k) 0.01 degC at which a PT1000 has at most a resistance in mOhm. -/
def ptSearch (mohm : Nat) : Nat → Int → Int
  | 0, lo => lo
  | k + 1, lo => ptSearch mohm k (if ptRatio (lo + 2 ^ k) ≤ 10 ^ 17 * (mohm : Int) then lo + 2 ^ k else lo)

/-- The temperature of a PT1000 by its resistance in mOhm, 0.01 degC, from -200 degC up. -/
def ptTemp (mohm : Nat) : Int := ptSearch mohm 16 (-20000)

/-- The temperature of an NTC by its resistance in mOhm, NTC_RNOM in ohm and NTC_B in K, 0.01 degC (R249). -/
def ntcTemp (rnom b mohm : Nat) : Int :=
  let d : Int := b * 10 ^ 11 + 29815 * Config.lnNano mohm (1000 * rnom)
  if d ≤ 0 then 1000000 else 29815 * b * 10 ^ 11 / d - 27315

/-- The temperature that a TIN input's resistance stands for (R249). -/
def tinTemp (e : Bytes) (mohm : Nat) : Int := if tinType e = 1 then ptTemp mohm else ntcTemp (tinRnom e) (tinB e) mohm

/-- The frequency of a FIN input in mHz from its rising edges in the preceding 1 s, pulses shorter than 20 us ignored, and the
microseconds between the first and the last (R251). -/
def finFreq (edges span : Nat) : Nat := if edges < 2 then 0 else (edges - 1) * 1000000000 / max 1 span

/-- A TIN reading that is not failed (R250). -/
def tinReading (s : State) (i : Nat) (r : Option Int) : Option Int :=
  let e := tinCfg s i
  match r with
  | none => none
  | some v =>
    let jump := match (nth s.heat.tin i).last with
      | some l => 2000 < (v - l).natAbs
      | none => false
    if tinLo e ≤ v && v < tinHi e && !jump then some v else none

/-- A FIN reading that is not failed, in 0.01 L/min or 1/min; the frequency in mHz (R251). -/
def finReading (s : State) (i f : Nat) : Option Int :=
  let e := finCfg s i
  if 1000 * finMax e < f then none
  else if finUse e = 1 then some ((6 * f / max 1 (finPulses e) : Nat) : Int)
  else some ((60 * f / (1000 * max 1 (finPulses e)) : Nat) : Int)

/-- A slot value as a temperature in 0.01 degC: 1.0 stands for 100 degC (R258). -/
def slotTemp (v : Int) : Int := roundDiv (v * 10000) one28

/-- The group whose loop writes an export slot. -/
def groupWriting (s : State) (slot : Nat) : Option Nat :=
  (s.cad.loops.find? fun l => loopUsed l.desc && l.out.contains (0x700 + slot)).map (·.group)

/-- The hot-spot estimate of an outlet where it is not failed (R259). -/
def hotReading (s : State) (slot : Nat) : Option Int :=
  let e := heatCfg s slot
  let v := slotTemp (nth s.cad.exports (htHotSlot e))
  let badGroup := match groupWriting s (htHotSlot e) with
    | some g => (group s g).kick || (nth s.heat.out slot).overSeen != (group s g).overruns
    | none => false
  if badGroup || !readingGood (nth s.heat.tin (htTinIn e)) || !readingGood (nth s.heat.tin (htTinOut e)) ||
      !readingGood (nth s.heat.fin (htFlow e)) || v < -5000 || 25000 < v then none else some v

/-! ### Rates and thresholds (R252 to R256) -/

/-- Rise since the latest sample point at or before t - W, with the time between, ms; none before W seconds (R256). -/
def riseOver (x : Input) (windowS : Nat) : Option (Int × Nat) :=
  match x.hist with
  | [] => none
  | (t, v) :: _ => match x.hist.find? fun h => h.1 + 1000 * windowS ≤ t with
    | some (u, w) => some (v - w, t - u)
    | none => none

/-- The source of a threshold as (kind, number). -/
def thInput (e : Bytes) : Nat × Nat := (if thKind e = 3 then 3 else thKind e - 1, thSource e)

/-- The value is beyond LEVEL; none where no rate is evaluated. -/
def beyond (s : State) (e : Bytes) : Option Bool :=
  let x := inputAt s (thInput e).1 (thInput e).2
  match thType e with
  | 0 => some (thLevel e ≤ x.value)
  | 1 => some (x.value < thLevel e)
  | _ => if substituted x then none else (riseOver x (thWindow e)).map fun r => thLevel e * r.2 ≤ r.1 * 60000

/-- The value is back beyond the hysteresis. -/
def back (s : State) (e : Bytes) : Option Bool :=
  let x := inputAt s (thInput e).1 (thInput e).2
  let low := thLevel e - thHyst e
  match thType e with
  | 0 => some (x.value < low)
  | 1 => some (thLevel e + thHyst e ≤ x.value)
  | _ => if substituted x then none else (riseOver x (thWindow e)).map fun r => r.1 * 60000 < low * r.2

def threshold (s : State) (i : Nat) : Threshold := nth s.heat.thr i
def onThreshold (i : Nat) (f : Threshold → Threshold) (s : State) : State := { s with heat.thr := upd s.heat.thr i f }

/-- A crossing or a re-arming is reported and recorded (R255). -/
def noteThreshold (i state : Nat) (s : State) : State :=
  raise evHeatThreshold (record (unstatedCode 6 2) srcHousekeeping (u8 i ++ u8 state) s)

/-- The third consecutive sample point has come (R255). -/
def crossThreshold (i : Nat) (s : State) : State :=
  if (threshold s i).state == 1 && 3 ≤ (threshold s i).run then
    noteThreshold i 2 (onThreshold i (fun t => { t with state := 2, run := 0, crossings := (t.crossings + 1) % 2 ^ 32 }) s)
  else s

def rearmThreshold (i : Nat) (s : State) : State :=
  if (threshold s i).state == 2 && 3 ≤ (threshold s i).run then
    noteThreshold i 1 (onThreshold i (fun t => { t with state := 1, run := 0 }) s)
  else s

/-- Evaluation of one threshold at a sample point of its input (R255). -/
def evalThreshold (i : Nat) (s : State) : State :=
  let t := threshold s i
  let hit := if t.state = 2 then back s (thCfg s i) else beyond s (thCfg s i)
  match hit with
  | none => s
  | some b =>
    let s := onThreshold i (fun t => { t with state := if t.state = 0 then 1 else t.state, run := if b then t.run + 1 else 0 }) s
    rearmThreshold i (crossThreshold i s)

/-- The value lies in the near band of an armed threshold (R252). -/
def nearBand (s : State) (e : Bytes) : Bool :=
  let x := inputAt s (thInput e).1 (thInput e).2
  let near : Int := 100 * thNear e
  match thType e with
  | 0 => thLevel e - near ≤ x.value
  | 1 => x.value < thLevel e + near
  | _ => match riseOver x (thWindow e) with
    | some r => thLevel e * r.2 ≤ 2 * r.1 * 60000
    | none => false

/-- A condition for sampling every 10 ms holds (R252). -/
def fastInput (s : State) (kind i : Nat) : Bool :=
  !readingGood (inputAt s kind i) || (thresholds s).any fun k =>
    thInput (thCfg s k) == (kind, i) && ((threshold s k).state == 2 || nearBand s (thCfg s k))

/-- The sample period after a sample point (R252). -/
def settlePeriod (kind i : Nat) (s : State) : State :=
  let fast := fastInput s kind i
  onInput kind i (fun x =>
    if fast then { x with period := 10, quiet := 0 }
    else if x.period = 10 && x.quiet < 9 then { x with quiet := x.quiet + 1 }
    else { x with period := 100, quiet := 0 }) s

/-- The value of an input kept for its rate (R256). -/
def keepHist (kind i : Nat) (s : State) : State :=
  onInput kind i (fun x =>
    { x with hist := ((s.alc.epoch, x.value) :: x.hist).filter fun h => s.alc.epoch ≤ h.1 + 60100 }) s

/-! ### Stop demands (R261) -/

/-- A sensor of the outlet is failed (R260). -/
def sensorFailed (s : State) (slot : Nat) : Bool :=
  ((List.range 32).any fun i => tinType (tinCfg s i) != 0 && tinSlot (tinCfg s i) == slot && substituted (nth s.heat.tin i)) ||
    ((List.range 8).any fun i => finUse (finCfg s i) != 0 && finSlot (finCfg s i) == slot && substituted (nth s.heat.fin i)) ||
    (observed s slot && substituted (nth s.heat.out slot).hot)

/-- A crossed threshold with an action for the outlet. -/
def crossedFor (s : State) (action slot : Nat) : List Nat :=
  (thresholds s).filter fun k => (threshold s k).state == 2 && thAction (thCfg s k) == action && thSlot (thCfg s k) == slot

/-- The local stop demand (R261). -/
def stopDemanded (s : State) (slot : Nat) : Bool :=
  !(crossedFor s 2 slot).isEmpty || (sensorFailed s slot && htFailedI (heatCfg s slot) == 0)

/-- Stop demands after a sample point. -/
def settleStops (s : State) : State :=
  [0, 1, 2].foldl (fun s k =>
    if localSlot s k && stopDemanded s k != (nth s.heat.out k).stop then
      raise evHeatStopDemand (onOutHeat k (fun o => { o with stop := !o.stop }) s)
    else s) s

/-! ### The observer's temperatures (R258, R259, R262) -/

/-- The mean conductor temperature is read (R258); while the hot-spot estimate is failed it fails with it and carries a substitute
of its own by the rule of R262. DEDUCED, log entry 18. -/
def readMean (slot : Nat) (s : State) : State :=
  if !observed s slot then s
  else
    let o := nth s.heat.out slot
    let v := slotTemp (nth s.cad.exports (htMeanSlot (heatCfg s slot)))
    if substituted o.hot then
      let t := max o.meanSub ((neighbours s 3 slot).foldl (fun m k => max m (liveReading s k)) o.meanGood + margin s 3 slot)
      onOutHeat slot (fun o => { o with mean := t, meanSub := t }) s
    else onOutHeat slot (fun o => { o with mean := v, meanGood := v, meanSub := v }) s

/-- The hot-spot estimate in use at an epoch boundary: as it is read then, or its substitute (R258, R260). -/
def hotNow (s : State) (slot : Nat) : Int :=
  let h := (nth s.heat.out slot).hot
  if substituted h then h.value else slotTemp (nth s.cad.exports (htHotSlot (heatCfg s slot)))

/-! ### The sample point (R253) -/

/-- An input is due at this epoch (R252). -/
def inputDue (s : State) (kind i : Nat) : Bool :=
  s.alc.epoch % 100 == 0 || (kind != 1 && s.alc.epoch % 10 == 0 && (inputAt s kind i).period == 10)

/-- Conversions and failures of the inputs due. -/
def convertInputs (ohms : List (Option Nat)) (edges : List (Nat × Nat)) (due : List (Nat × Nat)) (s : State) : State :=
  due.foldl (fun s k =>
    match k.1 with
    | 0 =>
      let t := (nth ohms k.2).map (tinTemp (tinCfg s k.2))
      takeReading 0 k.2 t (tinReading s k.2 t) s
    | 1 =>
      let f := finFreq (nth edges k.2).1 (nth edges k.2).2
      takeReading 1 k.2 (some (f : Int)) (finReading s k.2 f) s
    | _ =>
      let v := hotReading s k.2
      let seen := match groupWriting s (htHotSlot (heatCfg s k.2)) with | some g => (group s g).overruns | none => 0
      readMean k.2 (onOutHeat k.2 (fun o => { o with overSeen := seen }) (takeReading 3 k.2 v v s))) s

/-- HEAT_SAMPLE_POINT (R249, R251 to R253): the resistances of TIN0 to 31 in mOhm, none where the converter flags an open or short
line; for FIN0 to 7 the rising edges of the preceding second and the microseconds between the first and the last. -/
def execHeatSamplePoint (ohms : List (Option Nat)) (edges : List (Nat × Nat)) (s : State) : Res :=
  .next (
    if !up s then s
    else
      let due := (inputsUsed s).filter fun k => k.1 != 2 && inputDue s k.1 k.2
      let s := convertInputs ohms edges due s
      let s := due.foldl (fun s k => keepHist k.1 k.2 s) s
      let s := ((thresholds s).filter fun t => due.contains (thInput (thCfg s t))).foldl (fun s t => evalThreshold t s) s
      let s := due.foldl (fun s k => if k.1 = 1 then s else settlePeriod k.1 k.2 s) s
      keepFailed (settleStops s))

/-- THRESHOLD_CROSSED (R255). -/
def execThresholdCrossed (index : Nat) (s : State) : Res := .next (settleStops (crossThreshold index s))

/-- THRESHOLD_REARMED (R255). -/
def execThresholdRearmed (index : Nat) (s : State) : Res := .next (settleStops (rearmThreshold index s))

/-- SENSOR_RECOVERED (R263). -/
def execSensorRecovered (kind index : Nat) (s : State) : Res := .next (recoverInput kind index s)

/-! ### The thermal ceiling (R258, R260) -/

/-- I_curve in 1/1,000 of 0.1 A (R260). -/
def curve (e : Bytes) (hot : Int) : Int :=
  let top : Int := 1000 * htLimit e
  let span : Int := max 1 (10 * ((htStop e : Int) - htDerate e))
  let num := clampI 0 span (10 * (htStop e : Int) - hot)
  top * num / span

/-- The terms of I_t in 1/1,000 of 0.1 A, with their binding codes, in the order of the codes. -/
def ceilTerms (s : State) (slot : Nat) : List (Nat × Int) :=
  let e := heatCfg s slot
  [(0, 1000 * (htLimit e : Int))] ++
    (if observed s slot then [(1, curve e (hotNow s slot))] else []) ++
    ((crossedFor s 1 slot).map fun k => (2, 1000 * (thDerate (thCfg s k) : Int))) ++
    (if sensorFailed s slot && htFailedI e != 0 then [(3, 1000 * (htFailedI e : Int))] else [])

/-- The ceiling of one local outlet at an epoch boundary (R260, R261). -/
def ceilBoundary (slot : Nat) (s : State) : State :=
  if !localSlot s slot then s
  else
    let e := heatCfg s slot
    let o := nth s.heat.out slot
    let t := least (ceilTerms s slot)
    let now : Int := 1000 * (o.ceil : Int) + o.fine
    let up := now + 10 * htRise e
    let c : Nat := (if o.stop then 0 else if up < t.2 then up else t.2).toNat
    let bind := if !o.stop && up < t.2 then 4 else t.1
    raiseIf (bind != o.bind) evHeatCeiling (readMean slot (onOutHeat slot (fun o => { o with
      ceil := c / 1000, fine := c % 1000, target := (t.2 / 1000).toNat, bind := bind }) s))

/-- The thermal ceilings at an epoch boundary. -/
def ceilings (s : State) : State := [0, 1, 2].foldl (fun s k => ceilBoundary k s) s

/-! ### The heat slots (R257) -/

/-- P_loss / LOSS_FS and Q_rem / QREM_FS of one outlet into its export slots. -/
def heatSlots (slot : Nat) (s : State) : State :=
  if !observed s slot then s
  else
    let e := heatCfg s slot
    let i : Int := corrected s (outletChannel slot)
    let v := nth s.cad.exports (htMeanSlot e)
    let lossN : Int := i * i * htRes e * (1000000 * one28 + htAlpha e * (100 * v - 20 * one28))
    let loss := (sat28 (roundDiv lossN (1000000000000000000 * max 1 (htLossFs e : Int)))).1
    let dT := (nth s.heat.tin (htTinOut e)).value - (nth s.heat.tin (htTinIn e)).value
    let remN : Int := (nth s.heat.fin (htFlow e)).value * htCap e * dT
    let rem := (sat28 (roundDiv (remN * one28) (600000 * max 1 (htRemFs e : Int)))).1
    onOutHeat slot (fun o => { o with
        loss := roundDiv lossN (1000000000000000000 * one28), removal := roundDiv remN 600000 })
      { s with cad.exports := (s.cad.exports.set (10 + 2 * slot) loss).set (11 + 2 * slot) rem }

/-! ### Die temperatures (R266 to R273) -/

/-- A die reading that is not failed at a given spacing in ms (R266). -/
def dieReading (prev : Option Int) (spacing : Nat) (r : Option Int) : Option Int :=
  match r with
  | none => none
  | some v =>
    let jump := match prev with
      | some l => (if spacing = 1 then 1000 else 2000) < (v - l).natAbs
      | none => false
    if -5500 ≤ v && v ≤ 17500 && !jump then some v else none

/-- The throttle thresholds, 0.01 degC (R268). -/
abbrev dieLevels : List Int := [11000, 11500, 12000, 12500]

/-- Tj for throttling: the largest value in use of D0 to D5. -/
def junction (s : State) : Int := ((s.heat.die.take 6).map (·.value)).foldl max (-27315)

/-- Eighths of the application cores' issue cycles that a throttle level skips, taken from background class (table of throttle
levels). -/
def skippedEighths (level : Nat) : Nat := min level 4

/-- The modem divisor of the throttle level in force: the modem engine's own frames take at least as many times their unthrottled
spacing (R207, R269, table of throttle levels). -/
def modemDivisor (s : State) : Nat := if s.heat.level ≤ 1 then 1 else if s.heat.level ≤ 3 then 2 else 4

/-- The hottest value in use of all eight. -/
def hottest (s : State) : Int := (s.heat.die.map (·.value)).foldl max (-27315)

/-- One throttle threshold after a sample (R255, R267). -/
def throttleStep (hyst : Nat) (tj level : Int) (t : Threshold) : Threshold :=
  let hit := if t.state = 2 then decide (tj < level - 100 * hyst) else decide (level ≤ tj)
  let run := if hit then t.run + 1 else 0
  if 3 ≤ run then { t with state := 3 - t.state, run := 0, crossings := if t.state = 1 then t.crossings + 1 else t.crossings }
  else { t with run := run }

/-- A condition for sampling every 1 ms holds (R267). -/
def fastDie (s : State) : Bool :=
  (s.heat.throttle.any fun t => t.state == 2) ||
    match ((s.heat.throttle.zip dieLevels).filter fun t => t.1.state != 2).map (·.2) with
    | l :: _ => l - 500 ≤ hottest s
    | [] => 13000 ≤ hottest s

/-- Sampling period of the die sensors after a sample. -/
def settleDiePeriod (s : State) : State :=
  let fast := fastDie s
  { s with heat.die := s.heat.die.map fun x =>
      if fast then { x with period := 1, quiet := 0 }
      else if x.period = 1 && x.quiet < 9 then { x with quiet := x.quiet + 1 }
      else { x with period := 10, quiet := 0 } }

/-- DIE_SAMPLE (R266 to R268, R270). -/
def execDieSample (readings : List (Option Int)) (s : State) : Res :=
  .next (
    if !up s then s
    else
      let s := (List.range 8).foldl (fun s i =>
        takeReading 2 i (nth readings i) (dieReading (nth s.heat.die i).last (nth s.heat.die i).period (nth readings i)) s) s
      let tj := junction s
      let thr := (s.heat.throttle.zip dieLevels).map fun t => throttleStep s.cfg.dieHyst tj t.2 t.1
      let level := ((thr.zipIdx.filter fun t => t.1.state == 2).map fun t => t.2 + 1).foldl max 0
      let hot := (s.heat.hotRun.zip s.heat.die).map fun x => if 13500 ≤ x.2.value then x.1 + 1 else 0
      let s := raiseIf (level != s.heat.level) evHeatThrottle { s with
        heat.throttle := thr, heat.level := level, heat.hotRun := hot
        heat.shutdown := s.heat.shutdown || hot.any (3 ≤ ·) }
      keepFailed (settleDiePeriod s))

/-- DIE_THERMAL_SHUTDOWN (R270, R273): the record committed, then reset with cause 0x07 into the hold. -/
def execDieThermalShutdown (s : State) : Res :=
  .next (
    if !(up s && s.heat.shutdown) then s
    else
      let s1 := { s with
        nvHeat.record := s.heat.die.map (·.value), nvHeat.count := (s.nvHeat.count + 1) % 2 ^ 32
        nvHeat.seconds := (s.nv.opSeconds :: s.nvHeat.seconds).take 3
        nvHeat.hold := List.replicate 8 none, nvHeat.holdRun := List.replicate 8 0, nvHeat.coolRun := 0
        nvHeat.prev := List.replicate 8 none }
      let s2 := resetPart 0x07 s1
      { s2 with sys.phase := .heatHold })

/-- A die sensor is recorded as failed (R265). -/
def dieFailed (s : State) (i : Nat) : Bool := s.nvHeat.failed.any fun f => f.1 == 2 && f.2.1 == i

/-- SHUTDOWN_SUPERVISOR_READING (R271). -/
def execShutdownSupervisorReading (readings : List (Option Int)) (s : State) : Res :=
  .next (
    if s.sys.phase != .heatHold then s
    else
      let good := (List.range 8).map fun i => dieReading (nth s.nvHeat.prev i) 10 (nth readings i)
      let run := (List.range 8).map fun i => if (nth good i).isSome then nth s.nvHeat.holdRun i + 1 else 0
      let others := fun i => ((good.zipIdx.filter fun g => g.2 != i).filterMap (·.1))
      let hold := (List.range 8).map fun i =>
        if 10 ≤ nth run i then nth good i
        else match others i with
          | [] => none
          | v :: l => some (l.foldl max v + 1000)
      let value := fun i => if dieFailed s i then nth hold i else match nth good i with
        | some v => some v
        | none => nth hold i
      let cool := (List.range 8).all fun i => match value i with
        | some v => v < 10000
        | none => false
      { s with
        nvHeat.hold := hold, nvHeat.holdRun := run
        nvHeat.prev := (List.range 8).map fun i => match nth readings i with | some r => some r | none => nth s.nvHeat.prev i
        nvHeat.coolRun := if cool then s.nvHeat.coolRun + 1 else 0 })

/-! ### At boot (R265, R272, R273) -/

/-- A failed input as it starts at the boot: its stored values, or for a die sensor at the end of a shutdown hold its hold
value, which is recorded (R265, R272). -/
def startFailed (ended : Bool) (s : State) (f : Nat × Nat × Int × Int) : State :=
  let h := if ended && f.1 == 2 then nth s.nvHeat.hold f.2.1 else none
  recordIf h.isSome (unstatedCode 6 0) srcHousekeeping (u8 f.2.1 ++ i16 f.2.2.1 ++ i16 f.2.2.2 ++ i16 (h.getD 0))
    (onInput f.1 f.2.1 (fun x => { x with
      state := 2, good := h.getD f.2.2.1, sub := h.getD f.2.2.2, value := h.getD f.2.2.2 }) s)

/-- Failed inputs as they start (R265); at the boot that ends a shutdown hold the die sensors take their hold values
(R272). -/
def startHeat (s : State) : State :=
  let ended := s.sys.resetCause == 0x07
  let s := s.nvHeat.failed.foldl (startFailed ended) s
  let s := (thresholds s).foldl (fun s i => onThreshold i (fun _ => { state := 1 }) s) s
  raiseIf ended evHeatShutdown (keepFailed s)

/-- The boot after a shutdown enters Kickstand 0x0401 (R273). -/
def thermalKick (s : State) : Bool :=
  s.sys.resetCause == 0x07 && match s.nvHeat.seconds with
  | [a, _, c] => c ≤ a && a < c + 86400
  | _ => false

/-! ### Commands (R274) -/

/-- The rate of an input, 0.01 K/min: over the window of its first rate-of-rise threshold. -/
def inputRate (s : State) (kind i : Nat) : Int :=
  match (thresholds s).find? fun k => thType (thCfg s k) == 2 && thInput (thCfg s k) == (kind, i) with
  | some k => match riseOver (inputAt s kind i) (thWindow (thCfg s k)) with
    | some r => roundDiv (r.1 * 60000) (max 1 r.2)
    | none => 0
  | none => 0

/-- HEAT_GET_INPUT. -/
def execHeatGetInput (r : Req) (kind index : Nat) (s : State) : Res :=
  command { op := 0x0601, own := .anyRole } r (fun s =>
    checked [(!inputOk kind index, stBadArg)] s fun s =>
      let x := inputAt s kind index
      .ok s (u8 x.state ++ i32 x.value ++ i32 x.good ++ i32 x.sub ++ i32 (inputRate s kind index) ++ u8 x.period ++
        u32 x.failures)) s

/-- HEAT_GET_OUTLET. -/
def execHeatGetOutlet (r : Req) (slot : Nat) (s : State) : Res :=
  command { op := 0x0602, own := .outlet } r (fun s =>
    checked [(!slotOk s slot, stBadArg)] s fun s =>
      let o := nth s.heat.out slot
      .ok s (u32 o.ceil ++ u32 o.target ++ u8 o.bind ++ uFlag o.stop ++ i32 o.hot.value ++ i32 o.mean ++ i32 o.loss ++
        i32 o.removal)) s

/-- HEAT_GET_THRESHOLDS. -/
def execHeatGetThresholds (r : Req) (first count : Nat) (s : State) : Res :=
  command { op := 0x0603, own := .anyRole } r (fun s =>
    checked [(count = 0 || 64 < first + count, stBadArg)] s fun s =>
      .ok s (((s.heat.thr.drop first).take count).flatMap fun t => u8 t.state ++ u8 t.run ++ u32 t.crossings)) s

/-- HEAT_ACK_SENSOR (R264): takes effect at the next sample point. -/
def execHeatAckSensor (r : Req) (kind index : Nat) (s : State) : Res :=
  command { op := 0x0604, own := .anyRole, secure := true, states := lcIFS, cred := 1 } r (fun s =>
    checked [(!inputOk kind index || (inputAt s kind index).state != 3, stBadArg)] s fun s =>
      .ok (onInput kind index (fun x => { x with ack := true }) s)) s

/-- The failed mask of the die sensors. -/
def dieMask (s : State) : Nat := maskOf (indexes s.heat.die substituted)

/-- HEAT_GET_DIE. -/
def execHeatGetDie (r : Req) (s : State) : Res :=
  command { op := 0x0605, own := .anyRole } r (fun s =>
    .ok s ((s.heat.die.flatMap fun x => i16 x.value) ++ u8 (dieMask s) ++ u8 s.heat.level ++ u32 s.nvHeat.count ++
      ((List.range 3).flatMap fun i => u64 (nth s.nvHeat.seconds i)))) s

end Sys2Proof.Machine
end

