-- ==== Sys2Proof/Machine/Meter.lean ====
section
/-!
DEFINITION. The metering sample (R278 to R291, R303): decimation and correction, faults, energy, direction, test
pulses, and what is delivered at an epoch boundary. Readings of the text: log entries 16 and 17.
-/
namespace Sys2Proof.Machine

/-! ### Decimated values and interpolation (R279) -/

/-- 1.0 of a normalised value: Q0.31. -/
abbrev one31 : Int := 2147483648

/-- The denominator of an interpolated value. -/
abbrev lagrangeDen : Int := 6 * 125000 * 125000 * 125000

/-- One bit into the three integrators of the decimator: +1 for a one, -1 for a zero. -/
def integrateBit (i : Int × Int × Int) (bit : Bool) : Int × Int × Int :=
  let a := i.1 + (if bit then 1 else -1)
  let b := i.2.1 + a
  (a, b, i.2.2 + b)

/-- The bits of a sample window through the sinc3 decimator, its output divided by the cube of their number, in Q0.31. -/
def decimate (bits : List Bool) (m : MChan) : MChan × Int :=
  let i := bits.foldl integrateBit m.integ
  let d1 := i.2.2 - m.comb.1
  let d2 := d1 - m.comb.2.1
  let d3 := d2 - m.comb.2.2
  let n : Int := bits.length
  ({ m with integ := i, comb := (i.2.2, d1, d2) }, if n = 0 then 0 else roundDiv (d3 * one31) (n * n * n))

/-- The bitstream held one value for the whole of the sample window, or brought no bit (R277, R280). -/
def bitsStuck (bits : List Bool) : Bool := !(bits.contains true && bits.contains false)

/-- Cubic Lagrange interpolation between the samples two and one before the present one, `d` ns of channel delay: the
instant 375 us before the marker lies (62,500 + d) / 125,000 of a sample after the older of the two. Over lagrangeDen. -/
def lagrange (h : List Int) (d : Int) : Int :=
  let t := 62500 + d
  let n : Int := 125000
  let y0 := nth h 3
  let y1 := nth h 2
  let y2 := nth h 1
  let y3 := nth h 0
  -- basis polynomials at t/n over nodes -1, 0, 1, 2, times 6 n^3
  (-t * (t - n) * (t - 2 * n)) * y0 + 3 * ((t + n) * (t - n) * (t - 2 * n)) * y1 -
    3 * ((t + n) * t * (t - 2 * n)) * y2 + ((t + n) * t * (t - n)) * y3

/-! ### Correction (R281 to R283) -/

/-- A table is valid: its CRC matches and every GAIN lies from 2^29 to 2^31 (R281). -/
def tableValid (b : Bytes) : Bool :=
  b.length == 272 && g32 b 4 == crc32c (b.drop 8) &&
    (List.range 33).all fun j => 536870912 ≤ tbGain b j && tbGain b j ≤ 2147483648

/-- Gain and phase at a temperature of -40.00 to +120.00 degC (R281). -/
def tableAt (b : Bytes) (t : Int) : Int × Int :=
  let pos := (t + 4000).toNat
  let i := pos / 500
  let f : Int := (pos % 500 : Nat)
  let g : Nat → Int := fun j => (tbGain b j : Int)
  if f = 0 then (g i, tbPhase b i)
  else (g i + roundDiv ((g (i + 1) - g i) * f) 500, tbPhase b i + roundDiv ((tbPhase b (i + 1) - tbPhase b i) * f) 500)

/-- The latest reading of the input a channel names, where it is not failed (R281). -/
def channelTemp (s : State) (c : Nat) : Option Int :=
  let i := ceTin (chanEntry s c)
  if i < 32 && readingGood (nth s.heat.tin i) then (nth s.heat.tin i).last else none

/-- Table mode at this sample, with the temperature (R281). -/
def tableMode (s : State) (c : Nat) : Option Int :=
  match channelTemp s c with
  | some t => if ceTable (chanEntry s c) = 1 && tableValid (chanTable s c) && -4000 ≤ t && t ≤ 12000 &&
      ceQuantity (chanEntry s c) != 3 then some t else none
  | none => none

/-- c = g x (x - offset) x FULL_SCALE in 2^-8 mV or mA (R281 to R283); 2^-24 of full scale for a free channel. -/
def correctedFine (quantity fullScale : Nat) (gain offset lag : Int) : Int :=
  let num := gain * (lag - offset * lagrangeDen)
  if quantity = 3 then roundDiv (num * 16777216) (lagrangeDen * 1073741824 * one31)
  else roundDiv (num * fullScale * 256) (lagrangeDen * 1073741824 * one31)

/-- A channel whose bitstream or value is faulted at this sample (R280). -/
def sampleFaulted (x : Int) (stuck : Bool) : Bool := stuck || 98 * one31 ≤ 100 * x.natAbs

/-- EV_MTR_CHANNEL_FAULT, the record of a legal point, and the Kickstand cause of an outlet channel (R280). -/
def channelChanged (c : Nat) (faulted : Bool) (s : State) : State :=
  let s := raise evMtrChannelFault (onChannel c (fun m => { m with faulted := faulted }) s)
  let s := if (List.range 11).any fun p => legalPoint p && pointOn s p && (pointChannels p).contains c
    then recordLegal 0x1707 (u8 c ++ uFlag faulted) s else s
  if !outletInput s c then s
  else if faulted then enterKick 0x0205 s
  else if (List.range 36).any fun k => outletInput s k && (mchan s k).faulted then s
  else goneKick 0x0205 s

/-- A channel becomes faulted at its third faulted sample, valid after 8,000 good ones (R280). -/
def settleChannel (c : Nat) (s : State) : State :=
  let m := mchan s c
  if !m.faulted && 3 ≤ m.bad then channelChanged c true s
  else if m.faulted && 8000 ≤ m.good then channelChanged c false s
  else s

/-- One sample of one channel from the bits of its window: decimation, fault counts, mode, corrected value (R278 to R283). The
input of a ball that the role does not own is ignored (R19). -/
def sampleChannel (c : Nat) (bits : List Bool) (s : State) : State :=
  let e := chanEntry s c
  if ceQuantity e = 0 || !channelOwned s c then s
  else
    let dec := decimate bits (mchan s c)
    let x := dec.2
    let bad := sampleFaulted x (bitsStuck bits)
    let s := onChannel c (fun _ => dec.1) s
    let s := if s.mtr.takeover != 0 then s else settleChannel c (onChannel c (fun m => { m with
      bad := if bad then m.bad + 1 else 0, good := if bad then 0 else m.good + 1 }) s)
    let h := x :: (mchan s c).hist
    let mode := tableMode s c
    let gp := match mode with
      | some t => tableAt (chanTable s c) t
      | none => (ceFbGain e, 0)
    let off := match mode with | some _ => ceOffset e | none => ceFbOffset e
    let v := if (mchan s c).faulted || s.mtr.takeover != 0 then 0
      else correctedFine (ceQuantity e) (ceFullScale e) gp.1 off (lagrange h (ceDelay e + gp.2))
    let changed := (mchan s c).fallback != mode.isNone
    let out := if ceQuantity e = 3 then v else roundDiv v 256
    let s := { onChannel c (fun m => { m with
        hist := h.take 3, fine := v, fallback := mode.isNone, temp := mode.getD m.temp }) s with
      mtr.samples := s.mtr.samples.set c out }
    if changed then raise evMtrCalMode (record 0x4703 srcMetrology (u8 c ++ uFlag mode.isNone) s) else s

/-! ### Energy (R284 to R291) -/

/-- A product v x i in 2^-16 uW, over one sample, as energy in 2^-32 mWh, rounded toward zero. -/
def energyOf (vi : Nat) : Nat := vi * 64 / 28125000

/-- Pulses of an energy in 2^-32 mWh (R303), in a role that owns the pulse outputs (R18). -/
def addPulse (n p qty e : Nat) (s : State) : State :=
  let h := s.nvMtr.header
  if ownsPulses s && hdPulsePoint h n = p && hdPulseQty h n = qty then
    { s with mtr.pulses := upd s.mtr.pulses n fun u =>
        let t := u.acc + e * hdPulseC h n
        { u with acc := t % (1000000 * two32), waiting := u.waiting + t / (1000000 * two32) } }
  else s

/-- Energy into the import (0) or export (1) register of a point, with its test pulses (R288, R303). -/
def addEnergy (p qty e : Nat) (s : State) : State :=
  let s := onPoint p (fun m => { m with regs :=
    if qty = 0 then { m.regs with eImp := m.regs.eImp + e } else { m.regs with eExp := m.regs.eExp + e } }) s
  addPulse 1 p qty e (addPulse 0 p qty e s)

/-- A newly established direction; a reversal where it differs from the one before (R286). -/
def settleDirection (p : Nat) (s : State) : State :=
  let m := mpoint s p
  if m.runDir != 0 && (if acPoint p then 5 else 80) ≤ m.run && m.dir != m.runDir then
    let s := onPoint p (fun m => { m with dir := m.runDir }) s
    if m.dir = 0 then s
    else raise evMtrReversal (record 0x4701 srcMetrology (u8 p ++ u8 m.runDir)
      (onOpenRecs p (fun o => { o with reversals := o.reversals + 1 }) s))
  else s

/-- One more contributing sample or cycle of a direction (R286). -/
def runDirection (p d : Nat) (s : State) : State :=
  settleDirection p (onPoint p (fun m => { m with runDir := d, run := if m.runDir = d then m.run + 1 else 1 }) s)

/-- Mean conductor temperature delivered for an outlet slot, 0.01 degC; none where failed or not observed (R291). -/
def meanConductor (s : State) (slot : Nat) : Option Int :=
  if observed s slot && !substituted (nth s.heat.out slot).hot then some (nth s.heat.out slot).mean else none

/-- The loss energy of a sample in 2^-32 mWh (R291): current in 2^-8 mA, temperature in 0.01 degC. -/
def lossEnergy (i : Int) (res alpha : Nat) (t : Int) : Nat :=
  (i * i * res * (100000000 + (alpha : Int) * (t - 2000)) * 64 / (1000000 * 100000000 * 28125000)).toNat

/-- Cable loss of a contributing sample (R291). -/
def addLoss (p qty : Nat) (i : Int) (s : State) : State :=
  let e := pointEntry s p
  if p < 8 then s
  else
    let t := meanConductor s (p - 8)
    let l := lossEnergy i (ptLcRes e) (ptLcAlpha e) (t.getD (10 * ptLcTfb e))
    let s := onPoint p (fun m => { m with regs :=
      if qty = 0 then { m.regs with lImp := m.regs.lImp + l } else { m.regs with lExp := m.regs.lExp + l } }) s
    if t.isNone then onOpenRecs p (fun o => { o with lcfb := o.lcfb + 1 }) s else s

/-- One sample of a DC point (R284). -/
def sampleDc (p : Nat) (s : State) : State :=
  match (pointPairs p).head? with
  | none => s
  | some (cv, ci) =>
    let i := (mchan s ci).fine
    let w := (mchan s cv).fine * i
    if (i.natAbs : Nat) < 256 * ptStart (pointEntry s p) || w = 0 then s
    else
      let q := if 0 < w then 0 else 1
      runDirection p (q + 1) (addLoss p q i (addEnergy p q (energyOf w.natAbs) s))

/-- The end of a mains cycle (R285): its energy sorted as a whole, or dropped below START or with a residual current. -/
def endCycle (p : Nat) (s : State) : State :=
  let m := mpoint s p
  let e := pointEntry s p
  let full : Int := 256 * ceFullScale (chanEntry s (match (pointPairs p).head? with | some x => x.2 | none => 0))
  let residual := neutralOf p != none && full * m.cyN < 100 * m.cyRes
  let small := (m.cySum.natAbs : Nat) < ptStart e * 65536000000 * m.cyN
  let n := m.cyN
  let w := m.cySum
  let s := onPoint p (fun m => { m with cySum := 0, cyN := 0, cyRes := 0 }) s
  if residual then onOpenRecs p (fun o => { o with fault := o.fault + n }) s
  else if small || w = 0 then s
  else
    let q := if 0 < w then 0 else 1
    runDirection p (q + 1) (addEnergy p q (energyOf w.natAbs) s)

/-- The point's power of one sample, 2^-16 uW. -/
def powerNow (s : State) (p : Nat) : Int := ((pointPairs p).map fun x => (mchan s x.1).fine * (mchan s x.2).fine).sum

/-- The magnitude of the sum of a point's currents. -/
def currentSum (s : State) (p : Nat) : Nat :=
  (((pointPairs p).map fun x => (mchan s x.2).fine).sum + (match neutralOf p with | some n => (mchan s n).fine | none => 0)).natAbs

/-- The L1 voltage of the sample ends a cycle: a rising zero crossing after 2 % of full scale below zero, or 40 ms
(R285). The fraction is that of the crossing between the last sample and this one, 2^-20. -/
def crossing (s : State) (p : Nat) : Bool × Nat :=
  let m := mpoint s p
  let v := (mchan s (match (pointPairs p).head? with | some x => x.1 | none => 0)).fine
  (m.armed && 0 ≤ v, ((-m.lastV) * 1048576 / max 1 (v - m.lastV)).toNat)

/-- One sample of an AC point (R285, R287). -/
def sampleAc (p : Nat) (s : State) : State :=
  let cv := match (pointPairs p).head? with | some x => x.1 | none => 0
  let v := (mchan s cv).fine
  let hyst : Int := 256 * ceFullScale (chanEntry s cv) / 50
  let x := crossing s p
  let m := mpoint s p
  let s := if x.1 then
      let len := match m.cross with | some f => some (m.cyN * 1048576 + x.2 - f) | none => none
      onPoint p (fun m => { m with cross := some x.2, cycle := len, armed := false }) (endCycle p s)
    else if 320 ≤ m.cyN then onPoint p (fun m => { m with cross := none, cycle := none }) (endCycle p s)
    else s
  onPoint p (fun m => { m with
    cySum := m.cySum + powerNow s p, cyN := m.cyN + 1, cyRes := m.cyRes + currentSum s p
    armed := m.armed || v < -hyst, lastV := v }) s

/-- One sample of a point (R280, R282, R284, R285): nothing accumulates while a channel of it is faulted. -/
def samplePoint (p : Nat) (s : State) : State :=
  let s := onOpenRecs p (fun o => { o with
    flags := o.flags ||| condFlags s
    fb := if (pointChannels p).any fun c => (mchan s c).fallback then o.fb + 1 else o.fb }) s
  if pointFaulted s p then
    onPoint p (fun m => { m with last8 := (0 :: m.last8).take 8 }) (onOpenRecs p (fun o => { o with fault := o.fault + 1 }) s)
  else
    let w := powerNow s p
    let s := onPoint p (fun m => { m with last8 := (w :: m.last8).take 8, epSum := m.epSum + w, epN := m.epN + 1 }) s
    if acPoint p then sampleAc p s else sampleDc p s

/-- The metrology core's work at a sample marker; a pending step and the closes that are due come first (R297, R298). -/
def meterSample (bits : List (List Bool)) (s : State) : State :=
  if !s.mtr.running then s
  else
    let s := settleIntervals (stepWall s)
    let s := (List.range 40).foldl (fun s c => sampleChannel c (nth bits c) s) s
    let s := (pointsOn s).foldl (fun s p => samplePoint p s) s
    let s := [0, 1, 2].foldl (fun s k => heatSlots k s) s
    { s with mtr.takeover := s.mtr.takeover - 1 }

/-- METER_CHANNEL_FAULTED (R280). -/
def execMeterChannelFaulted (channel : Nat) (s : State) : Res :=
  .next (if up s && channelOwned s channel && !(mchan s channel).faulted then settleChannel channel s else s)

/-- METER_CHANNEL_VALID (R280). -/
def execMeterChannelValid (channel : Nat) (s : State) : Res :=
  .next (if up s && channelOwned s channel && (mchan s channel).faulted then settleChannel channel s else s)

/-- DIRECTION_ESTABLISHED (R286). -/
def execDirectionEstablished (point : Nat) (s : State) : Res :=
  .next (if up s && pointOn s point then settleDirection point s else s)

/-! ### Delivery at an epoch boundary (R287) -/

/-- Mean power of the ending epoch in kW; none without a sample or while a channel is faulted. -/
def feederPower (s : State) (p : Nat) : Option Int :=
  let m := mpoint s p
  if pointOn s p && !pointFaulted s p && m.epN != 0 then some (roundDiv m.epSum (m.epN * 65536000000000)) else none

/-- Frequency of a feeder's last complete cycle, mHz, within the band that is delivered. -/
def feederFreq (s : State) (p : Nat) : Option Nat :=
  match (mpoint s p).cycle with
  | some c =>
    let f := 8000000 * 1048576 / max 1 c
    if pointOn s p && !pointFaulted s p && 42500 ≤ f && f ≤ 69000 then some f else none
  | none => none

/-- What the metrology core delivers to the Derailleur at an epoch boundary (R287). -/
def deliverMeter (s : State) : State :=
  { s with
    mtr.feederKw := [feederPower s 0, feederPower s 1]
    mtr.freqMilli := if pointOn s 0 && !pointFaulted s 0 then feederFreq s 0 else feederFreq s 1
    mtr.points := s.mtr.points.map fun m => { m with epSum := 0, epN := 0 } }

/-! ### Test pulses (R304) -/

/-- The width of a pulse in us. -/
def pulseWidth (s : State) (n : Nat) : Nat :=
  let h := s.nvMtr.header
  let sum := ((mpoint s (hdPulsePoint h n)).last8.sum).natAbs
  let half := 3600000000000 * 8 * 65536000000 / (2 * max 1 (sum * hdPulseC h n))
  min (hdPulseWidth h n) (if sum = 0 then hdPulseWidth h n else max 20 half)

/-- TEST_PULSE_START (R304): the low time of the last pulse has passed. -/
def execTestPulseStart (output : Nat) (s : State) : Res :=
  let u := nth s.mtr.pulses output
  .next (if up s && ownsPulses s && output < 2 && !u.high && 0 < u.waiting then
      { s with mtr.pulses := upd s.mtr.pulses output fun u =>
          { u with high := true, waiting := u.waiting - 1, width := pulseWidth s output } }
    else s)

/-- TEST_PULSE_END (R304): the width has elapsed and the low time begins. -/
def execTestPulseEnd (output : Nat) (s : State) : Res :=
  .next (if up s then { s with mtr.pulses := upd s.mtr.pulses output fun u => { u with high := false } } else s)

end Sys2Proof.Machine
end

