-- ==== Sys2Proof/Machine/Ocmf.lean ====
section
/-!
DEFINITION. Rendering of metering records: the OCMF string and the long-term envelope (R299 to R301). The JSON types
of the values and what the spec does not spell out of them: log entry 19.
-/
namespace Sys2Proof.Machine

/-! ### Text -/

/-- Decimal digits of a number. -/
def dec (n : Nat) : Bytes := (Nat.toDigits 10 n).map fun c => BitVec.ofNat 8 c.toNat

/-- Decimal digits of a number, padded with zeros to a width. -/
def decPad (w n : Nat) : Bytes := List.replicate (w - (dec n).length) 0x30 ++ dec n

/-- Lower-case hexadecimal digits of a byte string. -/
def hexOf (b : Bytes) : Bytes :=
  b.flatMap fun x => [x.toNat / 16, x.toNat % 16].map fun d => BitVec.ofNat 8 (if d < 10 then 48 + d else 87 + d)

/-- A quoted string. -/
def quoted (b : Bytes) : Bytes := [0x22] ++ b ++ [0x22]

/-- Texts separated by commas. -/
def commas : List Bytes → Bytes
  | [] => []
  | [x] => x
  | x :: l => x ++ [0x2C] ++ commas l

/-- A name and a value, the value as it is written. -/
def pair (name : String) (value : Bytes) : Bytes := quoted (ascii name) ++ [0x3A] ++ value

/-- A name and a text value. -/
def textPair (name : String) (value : Bytes) : Bytes := pair name (quoted value)

/-- An object and an array. -/
def object (l : List Bytes) : Bytes := [0x7B] ++ commas l ++ [0x7D]
def array (l : List Bytes) : Bytes := [0x5B] ++ commas l ++ [0x5D]

/-- Zero padding removed. -/
def unpadded (b : Bytes) : Bytes := b.takeWhile (· != 0)

/-- Year, month and day of a day number since 1970-01-01, in the Gregorian calendar. -/
def civil (days : Int) : Int × Nat × Nat :=
  let z := days + 719468
  let era := z / 146097
  let doe := z - era * 146097
  let yoe := (doe - doe / 1460 + doe / 36524 - doe / 146096) / 365
  let doy := doe - (365 * yoe + yoe / 4 - yoe / 100)
  let mp := (5 * doy + 2) / 153
  let d := doy - (153 * mp + 2) / 5 + 1
  let m := if mp < 10 then mp + 3 else mp - 9
  (yoe + era * 400 + (if m ≤ 2 then 1 else 0), m.toNat, d.toNat)

/-- TM: "YYYY-MM-DDThh:mm:ss,000+0000", a space, S or U (R299). -/
def timeText (wall : Int) (good : Bool) : Bytes :=
  let c := civil (wall / 86400)
  let sec := (wall % 86400).toNat
  decPad 4 c.1.toNat ++ ascii "-" ++ decPad 2 c.2.1 ++ ascii "-" ++ decPad 2 c.2.2 ++ ascii "T" ++ decPad 2 (sec / 3600) ++
    ascii ":" ++ decPad 2 (sec / 60 % 60) ++ ascii ":" ++ decPad 2 (sec % 60) ++ ascii ",000+0000 " ++ ascii (if good then "S" else "U")

/-- A register in Wh with three decimals: the register counts mWh. -/
def whText (mWh : Nat) : Bytes := dec (mWh / 1000) ++ ascii "." ++ decPad 3 (mWh % 1000)

/-! ### The payload (R299) -/

/-- One reading: register of import (0) or export (1) at open or close. -/
def reading (r : MRec) (qty : Nat) (atEnd : Bool) : Bytes :=
  let regs := if atEnd then r.stop else r.start
  let ef := (if bit r.flags 2 || bit r.flags 3 then ascii "E" else []) ++ (if bit r.flags 5 || bit r.flags 4 then ascii "t" else [])
  let st := if bit r.flags 0 || bit r.flags 6 || bit r.flags 7 || bit r.flags 10 then "E" else "G"
  object ([textPair "TM" (timeText (if atEnd then r.wallEnd else r.wallStart) (bit r.wallQ (if atEnd then 1 else 0))),
    textPair "TX" (ascii (if atEnd then "E" else "B")), pair "RV" (whText (nth regs qty)),
    textPair "RI" (ascii (if qty = 0 then "1-0:1.8.0" else "1-0:2.8.0")), textPair "RU" (ascii "Wh"),
    textPair "RT" (ascii (if acPoint r.point then "AC" else "DC"))] ++
    (if 8 ≤ r.point then [pair "CL" (whText (nth regs (qty + 2)))] else []) ++
    [textPair "EF" ef, textPair "ST" (ascii st)])

/-- IS, IL and IT by the method: 1 external identification, 2 Plug & Charge. -/
def identFields (r : MRec) : List Bytes :=
  match r.method with
  | 2 => [pair "IS" (ascii "true"), textPair "IL" (ascii "CERTIFIED"), textPair "IT" (ascii "EMAID")]
  | 1 => [pair "IS" (ascii "true"), textPair "IL" (ascii "TRUSTED"), textPair "IT" (ascii "CENTRAL")]
  | _ => [pair "IS" (ascii "false"), textPair "IL" (ascii "NONE"), textPair "IT" (ascii "NONE")]

/-- The version of the legally relevant software as text. -/
def legalVersionText (s : State) : Bytes :=
  let v := (fwInUse s).legalVersion
  dec (nth v 0) ++ ascii "." ++ dec (nth v 1) ++ ascii "." ++ dec (nth v 2)

/-- The payload of a record. -/
def payloadText (s : State) (r : MRec) : Bytes :=
  let serial := dec Config.serial
  let point := pointEntry s r.point
  object ([textPair "FV" (ascii "1.0"), textPair "GI" (ascii "ALRELET NDX-D2400"), textPair "GS" serial,
    textPair "GV" (dec (fwInUse s).ifMajor ++ ascii "." ++ dec (fwInUse s).ifMinor),
    textPair "PG" (ascii (if r.kind = 1 then "T" else "F") ++ dec r.mseq), textPair "MV" (ascii "Alrelet"),
    textPair "MM" (ascii "NDX-D2400"), textPair "MS" (serial ++ ascii "-" ++ dec r.point),
    textPair "MF" (ascii "NDX-M " ++ legalVersionText s)] ++ identFields r ++
    [textPair "ID" r.ident, textPair "CT" (ascii "EVSEID"), textPair "CI" (unpadded (slice point 32 32))] ++
    (if 8 ≤ r.point then [pair "LC" (object [textPair "LN" (ascii "cable"), pair "LI" (dec r.point),
      pair "LR" (dec (ptLcRes point)), textPair "LU" (ascii "uOhm")])] else []) ++
    [pair "RD" (array [reading r 0 false, reading r 1 false, reading r 0 true, reading r 1 true])])

/-- The private material of a slot, empty where it holds no valid key. -/
def materialOf (s : State) (slot : Nat) : Bytes := match winner s slot with | some k => k.material | none => []

/-- The algorithm of a slot. -/
def algOf (s : State) (slot : Nat) : Nat := match winner s slot with | some k => k.alg | none => 0

/-- The signature section over a payload (R300). -/
def signatureText (s : State) (payload : Bytes) : Bytes :=
  let h := s.nvMtr.header
  let slot := hdEcdsaSlot h
  object [textPair "SA" (ascii (if hdCurve h = 0 then "ECDSA-secp256r1-SHA256" else "ECDSA-secp384r1-SHA384")),
    textPair "SE" (ascii "hex"), textPair "SM" (ascii "application/x-der"),
    textPair "SD" (hexOf (Config.sign (algOf s slot) (materialOf s slot) payload))]

/-- The OCMF string of a record (R299, R300). -/
def ocmfText (s : State) (r : MRec) : Bytes :=
  let p := payloadText s r
  ascii "OCMF|" ++ p ++ ascii "|" ++ signatureText s p

/-- The long-term envelope of a record (R301). -/
def envelope (s : State) (r : MRec) : Bytes :=
  let t := ocmfText s r
  let slot := hdFalconSlot s.nvMtr.header
  let front := ascii "DRLT" ++ [1, 0, 0, 0] ++ digest32 (publicOf s slot) ++ u64 r.mseq ++ u32 t.length ++ t
  let sig := Config.sign (algOf s slot) (materialOf s slot) front
  front ++ u16 sig.length ++ sig

/-- A record rendered in format 0 or 1. -/
def rendering (s : State) (r : MRec) (format : Nat) : Bytes := if format = 0 then ocmfText s r else envelope s r

end Sys2Proof.Machine
end

