-- ==== Sys2Proof/Machine/MeterCmd.lean ====
section
/-!
DEFINITION. The metering commands (R306, R307, R312, R313), the checks of the sealed parameters, and metering at boot
(R290, R296, R298, R308).
-/
namespace Sys2Proof.Machine

/-! ### Checks of sealed parameters (R278 to R305) -/

/-- A block of a kind has its length: header, channel entry, table, point entry. -/
def blockLength (kind : Nat) : Nat := match kind with | 0 => 24 | 1 => 32 | 2 => 272 | _ => 64

/-- A block kind and index that exist. -/
def blockOk (kind i : Nat) : Bool :=
  (kind == 0 && i == 0) || ((kind == 1 || kind == 2) && i < 40) || (kind == 3 && i < 11)

/-- A channel entry keeps its ranges, with the delays of its table (R279). -/
def channelOk (i : Nat) (e tb : Bytes) : Bool :=
  let d := ceDelay e
  g8 e 0 == i && ceQuantity e ≤ 3 && ceMclk e < 8 && (ceTin e < 32 || ceTin e == 255) && (ceQuantity e != 3 || ceFullScale e == 0) &&
    0 ≤ d && d ≤ 62500 && ceTable e ≤ 1 &&
    (ceTable e == 0 || (tableValid tb && g8 tb 0 == i && g8 tb 1 == 33 &&
      (List.range 33).all fun j => 0 ≤ d + tbPhase tb j && d + tbPhase tb j ≤ 62500))

/-- A point entry keeps its ranges. -/
def pointOk (p : Nat) (e : Bytes) : Bool :=
  g8 e 0 == p && (p != 7 || ptFlags e % 4 == 0) &&
    (8 ≤ p || ptLcRes e == 0) &&
    (!bit (ptFlags e) 0 || (if acPoint p then 1 ≤ ptStart e && ptStart e ≤ 10000 else 100 ≤ ptStart e && ptStart e ≤ 3000))

/-- A pulse output of the header (R303, R305): at most 20,000 pulses per second at RATED_P. -/
def pulseOk (h : Bytes) (points : List Bytes) (n : Nat) : Bool :=
  hdPulsePoint h n == 255 || (hdPulsePoint h n ≤ 10 && hdPulsePoint h n != 7 && hdPulseQty h n ≤ 1 && 1 ≤ hdPulseC h n &&
    hdPulseC h n ≤ 100000 && 20 ≤ hdPulseWidth h n && hdPulseWidth h n ≤ 100000 &&
    ptRated (nth points (hdPulsePoint h n)) * hdPulseC h n ≤ 20000 * 3600)

/-- The header keeps R297, R302 to R305. -/
def headerOk (h : Bytes) (points : List Bytes) : Bool :=
  [1, 2, 3, 4, 5, 6, 10, 12, 15, 20, 30, 60].contains (hdInterval h) && hdCurve h ≤ 1 && pulseOk h points 0 && pulseOk h points 1

/-- The sealed parameters pass the check of R306. -/
def parametersOk (n : MtrNv) : Bool :=
  headerOk n.header n.points && ((List.range 40).all fun i => channelOk i (nth n.chans i) (nth n.tables i)) &&
    (List.range 11).all fun p => pointOk p (nth n.points p)

/-- The bytes of a block from `off` on, `n` of them, set to 0. -/
def blankBytes (b : Bytes) (off n : Nat) : Bytes := b.take off ++ List.replicate n 0 ++ b.drop (off + n)

/-- A block as it is kept: its reserved fields read as 0, whatever was written to them (R6). -/
def clearReserved (kind : Nat) (b : Bytes) : Bytes :=
  match kind with
  | 1 => b.take 25 ++ List.replicate 7 0
  | 2 => blankBytes b 2 2
  | 3 => (blankBytes (b.take 1 ++ u8 (g8 b 1 % 4) ++ b.drop 2) 2 2).take 20 ++ List.replicate 12 0 ++ b.drop 32
  | _ => b

/-- The digest of the sealed set: header, channel entries, tables, point entries (log entry 15). -/
def parameterDigest (n : MtrNv) : Bytes := digest32 (n.header ++ n.chans.flatten ++ n.tables.flatten ++ n.points.flatten)

/-! ### Commands -/

/-- EPOCH and MIRROR of a register in whole mWh (R289). -/
def mirror (mWh : Nat) : Nat := mWh / 1000 % two32
def mirrorEpoch (mWh : Nat) : Nat := mWh / (1000 * two32) % 65536

/-- Point number that exists, and that the part holds. -/
def pointArg (p : Nat) : Bool := p ≤ 10 && p != 7

/-- The checks of a command on a point: the number, then whether the role holds it (R16, R277). -/
def pointChecks (s : State) (p : Nat) : List (Bool × Nat) :=
  [(!pointArg p, stBadArg), (!holdsPoint s.sys.role s.sys.nodeStrap p, stNotInRole)]

/-- MTR_GET_REGISTERS. -/
def execMtrGetRegisters (r : Req) (point : Nat) (s : State) : Res :=
  command { op := 0x0701, own := .anyRole } r (fun s =>
    checked (pointChecks s point) s fun s =>
      let w := wholeRegs (mpoint s point).regs
      let c := (mtrWinner s.nvMtr.copies).getD {}
      .ok s (w.flatMap u64 ++ u32 (mirror (nth w 0)) ++ u16 (mirrorEpoch (nth w 0)) ++ u32 (mirror (nth w 1)) ++
        u16 (mirrorEpoch (nth w 1)) ++ u64 c.opSeconds ++ u8 c.kind)) s

/-- Mode byte of a channel: 0 table, 1 fallback, 2 faulted. -/
def channelMode (m : MChan) : Nat := if m.faulted then 2 else if m.fallback then 1 else 0

/-- MTR_GET_POINT: the power is the mean of the last 8 samples (log entry 17). -/
def execMtrGetPoint (r : Req) (point : Nat) (s : State) : Res :=
  command { op := 0x0702, own := .anyRole } r (fun s =>
    checked (pointChecks s point) s fun s =>
      let m := mpoint s point
      .ok s (i32 (roundDiv m.last8.sum (8 * 65536000000)) ++
        ((pointChannels point).flatMap fun c => u8 (channelMode (mchan s c)) ++ i16 (mchan s c).temp) ++
        u32 (match m.cycle with | some c => 8000000 * 1048576 / max 1 c | none => 0) ++ u8 m.dir ++
        i16 (if 8 ≤ point then (meanConductor s (point - 8)).getD (10 * ptLcTfb (pointEntry s point)) else 0))) s

/-- The record that stands for an MSEQ: held under it, or the one it was merged into (R294). -/
def recordOf (s : State) (mseq : Nat) : Option MRec :=
  match s.nvMtr.ring.find? fun r => r.mseq == mseq with
  | some r => some r
  | none => match s.nvMtr.retired.find? fun x => x.1 == mseq with
    | some x => s.nvMtr.ring.find? fun r => r.mseq == x.2
    | none => none

/-- An MSEQ that is held: not below RING_TAIL nor at or above RING_HEAD (R313). -/
def mseqHeld (s : State) (mseq : Nat) : Bool := s.nvMtr.tail ≤ mseq && mseq < s.nvMtr.head && (recordOf s mseq).isSome

/-- MTR_GET_RECORD; a bad record is named in a LEGAL record. -/
def execMtrGetRecord (r : Req) (mseq : Nat) (s : State) : Res :=
  command { op := 0x0703 } r (fun s =>
    checked [(!mseqHeld s mseq, stBadArg)] s fun s =>
      match recordOf s mseq with
      | none => .no s stBadArg
      | some m =>
        let st := if m.bad then 2 else if m.mseq = mseq then 1 else 3
        let s := if m.bad then recordLegal 0x1706 (u64 m.mseq) s else s
        .ok s (u8 st ++ recBytes m)) s

/-- Why the metrology core may not sign with a slot, if it may not (R302, R466). -/
def meterKey (s : State) (slot : Nat) : Option Nat :=
  invocation s slot (fun k => k.usage == useMeter && keyPrivate k && algSigns k.alg) byMetrology true

/-- Why a rendering may not be signed, if it may not. -/
def renderKeys (s : State) (format : Nat) : Option Nat :=
  match meterKey s (hdEcdsaSlot s.nvMtr.header) with
  | some st => some st
  | none => if format = 1 then meterKey s (hdFalconSlot s.nvMtr.header) else none

/-- The part of a rendering from an offset: total length and up to 4,000 bytes. -/
def renderedPart (b : Bytes) (offset : Nat) : Bytes := u32 b.length ++ (b.drop offset).take 4000

/-- MTR_RENDER_RECORD (R313): the rendering kept for the channel answers at once, another is rendered within 40 ms. -/
def execMtrRenderRecord (r : Req) (mseq format offset : Nat) (s : State) : Res :=
  let k : Cmd := { op := 0x0704, states := lcMPIFS }
  command k r (fun s =>
    checked [((renderKeys s format).isSome, stKeyBadSlot),
        (2 ≤ format || !mseqHeld s mseq, stBadArg)] s fun s =>
        let work := accept k r 40 (.render ((recordOf s mseq).getD default) mseq format offset) s
        match nth s.mtr.rendered r.ch with
        | some (m, f, b) =>
          if m = mseq && f = format then
            if b.length < offset then .no s stBadArg else .ok s (renderedPart b offset)
          else work
        | none => work) s

/-- The work of MTR_RENDER_RECORD, on the record as the command found it. -/
def renderWork (ch : Nat) (m : MRec) (mseq format offset : Nat) (s : State) : Reply :=
  let b := rendering s m format
  let s := { s with mtr.rendered := s.mtr.rendered.set ch (some (mseq, format, b)) }
  if b.length < offset then .no s stBadArg else .ok s (renderedPart b offset)

/-- Records freed up to an MSEQ (R293, R294): EV_MTR_RING below 720, cause 0x0206 gone, waiting sessions placed. -/
def ackRecords (mseq : Nat) (s : State) : State :=
  let was := ringUsed s
  let ring := s.nvMtr.ring.filter fun r => mseq < r.mseq
  let s := { s with
    nvMtr.ring := ring
    nvMtr.retired := s.nvMtr.retired.filter fun x => ring.any fun r => r.mseq == x.2
    nvMtr.tail := match ring with | r :: _ => r.mseq | [] => s.nvMtr.head }
  let s := raiseIf (720 ≤ was && ringUsed s < 720) evMtrRing s
  let s := if ringUsed s < was then goneKick 0x0206 s else s
  meterCommit 2 (putWaiting s)

/-- MTR_ACK_RECORDS. -/
def execMtrAckRecords (r : Req) (mseq : Nat) (s : State) : Res :=
  command { op := 0x0705, secure := true, cred := 1 } r (fun s =>
    checked [(mseq < s.nvMtr.tail || s.nvMtr.head ≤ mseq, stBadArg)] s fun s => .ok (ackRecords mseq s)) s

/-- MTR_SET_WALL_TIME (R298, R307, R313): a step waits for the next marker, a slew of at most 2 s starts. -/
def execMtrSetWallTime (r : Req) (mode : Nat) (wall : Int) (s : State) : Res :=
  command { op := 0x0706, own := .anyRole, secure := true, states := lcIFS, cred := 1 } r (fun s =>
    let diff := 1000 * (wall - s.env.wall) - s.env.wallMs
    checked [(mode == 0 && (legalFull s || !legalPlace s), stSealed),
        (2 ≤ mode || (mode == 1 && 2000 < diff.natAbs), stBadArg)] s fun s =>
      .ok (if mode = 0 then { s with mtr.step := some wall }
        else wallQuality true (raise evMtrTime (record 0x4702 srcMetrology (u8 0 ++ i32 diff) { s with mtr.slew := diff })))) s

/-- The block of a kind and index. -/
def blockAt (n : MtrNv) (kind i : Nat) : Bytes :=
  match kind with | 0 => n.header | 1 => nth n.chans i | 2 => nth n.tables i | _ => nth n.points i

/-- Writing a block. -/
def putBlock (n : MtrNv) (kind i : Nat) (b : Bytes) : MtrNv :=
  match kind with
  | 0 => { n with header := b }
  | 1 => { n with chans := n.chans.set i b }
  | 2 => { n with tables := n.tables.set i b }
  | _ => { n with points := n.points.set i b }

/-- A header that changes a signing slot (R302). -/
def changesSlots (n : MtrNv) (kind : Nat) (b : Bytes) : Bool :=
  kind == 0 && (hdEcdsaSlot b != hdEcdsaSlot n.header || hdFalconSlot b != hdFalconSlot n.header)

/-- MTR_WRITE_PARAMETERS (R302, R306, R307). A refused write sets EV_MTR_PARAMETERS. -/
def execMtrWriteParameters (r : Req) (kind index : Nat) (block : Bytes) (s : State) : Res :=
  command { op := 0x0707, own := .anyRole, secure := true, states := lcIS, cred := 1, fits := 4 ≤ kind || block.length == blockLength kind } r (fun s =>
    match firstOf [(7936 ≤ legalHeld s || !legalPlace s, stSealed), (!blockOk kind index, stBadArg),
        (changesSlots s.nvMtr kind block && 0 < ringUsed s, stBusy)] with
    | some st => .no (raise evMtrParameters s) st
    | none =>
      let old := digest32 (blockAt s.nvMtr kind index)
      let block := clearReserved kind block
      let s := { s with nvMtr := { putBlock s.nvMtr kind index block with
        isSealed := false, counter := (s.nvMtr.counter + 1) % two32 } }
      .ok (raise evMtrParameters (recordLegal 0x1701 (u8 kind ++ u8 index ++ u32 s.nvMtr.counter ++ old.take 16 ++
        (digest32 block).take 16) s))) s

/-- MTR_SEAL_PARAMETERS (R306, R307). -/
def execMtrSealParameters (r : Req) (s : State) : Res :=
  command { op := 0x0708, own := .anyRole, secure := true, states := lcIS, cred := 1 } r (fun s =>
    match firstOf [(legalFull s || !legalPlace s, stSealed), (!parametersOk s.nvMtr, stBadArg)] with
    | some st => .no (raise evMtrParameters s) st
    | none =>
      let d := parameterDigest s.nvMtr
      .ok (raise evMtrParameters (recordLegal 0x1702 (d ++ u32 s.nvMtr.counter)
        { s with nvMtr.isSealed := true, nvMtr.digest := d })) (d ++ u32 s.nvMtr.counter)) s

/-- MTR_GET_LEGAL_ID (R308). -/
def execMtrGetLegalId (r : Req) (s : State) : Res :=
  command { op := 0x0709 } r (fun s =>
    let f := fwInUse s
    .ok s (slice (ascii "NDX-M") 0 8 ++ u8 (nth f.legalVersion 0) ++ u8 (nth f.legalVersion 1) ++ u8 (nth f.legalVersion 2) ++
      slice f.legalDigest 0 32 ++ slice s.nvMtr.digest 0 32 ++ u32 s.nvMtr.counter ++ uFlag s.nvMtr.isSealed ++ u16 (legalHeld s))) s

/-- MTR_READ_PARAMETERS. -/
def execMtrReadParameters (r : Req) (kind index : Nat) (s : State) : Res :=
  command { op := 0x070A } r (fun s =>
    checked [(!blockOk kind index, stBadArg)] s fun s => .ok s (slice (blockAt s.nvMtr kind index) 0 (blockLength kind))) s

/-! ### Boot (R290, R296, R298, R308) -/

/-- The open sessions of the commit block in force, cut off at that commit; the self-test's end closes them (R80, R90, R296). -/
def cutSessions (c : MCommit) : List (Option OpenRec) :=
  c.sessions.zipIdx.map fun (x : Option OpenRec × Nat) => x.1.map fun o =>
    { o with cut := o.cut <|> some { regs := nth c.regs (8 + x.2), opSeconds := c.opSeconds, wall := c.wall, kind := c.kind } }

/-- An interrupted session record closed where it was cut off (R90, R296). -/
def interruptedSession (slot : Nat) (s : State) : State :=
  match nth s.mtr.sessions slot with
  | none => s
  | some o => match o.cut with
    | none => s
    | some c =>
      let extra := flInterrupted ||| (if c.kind = 1 then flPfwCommit else 0)
      let m := closeAt s 1 (8 + slot) o (closeFlags o (condFlags s) extra) c.opSeconds c.wall (!bit o.flags 5) c.regs
      putSession { m with
          cycEnd := o.cycStart, endFirst := 0x11, endCode := 0x11, protocol := o.protocol, method := o.method, ident := o.ident }
        { s with mtr.sessions := s.mtr.sessions.set slot none }

/-- Running intervals of the commit block in force, closed at that commit (R296). -/
def interruptedInterval (c : MCommit) (p : Nat) (s : State) : State :=
  match nth c.intervals p with
  | none => s
  | some o =>
    let extra := flInterrupted ||| (if c.kind = 1 then flPfwCommit else 0)
    let m := closeAt s 2 p o (closeFlags o (condFlags s) extra) c.opSeconds c.wall (!bit o.flags 5) (nth c.regs p)
    if ringUsed s < ringPlaces then putRecord { m with cycEnd := o.cycStart } s
    else onPoint p (fun x => { x with interval := some { o with flags := o.flags ||| flGap ||| extra } }) s

/-- Metering restarts at the end of image verification (R80, R296). -/
def startMeter (s : State) : State :=
  match mtrWinner s.nvMtr.copies with
  | none => enterKick 0x0207 (recordLegal 0x1705 (u8 1) s)
  | some c =>
    let other := s.nvMtr.copies.any fun x => !commitGood x
    let s := if other then recordLegal 0x1705 (u8 0) s else s
    let s := { s with
      mtr.points := (s.mtr.points.zip c.regs).map fun (x : MPoint × Regs) => { x.1 with regs := x.2 }
      mtr.sessions := cutSessions c, mtr.waiting := c.waiting, mtr.running := true }
    let s := if (fwInUse s).legalDigest != s.nvMtr.legal then
        recordLegal 0x1704 (slice (fwInUse s).legalDigest 0 32) { s with nvMtr.legal := (fwInUse s).legalDigest }
      else s
    let s := if s.env.vbat then s else { s with env.wall := c.wall, env.wallMs := 0, env.wallGood := false }
    let s := putWaiting s
    let s := (List.range 11).foldl (fun s p => interruptedInterval c p s) s
    let s := (pointsOn s).foldl (fun s p => match (mpoint s p).interval with
      | some _ => onPoint p (fun m => { m with interval := m.interval.map fun o =>
          { o with boundary := nextBoundary (periodS s) s.env.wall } }) s
      | none => startInterval p flShort s) s
    meterCommit 2 s

end Sys2Proof.Machine
end

