-- ==== Sys2Proof/Machine/Window.lean ====
section
/-!
DEFINITION. The direct register window and the quad-SPI target (R44 to R48, R51 to R55, R71 to R73, R104): what each register
reads, what a write does, which accesses err, and the reset of a channel. Readings: log entry 30.
-/
namespace Sys2Proof.Machine

/-! ### Registers (table of the direct register window) -/

/-- A register of the window; `m` numbers a word, `n` a channel. -/
inductive Reg where
  | idrevL
  | idrevH
  | sysStatus
  | kickCause
  | winErr
  | pend (m : Nat)
  | en (m : Nat)
  | route (m : Nat)
  | bellStatus
  | bellCtrl
  | ctrl (n : Nat)
  | reqProd (n : Nat)
  | reqCons (n : Nat)
  | rspProd (n : Nat)
  | rspCons (n : Nat)
deriving DecidableEq, Repr

/-- The register at an aligned offset; none for a reserved one. -/
def regAt (a : Nat) : Option Reg :=
  match a with
  | 0x000 => some .idrevL
  | 0x004 => some .idrevH
  | 0x008 => some .sysStatus
  | 0x00C => some .kickCause
  | 0x010 => some .winErr
  | 0x140 => some .bellStatus
  | 0x144 => some .bellCtrl
  | _ =>
    if a % 4 != 0 then none
    else if 0x100 ≤ a && a < 0x110 then some (.pend ((a - 0x100) / 4))
    else if 0x110 ≤ a && a < 0x120 then some (.en ((a - 0x110) / 4))
    else if 0x120 ≤ a && a < 0x140 then some (.route ((a - 0x120) / 4))
    else if 0x200 ≤ a && a < 0x280 then
      let n := (a - 0x200) / 0x20
      match a % 0x20 with
      | 0x00 => some (.ctrl n)
      | 0x04 => some (.reqProd n)
      | 0x08 => some (.reqCons n)
      | 0x0C => some (.rspProd n)
      | 0x10 => some (.rspCons n)
      | _ => none
    else none

/-- BOOT_PHASE of SYS_STATUS. -/
def bootPhase (s : State) : Nat :=
  match s.sys.phase with
  | .held | .heatHold | .wipe => 0
  | .verify => 1
  | .selfTest => 2
  | .running => 3
  | .failed => 0xF

/-- The quad-SPI target answers: from the end of the wipe (R47). -/
def windowAnswers (s : State) : Bool := bootPhase s != 0

/-- KICK_CAUSE: the first cause of the current entry (R99). -/
def kickCauseOf (s : State) : Nat := match s.sys.kicks with | c :: _ => c.code | [] => 0

/-- KICK_N: its level, or none for high impedance without VDDIO (R104). -/
def kickN (s : State) : Option Bool := if s.env.vddio then some (up s && !kicked s) else none

/-- SYS_STATUS (table of its fields). -/
def sysStatus (s : State) : Nat :=
  if !windowAnswers s then 0
  else bootPhase s + (if s.sys.live then 2 ^ 4 else 0) + (if kicked s then 2 ^ 5 else 0) + (if s.sys.belowSupply then 2 ^ 6 else 0) +
    (if !s.sys.late.isEmpty then 2 ^ 7 else 0) + s.sys.roleStrap % 8 * 2 ^ 8 + s.sys.nodeStrap % 8 * 2 ^ 11 + lifecycle s % 8 * 2 ^ 16 +
    (if s.sys.imageB then 2 ^ 20 else 0) + (if s.sys.configSel != 255 then 2 ^ 21 else 0) + s.heat.level % 8 * 2 ^ 22 +
    s.tdm.state.code * 2 ^ 25 + s.sys.role % 8 * 2 ^ 28

/-- CHn_CTRL: ENABLE, BINDING, CONNECTED. -/
def chanCtrl (c : Channel) : Nat :=
  (if c.enable then 1 else 0) + c.binding % 4 * 16 + (if c.connected && c.binding != 3 then 256 else 0)

/-- What a register reads. -/
def readReg (s : State) (r : Reg) : Word :=
  match r with
  | .idrevL => BitVec.ofNat 32 s.sys.idrev
  | .idrevH => BitVec.ofNat 32 (s.sys.idrev / 2 ^ 32)
  | .sysStatus => BitVec.ofNat 32 (sysStatus s)
  | .kickCause => BitVec.ofNat 32 (kickCauseOf s)
  | .winErr => s.win.err
  | .pend m => s.win.pend.extractLsb' (32 * m) 32
  | .en m => s.win.en.extractLsb' (32 * m) 32
  | .route m => s.win.route.extractLsb' (32 * m) 32
  | .bellStatus => BitVec.ofNat 32 (maskOf ((List.range 4).filter (bellAsserted s)))
  | .bellCtrl => s.win.pulse.zeroExtend 32
  | .ctrl n => BitVec.ofNat 32 (chanCtrl (chan s n))
  | .reqProd n => BitVec.ofNat 32 (chan s n).reqProd
  | .reqCons n => BitVec.ofNat 32 (chan s n).reqCons
  | .rspProd n => BitVec.ofNat 32 (chan s n).rspProd
  | .rspCons n => BitVec.ofNat 32 (chan s n).rspCons

/-! ### Channel reset (R55) -/

/-- A channel after its reset: empty rings, pointers 0, credentials closed, tags forgotten. -/
def blankChannel (c : Channel) : Channel :=
  { c with
    reqProd := 0, reqCons := 0, rspProd := 0, rspCons := 0, tags := List.replicate 32 {}, held := [], running := [], creds := []
    streamIn := [], streamOut := [] }

/-- The reset of a channel: commands that run go on without a response (R55). -/
def resetChannel (ch : Nat) (s : State) : State :=
  raise evMbxChannelReset (count ch statReset (endEditOf ch none
    (onChan ch blankChannel { s with mbx.orphans := s.mbx.orphans ++ (chan s ch).running })))

/-- The connection of a channel ends: the channel is reset (R58). -/
def endConnection (ch : Nat) (s : State) : State :=
  raise evMbxLink (resetChannel ch (onChan ch (fun c => { c with connected := false, plain := false, tlsSlot := none }) s))

/-! ### Ring pointers (R51, R53) -/

/-- Difference of two indices modulo 64. -/
def idxDiff (a b : Nat) : Nat := (a + 64 - b % 64) % 64

/-- A write of `v` to CHn_REQ_PROD is accepted. -/
def prodAccepted (c : Channel) (v : Nat) : Bool :=
  v == c.reqProd || (1 ≤ idxDiff v c.reqCons && idxDiff v c.reqCons ≤ 32 && idxDiff c.reqProd c.reqCons < idxDiff v c.reqCons)

/-- A write of `v` to CHn_RSP_CONS is accepted. -/
def consAccepted (c : Channel) (v : Nat) : Bool := v == c.rspCons || idxDiff c.rspProd v < idxDiff c.rspProd c.rspCons

/-- A refused pointer write. -/
def refusePointer (ch : Nat) (s : State) : State := raise evMbxFraming (count ch statFraming (winErr 3 s))

/-- A write to CHn_REQ_PROD. -/
def writeReqProd (ch v : Nat) (s : State) : State :=
  if prodAccepted (chan s ch) v then onChan ch (fun c => { c with reqProd := v }) s else refusePointer ch s

/-- A write to CHn_RSP_CONS. -/
def writeRspCons (ch v : Nat) (s : State) : State :=
  if consAccepted (chan s ch) v then onChan ch (fun c => { c with rspCons := v }) s else refusePointer ch s

/-- ENABLE of a channel written; clearing it resets the channel. DESIGN CHOICE (log entry 31): so does a 0 written to an ENABLE
that is 0 already. -/
def writeEnable (ch : Nat) (on : Bool) (s : State) : State :=
  let s1 := onChan ch (fun c => { c with enable := on }) s
  if on then s1 else resetChannel ch s1

/-- A write to CHn_CTRL: RESET and a cleared ENABLE each reset the channel once. -/
def writeCtrl (ch : Nat) (v : Word) (s : State) : State :=
  let s1 := onChan ch (fun c => { c with enable := v.getLsbD 0 }) s
  if v.getLsbD 1 || !v.getLsbD 0 then resetChannel ch s1 else s1

/-! ### Event registers (R10, R71, R72) -/

/-- A word placed in a wider register. -/
def setWord {w : Nat} (old : BitVec w) (m : Nat) (v : Word) : BitVec w :=
  (old &&& ~~~((BitVec.allOnes 32).zeroExtend w <<< (32 * m))) ||| (v.zeroExtend w <<< (32 * m))

/-- A write of EV_ENm: a pending source that becomes enabled on an asserted line with PULSE set is a further cause (R72). -/
def writeEn (m : Nat) (v : Word) (s : State) : State :=
  let s1 := { s with win.en := setWord s.win.en m v }
  let further (line : Nat) : Bool := s.win.pulse.getLsbD line && bellAsserted s line &&
    (List.range 128).any fun n => active s1 n && !active s n && routeOf s n == line
  { s1 with win.pulses := s.win.pulses.zipIdx.map fun (x : Nat × Nat) => if further x.2 then x.1 + 1 else x.1 }

/-- Pending bits of word `m` cleared, those of `set` set in the same access prevailing (R10). -/
def clearPend (m : Nat) (value set : Word) (s : State) : State :=
  let keep := s.win.pend &&& ~~~((value &&& ~~~set).zeroExtend 128 <<< (32 * m))
  (List.range 32).foldl (fun s b => raiseIf (set.getLsbD b) (32 * m + b) s) { s with win.pend := keep }

/-- WIN_ERR bits cleared, those of `set` set in the same access prevailing (R10). -/
def clearErr (value set : Word) (s : State) : State :=
  { s with win.err := (s.win.err &&& ~~~value) ||| (set &&& 0x1F) }

/-- A write of a whole aligned word to a register (R9). -/
def writeReg (r : Reg) (v : Word) (s : State) : State :=
  match r with
  | .winErr => clearErr v 0 s
  | .pend m => clearPend m v 0 s
  | .en m => writeEn m v s
  | .route m => { s with win.route := setWord s.win.route m v }
  | .bellCtrl => { s with win.pulse := v.truncate 4 }
  | .ctrl n => writeCtrl n v s
  | .reqProd n => writeReqProd n (v.toNat % 64) s
  | .rspCons n => writeRspCons n (v.toNat % 64) s
  | .idrevL | .idrevH | .sysStatus | .kickCause | .bellStatus | .reqCons _ | .rspProd _ => winErr 2 s

/-! ### Transactions (R44 to R46) -/

/-- The pieces of a transaction of `n` bytes from an address on: words of the window as far as it covers them, single bytes
elsewhere. -/
def pieces : Nat → Nat → Nat → List (Nat × Nat)
  | 0, _, _ => []
  | fuel + 1, a, n =>
    if n = 0 then []
    else
      let k := if a < 0x1000 then min (4 - a % 4) n else 1
      (a, k) :: pieces fuel (a + k) (n - k)

/-- The channel whose rings hold an address. -/
def ringOf (a : Nat) : Option Nat := if 0x100000 ≤ a && a < 0x200000 then some ((a - 0x100000) / 0x20000 % 4) else none

/-- The bits of WIN_ERR that an access to a piece sets, whatever its direction (R46). -/
def pieceErr (s : State) (p : Nat × Nat) : List Nat :=
  if p.1 < 0x1000 then
    (if p.1 % 4 != 0 || p.2 < 4 then [0] else []) ++ (if (regAt (p.1 / 4 * 4)).isNone then [1] else [])
  else match ringOf p.1 with
    | some ch => if (chan s ch).binding = 0 then [] else [4]
    | none => [1]

/-- Setting several bits of WIN_ERR. -/
def winErrs (l : List Nat) (s : State) : State := l.foldl (fun s n => winErr n s) s

/-- What a READ returns for one piece: zeros where the access errs, else the bytes of the word or of the ring (R44 to R46). -/
def readPiece (s : State) (p : Nat × Nat) : Bytes :=
  match pieceErr s p with
  | [] =>
    if p.1 < 0x1000 then match regAt p.1 with
      | some r => u32 (readReg s r).toNat
      | none => List.replicate p.2 0
    else memReads s.mbx.ring p.1 p.2
  | _ => List.replicate p.2 0

/-- The bytes that a READ of `count` bytes from an address on returns, the byte at the lowest address first (R44 to R46). -/
def readBytes (s : State) (address count : Nat) : Bytes := (pieces count address count).flatMap (readPiece s)

/-- A write of one piece. -/
def writePiece (p : Nat × Nat) (b : Bytes) (s : State) : State :=
  match pieceErr s p with
  | [] =>
    if p.1 < 0x1000 then match regAt p.1 with
      | some r => writeReg r (BitVec.ofNat 32 (leNat b)) s
      | none => s
    else { s with mbx.ring := memWrites s.mbx.ring p.1 b }
  | l => winErrs l s

/-- A write of several pieces in turn. -/
def writePieces : List (Nat × Nat) → Bytes → State → State
  | [], _, s => s
  | p :: rest, b, s => writePieces rest (b.drop p.2) (writePiece p (b.take p.2) s)

/-- REGISTER_WRITE: a quad-SPI WRITE of whole bytes (R9, R44 to R46). -/
def execRegisterWrite (address : Nat) (data : Bytes) (s : State) : Res :=
  .next (if windowAnswers s then writePieces (pieces data.length address data.length) data s else s)

/-- ERRONEOUS_WINDOW_READ: the bytes returned, and the bits of WIN_ERR that the READ sets (R45, R46). -/
def execErroneousWindowRead (address count : Nat) (s : State) : Res :=
  .next (if windowAnswers s then
    winErrs ((pieces count address count).flatMap (pieceErr s)) { s with win.readData := readBytes s address count }
  else s)

/-! ### Lanes of the quad-SPI target (R44, R45) -/

/-- A transaction as the lanes carry it: the level of QSPI_SCK at the falling edge of QSPI_CS_N, which selects SPI mode 3 (high)
or mode 0 (low), and the value of the four lanes, QSPI_IO3 the most significant, at each clock until QSPI_CS_N rises. The two
modes sample the same lanes at the same clocks. -/
structure QspiFrame where
  sckHigh : Bool := false
  lanes : List Nat
deriving DecidableEq, Repr

/-- The number that nibbles spell, the first the most significant. -/
def nibblesNat (l : List Nat) : Nat := l.foldl (fun n x => 16 * n + x % 16) 0

/-- The bytes that nibbles spell, high nibble first; a half byte at the end is discarded (R44, R45). -/
def nibbleBytes : List Nat → Bytes
  | h :: l :: rest => BitVec.ofNat 8 (16 * (h % 16) + l % 16) :: nibbleBytes rest
  | _ => []

/-- The nibbles of a byte string as the lanes carry them. -/
def byteNibbles (b : Bytes) : List Nat := b.flatMap fun x => [x.toNat / 16, x.toNat % 16]

/-- The part of a transaction after the instruction and address phases. -/
def qspiData (f : QspiFrame) : List Nat := f.lanes.drop 8

/-- What a transaction asks of the block: the operands of REGISTER_WRITE, ERRONEOUS_WINDOW_READ, QSPI_UNKNOWN_INSTRUCTION. -/
inductive QspiAct where
  | write (address : Nat) (data : Bytes)
  | read (address count : Nat)
  | unknown (instruction : Nat) (data : Bytes)
deriving DecidableEq, Repr

/-- The command that a transaction asks of the block (R44, R45): 2 clocks of instruction, 6 of address, for a READ 8 dummy clocks,
then data, whole bytes only. A transaction that ends before the first data byte is none; a READ that errs nowhere changes
nothing and is none either. -/
def qspiCommand (s : State) (f : QspiFrame) : Option QspiAct :=
  let op := nibblesNat (f.lanes.take 2)
  let address := nibblesNat ((f.lanes.drop 2).take 6)
  if f.lanes.length < 2 then none
  else if op = 0x32 then
    let data := nibbleBytes (qspiData f)
    if data = [] then none else some (.write address data)
  else if op = 0xEB then
    let count := ((qspiData f).length - 8) / 2
    if (pieces count address count).any fun p => pieceErr s p != [] then some (.read address count) else none
  else some (.unknown op (nibbleBytes (f.lanes.drop 2)))

/-- The nibbles that the target drives in a READ, from the end of the dummy clocks on; none, high impedance, in any other
transaction and while the window does not answer (R44, R45, R47). -/
def qspiReply (s : State) (f : QspiFrame) : List Nat :=
  if windowAnswers s && nibblesNat (f.lanes.take 2) == 0xEB then
    byteNibbles (readBytes s (nibblesNat ((f.lanes.drop 2).take 6)) (((qspiData f).length - 8) / 2))
  else []

/-- QSPI_UNKNOWN_INSTRUCTION: ignored (R45). -/
def execQspiUnknownInstruction (_instruction : Nat) (_data : Bytes) (s : State) : Res := .next s

/-- CHN_REQ_PROD_WRITE. -/
def execChnReqProdWrite (ch : Nat) (value : Word) (s : State) : Res :=
  .next (if windowAnswers s && ch < 4 then writeReg (.reqProd ch) value s else s)

/-- CHN_RSP_CONS_WRITE. -/
def execChnRspConsWrite (ch : Nat) (value : Word) (s : State) : Res :=
  .next (if windowAnswers s && ch < 4 then writeReg (.rspCons ch) value s else s)

/-- CHN_CTRL_RESET. -/
def execChnCtrlReset (ch : Nat) (s : State) : Res := .next (if windowAnswers s && ch < 4 then resetChannel ch s else s)

/-- CHN_CTRL_ENABLE. -/
def execChnCtrlEnable (ch : Nat) (on : Bool) (s : State) : Res :=
  .next (if windowAnswers s && ch < 4 then writeEnable ch on s else s)

/-- WIN_ERR_CLEAR. -/
def execWinErrClear (value set : Word) (s : State) : Res := .next (if windowAnswers s then clearErr value set s else s)

/-- EV_PEND_CLEAR. -/
def execEvPendClear (m : Nat) (value set : Word) (s : State) : Res :=
  .next (if windowAnswers s && m < 4 then clearPend m value set s else s)

/-- BELL_CTRL_WRITE. -/
def execBellCtrlWrite (value : Word) (s : State) : Res :=
  .next (if windowAnswers s then writeReg .bellCtrl value s else s)

end Sys2Proof.Machine
end

