-- ==== Sys2Proof/Machine/Keys.lean ====
section
/-!
DEFINITION. Key slots (chapter 17): writes, revocation and erasure, derivation, credentials, attestation, and the KEY_
commands. Readings: log entry 26.
-/
namespace Sys2Proof.Machine

/-! ### Slot copies (R459 to R462) -/

/-- The public part of a key, empty for a symmetric one. -/
def publicPartOf (k : KeyCopy) : Bytes := if k.alg < 0x10 then [] else keyPublic k

/-- Digest of the public part; zeros where there is none. -/
def publicDigest (k : KeyCopy) : Bytes := if publicPartOf k = [] then List.replicate 32 0 else digest32 (publicPartOf k)

/-- Copy A is the winner of slot `n`. -/
def winsA (n : Nat) (k : KeySlot) : Bool := copyGood n k.a && !(copyGood n k.b && k.b.generation > k.a.generation)

/-- A copy as a write leaves it: MAGIC, no error, and last the TAG that R459 gives, which is the commit (R461). -/
def asWritten (k : KeyCopy) : KeyCopy := { k with magic := 0x5D4B, readable := true, tag := none }

/-- A key written into the copy of slot `n` that is not the winner, one generation and one epoch on (R461). -/
def putCopy (n : Nat) (key : KeyCopy) (k : KeySlot) : KeySlot :=
  match slotWinner n k with
  | none => k
  | some w =>
    let c := asWritten { key with generation := w.generation + 1, epoch := w.epoch + 1 }
    if winsA n k then { k with b := c } else { k with a := c }

/-- Both copies of slot `n` written empty, one epoch above the winner's (R460). -/
def emptyCopies (n : Nat) (k : KeySlot) : KeySlot :=
  let e := match slotWinner n k with | some w => w.epoch | none => max k.a.epoch k.b.epoch
  { a := { ({} : KeyCopy) with epoch := e + 1 }, b := { ({} : KeyCopy) with epoch := e + 1 } }

/-- A key is slot `n` or descends from it, through at most five generations (R467). -/
def descends (s : State) (n : Nat) : Nat → Nat → Bool
  | 0, m => m == n
  | f + 1, m => m == n || match winner s m with
    | some k => keyDerived k && descends s n f k.parent
    | none => false

/-- What a revocation or a new write of a slot ends at its commit (R469): credentials opened with it, and mailbox connections and
vehicle links whose TLS session rests on it or on one of its descendants. -/
def endUses (n : Nat) (s : State) : State :=
  let rests (slot : Option Nat) : Bool := slot.any (descends s n 5)
  let s := [0, 1, 2, 3].foldl (fun t ch => if (chan s ch).connected && rests (chan s ch).tlsSlot then endConnection ch t else t) s
  let s1 := { s with mbx.channels := s.mbx.channels.map fun c => { c with creds := c.creds.filter fun d => !descends s n 5 d.slot } }
  [0, 1, 2].foldl (fun s k => if (link s k).tls && descends s n 5 (link s k).tlsSlot then linkDown k s else s) s1

/-- A slot write commits: the uses of the old key end, EV_KEY_CHANGED (R461, R469, R480). -/
def writeSlot (n : Nat) (key : KeyCopy) (s : State) : State :=
  let used := match winner s n with | some w => w.state == 1 | none => false
  let s1 := if used then endUses n s else s
  raise evKeyChanged { s1 with slots := upd s1.slots n (putCopy n key) }

/-- A slot written with a new key: recorded (table of key records). -/
def installKey (n : Nat) (key : KeyCopy) (s : State) : State :=
  let s1 := writeSlot n key s
  let g := match winner s1 n with | some w => w.generation | none => 0
  record 0x3C01 srcKey (u8 n ++ u32 g ++ u8 key.usage ++ slice (publicDigest key) 0 8) s1

/-- A slot revoked: STATE 2, one epoch on (R468). -/
def revokeSlot (n : Nat) (s : State) : State :=
  match winner s n with
  | some w => raise evKeyRevoked (record 0x3C04 srcKey (u8 n ++ u8 2) (writeSlot n { w with state := 2 } s))
  | none => s

/-- A slot erased (R460). -/
def eraseSlot (n : Nat) (s : State) : State :=
  raise evKeyRevoked (record 0x3C04 srcKey (u8 n ++ u8 0) (raise evKeyChanged
    (let s1 := endUses n s
     { s1 with slots := upd s1.slots n (emptyCopies n) })))

/-- One slot at boot: an update that did not commit is rolled back, a bad slot reported, a copy that is not good rewritten
(R462). -/
def resolveSlot (s : State) (n : Nat) : State :=
  let k := nth s.slots n
  match copyGood n k.a, copyGood n k.b with
  | true, true => s
  | false, false => raise evKeySlotBad (record 0x3C03 srcKey (u8 n) s)
  | true, false =>
    let s1 := { s with slots := upd s.slots n fun k => { k with b := k.a } }
    if k.a.generation < k.b.generation then raise evKeyRolledBack (record 0x3C02 srcKey (u8 n) s1) else s1
  | false, true =>
    let s1 := { s with slots := upd s.slots n fun k => { k with a := k.b } }
    if k.b.generation < k.a.generation then raise evKeyRolledBack (record 0x3C02 srcKey (u8 n) s1) else s1

/-- Every slot at boot (R462). -/
def resolveSlots (s : State) : State := (List.range 256).foldl resolveSlot s

/-- Slot `n` holds nothing in either copy. -/
def slotEmpty (n : Nat) (k : KeySlot) : Bool := copyGood n k.a && copyGood n k.b && k.a.state == 0 && k.b.state == 0

/-- The wipes of R95: general and reserved slots in RETURNED, every slot in SCRAPPED. -/
def wipeKeys (s : State) : State :=
  let first := if lifecycle s = lcReturned then 5 else if lifecycle s = lcScrapped then 0 else 256
  { s with slots := s.slots.zipIdx.map fun (x : KeySlot × Nat) => if first ≤ x.2 && !slotEmpty x.2 x.1 then emptyCopies x.2 x.1 else x.1 }

/-! ### Usages (R463 to R465) -/

/-- Algorithms a usage permits for a key that KEY_GENERATE, KEY_IMPORT or KEY_DERIVE installs: `how` is 0, 1, 2. -/
def usageAlg (usage how alg : Nat) : Bool :=
  match usage with
  | 0x01 => how != 1 && alg == 0x03
  | 0x07 => how == 1 && (alg == 0x11 || alg == 0x13)
  | 0x08 => how == 0 && (alg == 0x10 || alg == 0x11 || alg == 0x20)
  | 0x09 => how == 0 && (alg == 0x10 || alg == 0x12 || alg == 0x13)
  | 0x0A => how == 0 && (alg == 0x11 || alg == 0x13)
  | 0x0B => how == 1 && (alg == 0x11 || alg == 0x13 || alg == 0x30)
  | 0x0C => how == 1 && alg == 0x30
  | 0x0D => how == 1 && alg == 0x01
  | 0x0E => alg == 0x01 || alg == 0x02 || (0x10 ≤ alg && alg ≤ 0x13)
  | _ => false

/-- MASTERS a usage permits. -/
def usageMasters (usage : Nat) : Nat :=
  match usage with
  | 0x08 => 0x40
  | 0x09 | 0x0A | 0x0B | 0x0C => 0x10
  | 0x0D => 0x30
  | 0x0E => 0x1F
  | _ => 0x80

/-- `a` is a subset of `b`, as bit masks. -/
def subMask (a b : Nat) : Bool := a &&& b == a

/-- The attribute bytes of a command are within their fields. -/
def attrFields (a : KeyAttr) : Bool := a.world < 2 && a.lifecycles % 2 == 0 && a.lifecycles < 256 && a.flags < 8 && a.masters < 256

/-- The attributes are within the table of usages and R465. -/
def attrOk (how : Nat) (a : KeyAttr) : Bool :=
  usageAlg a.usage how a.alg && subMask a.masters (usageMasters a.usage) && (!bit a.flags 0 || a.alg < 0x10)

/-- A general slot (R464). -/
def generalSlot (n : Nat) : Bool := 8 ≤ n && n < 256

/-- The slot refuses every write but KEY_ERASE: a system slot, a bad one, one at the last generation, a revoked one, or a
usage it does not keep (R461, R464, R468). -/
def writeDenied (s : State) (n usage : Nat) : Bool :=
  n < 5 || match winner s n with
  | some w => 0xFFFFFFFE ≤ w.generation || w.state == 2 || (w.state == 1 && w.usage != usage)
  | none => true

/-- No write of the slot can start: one is in progress, the metering ring still needs it, or PFW_N is low (R302, R461,
R479). -/
def writeBusy (s : State) (n : Nat) : Bool :=
  s.keys.busy.contains n || s.sys.pfwLow ||
    ((n == hdEcdsaSlot s.nvMtr.header || n == hdFalconSlot s.nvMtr.header) && s.nvMtr.isSealed && !s.nvMtr.ring.isEmpty)

/-- The copy that a command's attributes and material make. -/
def newKey (a : KeyAttr) (label material : Bytes) (isPrivate derived : Bool) : KeyCopy :=
  { state := 1, alg := a.alg, usage := a.usage, masters := a.masters, world := a.world, lifecycles := a.lifecycles
    flags := (if bit a.flags 0 then 1 else 0) + (if isPrivate then 2 else 0) + (if derived then 4 else 0)
    label := slice label 0 32, material := material }

/-! ### Derivation (R467) -/

/-- The seed of a child. -/
def childSeed (p : KeyCopy) (child alg : Nat) (label : Bytes) : Bytes :=
  slice (Config.shake256 (p.material ++ ascii "DRINOV-KDF" ++ slice label 0 32 ++ u8 child ++ u32 p.epoch ++ u8 alg) 64) 0 64

/-- The child's material from its seed. -/
def formMaterial (alg : Nat) (seed : Bytes) : Bytes :=
  if alg = 0x01 then seed.take 16 else if alg = 0x02 || alg = 0x03 then seed.take 32
  else if alg = 0x13 then seed.take 57 else if alg = 0x14 then seed.take 56
  else Config.childMaterial alg seed

/-- A child's attributes against its parent's (R467). -/
def childOk (s : State) (p : KeyCopy) (a : KeyAttr) : Bool :=
  subMask a.masters p.masters && subMask a.lifecycles p.lifecycles && p.world ≤ a.world && generations s 5 p + 1 ≤ 4

/-! ### Commands (R478, R479) -/

/-- The command record of the key commands that write slots. -/
def keyCmd (op : Nat) : Cmd := { op := op, secure := true, states := lcIFS, cred := 2 }

/-- KEY_GET_SLOT. -/
def execKeyGetSlot (r : Req) (slot : Nat) (s : State) : Res :=
  command { op := 0x0C01 } r (fun s =>
    checked [(256 ≤ slot, stBadArg)] s fun s =>
      let k := nth s.slots slot
      let g (c : KeyCopy) : Bytes := u32 (if copyGood slot c then c.generation else 0xFFFFFFFF)
      let rest := match slotWinner slot k with
        | some w => copyHead w ++ publicDigest w
        | none => List.replicate 96 0
      .ok s (uFlag (slotWinner slot k).isNone ++ g k.a ++ g k.b ++ rest)) s

/-- A key to be written: at once, or within 60 ms for Falcon-1024 (R479). -/
def startWrite (k : Cmd) (r : Req) (slot : Nat) (key : KeyCopy) (s : State) : Reply :=
  if key.alg = 0x20 then accept k r 60 (.write slot key) { s with keys.busy := s.keys.busy ++ [slot] }
  else .ok (installKey slot key s)

/-- KEY_GENERATE. -/
def execKeyGenerate (r : Req) (slot : Nat) (attr : KeyAttr) (label : Bytes) (s : State) : Res :=
  command { keyCmd 0x0C02 with fits := label.length == 32 } r (fun s =>
    checked [(generalSlot slot && writeDenied s slot attr.usage || slot < 5 || !attrOk 0 attr, stKeyAttr),
        (!generalSlot slot || !attrFields attr, stBadArg), (writeBusy s slot, stBusy)] s fun s =>
      startWrite (keyCmd 0x0C02) r slot (newKey attr label (Config.freshKey attr.alg s.free) (0x10 ≤ attr.alg) false) (drawn s)) s

/-- Length that the material of an imported key must have. -/
def importLen (alg len : Nat) : Bool :=
  if alg = 0x01 then len == 16 else if alg = 0x02 || alg = 0x03 then len == 32
  else if alg = 0x10 then len == 65 else if alg = 0x11 then len == 97 else if alg = 0x12 then len == 133
  else if alg = 0x13 then len == 57 else 1 ≤ len && len ≤ 4016

/-- The parts of an import that have come on a channel for a slot. -/
def importSoFar (s : State) (ch slot : Nat) : Bytes :=
  match s.keys.imports.find? fun i => i.ch == ch && i.slot == slot with | some i => i.data | none => []

/-- The imports with those of a channel for a slot replaced. -/
def putImport (ch slot : Nat) (data : Option Bytes) (s : State) : State :=
  let l := s.keys.imports.filter fun i => !(i.ch == ch && i.slot == slot)
  { s with keys.imports := match data with | some d => l ++ [{ ch := ch, slot := slot, data := d }] | none => l }

/-- Imported material in clear: a symmetric one comes under the session key. -/
def importClear (s : State) (r : Req) (alg : Nat) (data : Bytes) : Bytes :=
  if alg < 0x10 then Config.unwrap ((authKey s r).getD []) data else data

/-- KEY_IMPORT: parts in order from offset 0, the slot written at the final one. -/
def execKeyImport (r : Req) (slot : Nat) (attr : KeyAttr) (label : Bytes) (offset final : Nat) (data : Bytes) (s : State) : Res :=
  command { keyCmd 0x0C03 with fits := label.length == 32 && data.length ≤ 3900 } r (fun s =>
    let sofar := if offset = 0 then [] else importSoFar s r.ch slot
    let all := sofar ++ data
    let clear := importClear s r attr.alg all
    checked [(generalSlot slot && writeDenied s slot attr.usage || slot < 5 || !attrOk 1 attr, stKeyAttr),
        (!generalSlot slot || !attrFields attr || 1 < final || offset != sofar.length || 4096 < all.length, stBadArg),
        (final == 1 && !importLen attr.alg clear.length, stBadLength), (writeBusy s slot, stBusy)] s fun s =>
      if final = 1 then .ok (installKey slot (newKey attr label clear false false) (putImport r.ch slot none s))
      else .ok (putImport r.ch slot (some all) s)) s

/-- KEY_DERIVE. -/
def execKeyDerive (r : Req) (parent child : Nat) (attr : KeyAttr) (label : Bytes) (s : State) : Res :=
  command { keyCmd 0x0C04 with fits := label.length == 32 } r (fun s =>
    match invocation s parent (fun k => k.usage == useDerive && k.alg == 0x03) byKeyEngine true with
    | some st => .no s (if 256 ≤ parent then stBadArg else st)
    | none => match winner s parent with
      | none => .no s stKeyBadSlot
      | some p =>
        checked [(generalSlot child && writeDenied s child attr.usage || child < 5 || !attrOk 2 attr || !childOk s p attr, stKeyAttr),
            (!generalSlot child || !attrFields attr || parent == child, stBadArg), (writeBusy s child, stBusy)] s fun s =>
          let key := newKey attr label (formMaterial attr.alg (childSeed p child attr.alg label)) (0x10 ≤ attr.alg) true
          startWrite (keyCmd 0x0C04) r child { key with parent := parent, parentEpoch := p.epoch } s) s

/-- KEY_REVOKE. -/
def execKeyRevoke (r : Req) (slot : Nat) (s : State) : Res :=
  command (keyCmd 0x0C05) r (fun s =>
    let w := winner s slot
    checked [(slot < 5 || (match w with | some k => 0xFFFFFFFE ≤ k.generation | none => false), stKeyAttr),
        (!generalSlot slot || (match w with | some k => k.state != 1 | none => true), stBadArg),
        (writeBusy s slot, stBusy)] s fun s => .ok (revokeSlot slot s)) s

/-- KEY_ERASE. -/
def execKeyErase (r : Req) (slot : Nat) (s : State) : Res :=
  command (keyCmd 0x0C06) r (fun s =>
    checked [(slot < 5, stKeyAttr), (!generalSlot slot, stBadArg), (writeBusy s slot, stBusy)] s fun s =>
      .ok (eraseSlot slot s)) s

/-- KEY_EXPORT: the public part, or symmetric material wrapped for an open credential (R465). -/
def execKeyExport (r : Req) (slot : Nat) (s : State) : Res :=
  command { op := 0x0C07, states := lcMPIFS } r (fun s =>
    match winner s slot with
    | none => .no s stKeyBadSlot
    | some k =>
      checked [(256 ≤ slot, stBadArg), (k.state != 1, stKeyBadSlot),
          (k.alg < 0x10 && (!keyExportable k || (k.world == 1 && r.world != 1)), stKeyAttr),
          (k.alg < 0x10 && (authKey s r).isNone, stDeniedCredential)] s fun s =>
        .ok s (if k.alg < 0x10 then Config.wrap ((authKey s r).getD []) k.material else publicPartOf k)) s

/-- KEY_SIGN: accepted with a bound of 20 ms; the key is the one the command found (R461). -/
def execKeySign (r : Req) (slot : Nat) (digest : Bytes) (s : State) : Res :=
  command { op := 0x0C08 } r (fun s =>
    match invocation s slot (fun k => k.usage == 0x0E && algSigns k.alg && keyPrivate k) r.ch (r.world == 1) with
    | some st => .no s (if 256 ≤ slot then stBadArg else st)
    | none => match winner s slot with
      | none => .no s stKeyBadSlot
      | some k =>
        checked [(digest.length = 0 || 64 < digest.length, stBadArg)] s fun s =>
          accept { op := 0x0C08 } r 20 (.sign k.alg k.material digest) s) s

/-- KEY_ATTEST: accepted with a bound of 60 ms. -/
def execKeyAttest (r : Req) (nonce : Bytes) (s : State) : Res :=
  command { op := 0x0C09, states := lcMPIFS, fits := nonce.length == 32 } r (fun s =>
    checked [((match winner s 1 with | some k => k.state != 1 | none => true), stKeyBadSlot)] s fun s =>
      accept { op := 0x0C09, states := lcMPIFS } r 60 (.attest (slice nonce 0 32)) s) s

/-- KEY_GET_CERTIFICATE. -/
def execKeyGetCertificate (r : Req) (which offset : Nat) (s : State) : Res :=
  command { op := 0x0C0A } r (fun s =>
    let c := Config.certificate which
    checked [(1 < which || c.length < offset, stBadArg)] s fun s =>
      .ok s (u16 c.length ++ (c.drop offset).take 4000)) s

/-! ### Credentials (R60, R470, R471) -/

/-- Life-cycle states of a credential kind. -/
def credStates (kind : Nat) : Nat := if kind = 1 then 0x78 else if kind = 2 then 0x38 else 0x7E

/-- USAGE that the slot of a credential kind has. -/
def credUsage (kind : Nat) : Nat := if kind = 1 then 0x06 else if kind = 2 then 0x07 else 0x05

/-- The bytes that a credential request signs. -/
def credSigned (s : State) (kind slot ch : Nat) (eph : Bytes) : Bytes :=
  ascii "DRINOV-CRED" ++ u8 kind ++ u8 slot ++ identity s ++ u8 ch ++ slice eph 0 56

/-- A random handle, not 0 and not open on the channel. -/
def freshHandle (s : State) (ch : Nat) : Nat :=
  let used := (chan s ch).creds.map (·.handle)
  let h := 1 + Config.freshNat s.free 4294967294 % 4294967294
  ((List.range 5).map (fun i => (h - 1 + i) % 4294967295 + 1)).find? (fun x => !used.contains x) |>.getD h

/-- A handle opened: session key, response (R470). -/
def openCred (r : Req) (kind slot : Nat) (eph : Bytes) (s : State) : Reply :=
  let h := freshHandle s r.ch
  let dev := slice (Config.publicPart 0x14 (Config.freshKey 0x14 s.free)) 0 56
  let key := digest32 (ascii "DRINOV-CRED" ++ Config.x448 s.free (slice eph 0 56) ++ slice eph 0 56 ++ dev ++ u32 h)
  let msg := credSigned s kind slot r.ch eph ++ slice eph 0 56 ++ dev ++ u32 h
  let sig := Config.sign 0x20 (match winner s 0 with | some k => k.material | none => []) msg
  .ok (record 0x3C05 srcKey (u8 kind ++ u8 slot ++ u8 r.ch)
    (drawn (onChan r.ch (fun c => { c with creds := c.creds ++ [{ handle := h, kind := kind, slot := slot, key := key }] }) s)))
    (u32 h ++ dev ++ u16 sig.length ++ sig)

/-- SYS_OPEN_CREDENTIAL (R471). -/
def execSysOpenCredential (r : Req) (kind slot : Nat) (eph : Bytes) (sig : Sig) (s : State) : Res :=
  command { op := 0x0102, fits := eph.length == 56 } r (fun s =>
    match winner s slot with
    | none => .no s stKeyBadSlot
    | some k =>
      if k.state != 1 then .no s stKeyBadSlot
      else if kind = 0 || 3 < kind || k.usage != credUsage kind then .no s stBadArg
      else if !bit (credStates kind) (lifecycle s) || !sigOk sig (keyPublic k) (credSigned s kind slot r.ch eph) then
        .no (record 0x3C06 srcKey (u8 kind ++ u8 slot ++ u8 r.ch) s) stDeniedCredential
      else if 4 ≤ (chan s r.ch).creds.length then .no s stBusy
      else openCred r kind slot eph s) s

/-- SYS_CLOSE_CREDENTIAL. -/
def execSysCloseCredential (r : Req) (handle : Nat) (s : State) : Res :=
  command { op := 0x0103 } r (fun s =>
    checked [(!((chan s r.ch).creds.any fun c => c.handle == handle), stBadArg)] s fun s =>
      .ok (onChan r.ch (fun c => { c with creds := c.creds.filter fun d => d.handle != handle }) s)) s

/-! ### Attestation (R477) -/

/-- A digest of 32 bytes, zeros where there is no object. -/
def digestOr (b : Bytes) : Bytes := if b = [] then List.replicate 32 0 else slice b 0 32

/-- The attestation statement. -/
def attestation (s : State) (nonce : Bytes) : Bytes :=
  let fw := fwInUse s
  let other := (nth s.nv.fw (if s.sys.imageB then 0 else 1)).image
  let flags := (if s.sys.imageB then 1 else 0) + (if s.nv.onTrial then 2 else 0) + (if s.nvMtr.isSealed then 4 else 0) +
    (if safeRunning s then 8 else 0) + (if kicked s then 16 else 0) + (if s.env.wallGood then 32 else 0)
  let held := (safeHeld s).isSome
  let alloc := digest32 (ruleDigest s.alc.rules ++ (List.range 16).flatMap (serviceDigest s))
  ascii "DATT" ++ u8 1 ++ u8 (lifecycle s) ++ u8 s.sys.role ++ u8 s.tdm.state.code ++ u64 s.sys.idrev ++ identity s ++
    slice nonce 0 32 ++ u64 s.nv.opSeconds ++ u32 s.nv.powerCycles ++ u32 s.nv.fwMin ++ u32 fw.fwCtr ++ u32 s.nv.legalMin ++
    u32 s.cfg.generation ++ u32 (if held then setSignature (safeSet s) else 0) ++ u32 s.nvMtr.counter ++ u32 flags ++
    i64 s.env.wall ++ digestOr fw.digest ++ digestOr other.digest ++ digestOr (legalDigest s) ++ digestOr s.cfg.digest ++
    (if held then digest32 (setBytes (safeSet s)) else List.replicate 32 0) ++ slice s.nvMtr.digest 0 32 ++ alloc ++
    digestOr (let p := publicOf s (hdEcdsaSlot s.nvMtr.header); if p = [] then [] else digest32 p) ++
    digestOr (let p := publicOf s (hdFalconSlot s.nvMtr.header); if p = [] then [] else digest32 p)

/-- The response of KEY_ATTEST. -/
def attestReply (s : State) (nonce : Bytes) : Bytes :=
  let t := attestation s nonce
  let sig := Config.sign 0x20 (match winner s 1 with | some k => k.material | none => []) t
  t ++ u16 sig.length ++ sig

end Sys2Proof.Machine
end

