-- ==== Sys2Proof/Machine/Recorder.lean ====
section
/-!
DEFINITION. The event recorder (chapter 18): committing records, reading, clearing, rate-limit windows, the flush of a power
failure. Readings: log entry 27.
-/
namespace Sys2Proof.Machine

/-! ### Partitions (R481, R483) -/

/-- Capacity of a partition, records. -/
def partCapacity (p : Nat) : Nat := if p = 1 || p = 2 then 8192 else if p = 3 then 4096 else 12288

/-- NOR sectors of a ring partition; LEGAL is none. -/
def partSectors (p : Nat) : Nat := if p = 2 then 9 else if p = 3 then 5 else 13

/-- Partition `p`, 1 to 4. -/
def part (s : State) (p : Nat) : Part := nth s.nvRec.parts (p - 1)
def onPart (p : Nat) (f : Part → Part) (s : State) : State := { s with nvRec.parts := upd s.nvRec.parts (p - 1) f }

/-- The 64 bytes of a record. -/
def recordBytes (x : Record) : Bytes :=
  let b := u64 x.seq ++ u48 x.pidx ++ u16 x.code ++ u64 x.opSeconds ++ u32 x.cycles ++ i64 x.wall ++ u8 x.source ++
    u8 x.flags ++ slice x.params 0 22
  b ++ u32 (crc32c b)

/-- The oldest sector of a full ring partition is erased before the next record is written (R483). -/
def makeRoom (p : Nat) (s : State) : State :=
  let q := part s p
  if p ≤ 1 || q.next - q.oldest < 1024 * partSectors p then s
  else
    let o := q.oldest + 1024
    raise evRecWrap (onPart p (fun q => { q with oldest := o, nor := q.nor.filter fun x => o ≤ x.pidx }) s)

/-- One record committed: SEQ and PIDX assigned, the record in the commit area (R484, R486, R488), and into the safety log
where it is a commit or acknowledgement record (R410). -/
def commitPart (d : Draft) (params : Bytes) (more : Bool) (s : State) : State :=
  let p := partOf d.code
  let s1 := makeRoom p s
  let x : Record := {
    seq := s1.nvRec.nextSeq, pidx := (part s1 p).next, code := d.code, opSeconds := d.opSeconds, cycles := d.cycles
    wall := d.wall, source := d.source, params := params
    flags := (if d.wallGood then 1 else 0) + (if d.summary then 2 else 0) + (if more then 4 else 0) + (if d.full then 8 else 0) }
  let s2 := onPart p (fun q => { q with next := q.next + 1, newest := x.seq }) s1
  { s2 with
    nvRec.nextSeq := x.seq + 1
    nvRec.area := s2.nvRec.area ++ [x]
    nvSaf.log := if d.code = 0x2910 || d.code = 0x2912 then (recordBytes x :: s2.nvSaf.log).take 32 else s2.nvSaf.log }

/-- Records that a draft takes (R484). -/
def draftParts (d : Draft) : Nat := max 1 ((d.params.length + 21) / 22)

/-- The records of one draft in turn, `n` of them left. -/
def commitParts (d : Draft) : Nat → Bytes → State → State
  | 0, _, s => s
  | n + 1, b, s => commitParts d n (b.drop 22) (commitPart d (b.take 22) (0 < n) s)

/-- A whole draft committed. -/
def commitDraft (d : Draft) (s : State) : State := commitParts d (draftParts d) d.params s

/-- Places of the commit area. -/
abbrev areaPlaces : Nat := 8128

/-- Records from the front of the queue while they fit in what is left of RATE_MAX, each of their parts with at least 64 places free
before it (R484, R486, R488). -/
def commitQueue : List Draft → Nat → State → State
  | [], _, s => { s with recd.intake := [] }
  | d :: rest, left, s =>
    if draftParts d ≤ left && s.nvRec.area.length + (draftParts d - 1) + 64 ≤ areaPlaces then commitQueue rest (left - draftParts d) (commitDraft d s)
    else { s with recd.intake := d :: rest }

/-- LEGAL records that were held take places as they free (R487). -/
def enterWaiting (s : State) : State :=
  let n := 1024 - s.recd.intake.length
  { s with recd.intake := s.recd.intake ++ s.recd.waiting.take n, recd.waiting := s.recd.waiting.drop n }

/-- The report of dropped records, once a GENERAL record finds a place again (R487). -/
def reportDrops (s : State) : State :=
  if s.recd.dropped.all (· == 0) || !hasPlace 4 s then s
  else
    let b := s.recd.dropped.flatMap u32 ++ u64 s.recd.dropFirst ++ u64 s.recd.dropLast
    intake (draft 0x4D03 srcA0 b s) { s with recd.dropped := [0, 0, 0, 0] }

/-- Windows that have ended (R491). -/
def closeWindows (s : State) : State :=
  s.recd.windows.foldl (fun s w => if w.start + w.length ≤ s.nv.opSeconds then closeWindow w.code s else s) s

/-- RATE_LIMIT_WINDOW_END (R491). -/
def execRateLimitWindowEnd (code : Nat) (s : State) : Res :=
  .next (if s.recd.windows.any fun w => w.code == code && w.start + w.length ≤ s.nv.opSeconds then closeWindow code s else s)

/-! ### Clearing (R493, R494, R497) -/

/-- Every record that a partition holds, in PIDX order (R492). -/
def partRecords (s : State) (p : Nat) : List Record :=
  let low := max (part s p).oldest (part s p).floor
  ((part s p).nor ++ s.nvRec.area.filter fun x => partOf x.code == p).filter fun x => low ≤ x.pidx

/-- A clear takes effect: the floor, the clear record, EV_REC_CLEARED (R493). -/
def settleClearRec (s : State) : State :=
  match s.recd.clear with
  | none => s
  | some c =>
    if c.done then s
    else
      let gone := (partRecords s c.part).filter fun x => x.seq ≤ c.limit
      let floor := match gone.getLast? with | some x => x.pidx + 1 | none => (part s c.part).floor
      let first := match gone.head? with | some x => x.seq | none => 0
      let s1 := onPart c.part (fun q => { q with floor := floor }) { s with recd.clear := some { c with done := true } }
      let b := u64 first ++ u64 c.limit ++ u32 gone.length ++ u8 c.kind ++ slice c.keyDigest 0 8
      raise evRecCleared (commitDraft (draft (4096 * c.part + 0xD02) srcA0 b s1) s1)

/-- RECORD_CLEAR_EFFECT (R493). -/
def execRecordClearEffect (s : State) : Res := .next (if up s then settleClearRec s else s)

/-- The NOR sectors of a clear that has taken effect are erased, so that the ring holds none of them, and the clear is over (R483,
R493). -/
def finishClear (s : State) : State :=
  match s.recd.clear with
  | some c =>
    let f := (part s c.part).floor
    onPart c.part (fun q => { q with
        nor := q.nor.filter fun x => f ≤ x.pidx, oldest := if c.part ≤ 1 then q.oldest else max q.oldest (f / 1024 * 1024) })
      { s with recd.clear := none }
  | none => s

/-- The recorder's work at an epoch boundary (R486, R487, R491, R493). -/
def recorderEpoch (s : State) : State :=
  let s1 := reportDrops (closeWindows (enterWaiting (settleClearRec s)))
  commitQueue s1.recd.intake s1.cfg.rateMax s1

/-! ### Power failure and boot (R87, R488, R489) -/

/-- Whether a flushed draft finds places, the last one kept free. -/
def flushFits (s : State) (d : Draft) : Bool := s.nvRec.area.length + draftParts d + 1 ≤ areaPlaces

/-- One draft of the flush: committed, or lost and counted in the header. -/
def flushOne (s : State) (d : Draft) : State :=
  if flushFits s d then commitDraft d s
  else
    let p := partOf d.code
    { onPart p (fun q => { q with drops := q.drops + 1 }) s with
      nvRec.lost := upd s.nvRec.lost (p - 1) (· + 1)
      nvRec.lostFirst := if s.nvRec.lost.all (· == 0) then s.nv.opSeconds else s.nvRec.lostFirst
      nvRec.lostLast := s.nv.opSeconds }

/-- The intake queue emptied into the commit area: LEGAL first, then the others in order; then the power-fail record (R87,
R488). -/
def flushRecords (last : Draft) (s : State) : State :=
  let q := s.recd.intake ++ s.recd.waiting
  let s1 := { s with recd.intake := [], recd.waiting := [] }
  let s2 := ((q.filter fun d => partOf d.code == 1) ++ q.filter fun d => partOf d.code != 1).foldl flushOne s1
  commitDraft last s2

/-- At the end of image verification: the records that boot firmware held go first, and those a power failure lost are
reported (R488, R489). -/
def startRecorder (s : State) : State :=
  let s1 := { s with recd.intake := s.recd.boot ++ s.recd.intake, recd.boot := [] }
  if s.nvRec.lost.all (· == 0) then s1
  else intake (draft 0x4D03 srcA0 (s.nvRec.lost.flatMap u32 ++ u64 s.nvRec.lostFirst ++ u64 s.nvRec.lostLast) s1)
    { s1 with nvRec.lost := [0, 0, 0, 0] }

/-- NOR_RECORD_COPY (R489): the oldest places of the commit area programmed, verified and freed. -/
def execNorRecordCopy (count : Nat) (s : State) : Res :=
  .next (
    let moved := s.nvRec.area.take count
    { s with
      nvRec.area := s.nvRec.area.drop count
      nvRec.parts := s.nvRec.parts.zipIdx.map fun (x : Part × Nat) =>
        { x.1 with nor := x.1.nor ++ moved.filter fun r => partOf r.code == x.2 + 1 && x.1.oldest ≤ r.pidx } })

/-! ### Commands (table of recorder commands) -/

/-- What REC_GET_INFO gives of a partition. -/
def partBytes (s : State) (p : Nat) : Bytes :=
  let q := part s p
  u64 (max q.oldest q.floor) ++ u64 q.next ++ u64 q.floor ++ u64 q.newest ++ u16 (partCapacity p) ++ u32 q.drops

/-- REC_GET_INFO. -/
def execRecGetInfo (r : Req) (s : State) : Res :=
  command { op := 0x0D01 } r (fun s =>
    .ok s (u64 s.nvRec.nextSeq ++ u64 s.nv.opSeconds ++ u32 s.nv.powerCycles ++ u16 s.recd.intake.length ++
      [1, 2, 3, 4].flatMap (partBytes s) ++ u32 s.nvRec.overflow)) s

/-- REC_READ (R492). -/
def execRecRead (r : Req) (p start limit count : Nat) (s : State) : Res :=
  command { op := 0x0D02 } r (fun s =>
    checked [(p = 0 || 4 < p || count = 0 || 62 < count, stBadArg)] s fun s =>
      let low := max (part s p).oldest (part s p).floor
      let within := (partRecords s p).filter fun x => start ≤ x.pidx && x.seq ≤ limit
      let given := within.take count
      .ok s (u8 ((if start < low then 1 else 0) + (if given.length = within.length then 2 else 0)) ++ u64 low ++
        u8 given.length ++ List.replicate 6 0 ++ given.flatMap recordBytes)) s

/-- REC_GET_LIMITS. -/
def execRecGetLimits (r : Req) (s : State) : Res :=
  command { op := 0x0D03 } r (fun s =>
    .ok s (u8 s.cfg.rateMax ++ u8 s.cfg.limits.length ++ s.cfg.limits.flatMap fun e => slice e 0 8)) s

/-- REC_GET_CHALLENGE: a fresh nonce; the one before lapses. -/
def execRecGetChallenge (r : Req) (s : State) : Res :=
  command { op := 0x0D04 } r (fun s =>
    let n := fresh s 32
    .ok (drawn { s with recd.nonce := some n }) n) s

/-- The bytes that a signed clear signs (R494). -/
def clearSigned (s : State) (p limit : Nat) (nonce : Bytes) : Bytes :=
  ascii "DRINOV-CLR" ++ u8 p ++ u64 limit ++ identity s ++ nonce

/-- The authority of a clear, 1 owner or 3 Alrelet, with the authorising public key; none where there is none (R494). -/
def clearAuthority (s : State) (r : Req) (p limit kind : Nat) (sig : Sig) : Option (Nat × Bytes) :=
  if kind = 0 then
    match credOf s r with
    | some c => if r.handle != 0 && r.auth && (c.kind == 1 || c.kind == 3) then some (c.kind, publicOf s c.slot) else none
    | none => none
  else match s.recd.nonce with
    | none => none
    | some n =>
      if sigOk sig (publicOf s 4) (clearSigned s p limit n) then some (1, publicOf s 4)
      else if sigOk sig (publicOf s 3) (clearSigned s p limit n) then some (3, publicOf s 3)
      else none

/-- R494 permits the clear of a partition in the present life-cycle state. -/
def clearState (s : State) (p : Nat) : Bool :=
  if p = 1 then lifecycle s == lcManufacture else lifecycle s == lcReturned || mayEnergise s

/-- The command record of REC_CLEAR: check 8 admits MANUFACTURE, INTEGRATION, FIELD, SERVICE and RETURNED (R497). -/
def clearCmd : Cmd := { op := 0x0D05, states := 0x7A }

/-- REC_CLEAR (R493, R494, R497). -/
def execRecClear (r : Req) (p limit kind : Nat) (sig : Sig) (s : State) : Res :=
  command clearCmd r (fun s =>
    let a := clearAuthority s r p limit kind sig
    let refused := match a with
      | some x => p == 1 && x.1 != 3
      | none => true
    if kind ≤ 1 && refused then
      .no (recordIf (kind == 1) 0x3D06 srcKey (u8 p ++ u8 kind) s) stDeniedCredential
    else
      checked [(1 < kind || p = 0 || 4 < p, stBadArg), (!clearState s p, stDeniedLifecycle),
          (limit != (part s p).newest, stBadArg), (s.recd.clear.isSome, stBusy)] s fun s =>
        let s1 := { s with
          recd.nonce := if kind = 1 then none else s.recd.nonce
          recd.clear := some { part := p, limit := limit, kind := kind, keyDigest := match a with
            | some x => slice (digest32 x.2) 0 8
            | none => [] } }
        accept clearCmd r 10000 .clear s1) s

/-- A note would be suppressed by a rate limit (R491). -/
def suppressed (s : State) (code : Nat) : Bool :=
  (limitOf s code).isSome && s.recd.windows.any fun w => w.code == code && s.nv.opSeconds < w.start + w.length && w.limit ≤ w.seen

/-- REC_WRITE_NOTE. -/
def execRecWriteNote (r : Req) (note : Bytes) (s : State) : Res :=
  command { op := 0x0D06, secure := true, states := lcIFS, cred := 1, fits := note.length == 22 } r (fun s =>
    checked [(!hasPlace 4 s && !suppressed s 0x4D10, stBusy)] s fun s => .ok (record 0x4D10 srcHost (slice note 0 22) s)) s

end Sys2Proof.Machine
end

