-- ==== Sys2Proof/Machine/Tandem.lean ====
section
/-!
DEFINITION. The tandem pair and peloton mode (chapter 19): claiming, holding and losing authority, the shadow, takeover, the
peloton frames, and the TDM_ commands. Readings: log entry 28.
-/
namespace Sys2Proof.Machine

abbrev evTdmState : Nat := 120
abbrev evTdmTakeover : Nat := 121
abbrev evTdmPartnerLost : Nat := 122
abbrev evTdmFenced : Nat := 123
abbrev evTdmEligible : Nat := 124
abbrev evTdmMismatch : Nat := 125
abbrev evPltMember : Nat := 126
abbrev evPltSync : Nat := 127

/-! ### The hub functions put in service -/

/-- `n` table entries of `len` bytes, the missing ones empty or zero. -/
def fullTable (n len : Nat) (l : List Bytes) : List Bytes := (List.range n).map fun i => slice (nth l i) 0 len

/-- The hub functions as the configuration in service gives them, with nothing carried over (R85, R147, R169, R187). -/
def placeHub (s : State) : State :=
  { s with
    alc := { ({} : Alc) with
      epoch := s.alc.epoch, rules := fullTable 256 32 s.cfg.rules, staging := fullTable 256 32 s.cfg.rules }
    cad := { ({} : Cadence) with
      loops := (List.range 64).map fun i => if loopUsed (nth s.cfg.loops i) then loopOf (nth s.cfg.loops i) else {}
      groups := (List.range 16).map fun i => { ({} : Group) with desc := nth s.cfg.groups i }
      stageLoops := (List.range 64).map fun i => nth s.cfg.loops i
      stageGroups := (List.range 16).map fun i => nth s.cfg.groups i }
    chr.stages := (List.range 48).map fun i =>
      { ({} : Stage) with state := if (posEntry s.cfg.positions i).isSome then 1 else 0 }
    chr.next := List.replicate 48 {} }

/-- The rings driven under a generation, which MRAM takes (R180). -/
def driveRings (gen : Nat) (takeover : Bool) (s : State) : State :=
  { s with
    nvHub.authGen := gen
    chr.authGen := gen
    chr.rings := s.chr.rings.zipIdx.map fun (x : Ring × Nat) =>
      if ringEnabled s x.2 then
        { x.1 with running := true, off := false, broken := false, failRun := 0, takeover := takeover, written := false, frame := [] }
      else x.1 }

/-- The generation after the greater of the own and another one (R180). -/
def nextGen (s : State) (other : Nat) : Nat := (max s.nvHub.authGen other + 1) % 65536

/-- The start of the rings at a boot or a cold start (R180): the generation follows the own one and the one shadowed. -/
def startRings (s : State) : State := driveRings (nextGen s s.chr.authGen) false (placeHub s)

/-! ### The shadow (R507, R509) -/

/-- What a shadow frame carries of a group. -/
def shadowGroup (t : Group) : ShadowGroup :=
  { mode := t.mode, hold := t.hold, holdUs := t.holdUs, stop := t.stop, kick := t.kick, g := t.g, overruns := t.overruns }

/-- A group with what a shadow frame carries of it. -/
def unshadowGroup (x : ShadowGroup) (t : Group) : Group :=
  { t with mode := x.mode, hold := x.hold, holdUs := x.holdUs, stop := x.stop, kick := x.kick, g := x.g, overruns := x.overruns }

/-- The shadow frame of the present boundary (R507). -/
def captureShadow (s : State) : ShadowFrame :=
  { switch := s.tdm.switchPending, kickstand := kicked s, authGen := s.chr.authGen, epoch := s.alc.epoch
    digest := slice s.cfg.sharedDigest 0 32
    grants := s.alc.grants, bufferOut := s.alc.bufferOut, assign := s.alc.assign
    otherHist := s.alc.otherHist, excessHist := s.alc.excessHist, host := s.alc.host
    outlets := s.alc.out.map fun o => (o.session, o.start, o.cls, o.deadline), response := s.alc.response
    groups := s.cad.groups.map shadowGroup, loops := s.cad.loops.map fun l => (l.x, l.flags)
    tickSeq := s.chr.rings.map (·.tickSeq), stages := s.chr.stages.map fun t => (t.state, t.clean)
    period := s.spk.period, nodes := s.spk.nodes, answers := s.spk.answers
    charge := s.stk.strings.map (·.charge), service := s.stk.strings.map (·.service)
    rules := s.alc.rules, groupDescs := s.cad.groups.map (·.desc), loopDescs := s.cad.loops.map (·.desc) }

/-- A loop in service under a descriptor: the present one where it is the same. -/
def placeLoop (l : Loop) (desc : Bytes) : Loop :=
  if l.desc == desc then l else if loopUsed desc then loopOf desc else {}

/-- The rule table and the descriptors in service at the partner (R509). -/
def takeService (rules groups loops : List Bytes) (s : State) : State :=
  { s with
    alc.rules := rules
    cad.groups := s.cad.groups.zipIdx.map fun (x : Group × Nat) => { x.1 with desc := nth groups x.2 }
    cad.loops := s.cad.loops.zipIdx.map fun (x : Loop × Nat) => placeLoop x.1 (nth loops x.2) }

/-- A node of the shadowed slot map, with what this part has heard of it itself (R350, R541). -/
def shadowNode (s : State) (n : Node) : Node :=
  match s.spk.nodes.find? fun m => m.node == n.node with
  | some m => { n with missed := m.missed, silent := m.silent, heard := m.heard }
  | none => { n with missed := 0, silent := 0, heard := false }

/-- A complete shadow into the state that it shadows (R507, R513). -/
def applyShadow (f : ShadowFrame) (s : State) : State :=
  { s with
    alc.epoch := f.epoch
    alc.grants := f.grants
    alc.bufferOut := f.bufferOut
    alc.buffer := f.bufferOut
    alc.pOther := f.otherHist.foldl max 0
    alc.plan := []
    alc.assign := f.assign
    alc.otherHist := f.otherHist
    alc.excessHist := f.excessHist
    alc.host := f.host
    alc.response := f.response
    alc.out := (s.alc.out.zip f.outlets).zipIdx.map fun (x : (OutletIn × (Bool × Nat × Option Nat × Option Nat)) × Nat) =>
      { x.1.1 with
        session := x.1.2.1, start := x.1.2.2.1, cls := x.1.2.2.2.1, deadline := x.1.2.2.2.2
        lost := x.1.1.lost && !f.nodes.any fun n => n.state == 0 && n.post != 0 && n.post == outPost (outCfg s (x.2 + 1)) }
    cad.groups := (s.cad.groups.zip f.groups).map fun (x : Group × ShadowGroup) => unshadowGroup x.2 x.1
    cad.loops := (s.cad.loops.zip f.loops).map fun (x : Loop × (List Int × Nat)) => { x.1 with x := x.2.1, flags := x.2.2 }
    chr.authGen := f.authGen
    chr.stages := (s.chr.stages.zip f.stages).map fun (x : Stage × (Nat × Nat)) => { x.1 with state := x.2.1, clean := x.2.2 }
    spk.nodes := f.nodes.map (shadowNode s)
    spk.answers := f.answers
    stk.strings := (s.stk.strings.zip f.charge).map fun (x : StackStr × Nat) => { x.1 with charge := x.2 } }

/-- A shadow frame that may be used: complete, CRC right, shared sections equal (R508, R509). -/
def shadowGood (s : State) (f : ShadowFrame) : Bool := f.crcOk && f.digest == slice s.cfg.sharedDigest 0 32

/-- A part without authority that shadows its partner. -/
def shadows (s : State) : Bool := paired s && (s.tdm.state == .standby || s.tdm.state == .syncing)

/-- A part that has counted 1,000 clean shadow epochs is STANDBY (R509); not in Kickstand (R506). -/
def settleEligible (s : State) : State :=
  if s.tdm.state == .syncing && !kicked s && 1000 ≤ s.tdm.eligible then raise evTdmEligible (tdmEnter .standby s) else s

/-- A shadow frame that may be used is received. -/
def takeShadow (f : ShadowFrame) (s : State) : State :=
  let s1 := applyShadow f { s with
    tdm.shadow := some f, tdm.shadowAge := some 0, tdm.missing := 0, tdm.digestMatch := true, tdm.heartbeat := true
    tdm.partner := if s.tdm.state == .standby then 1 else 4
    tdm.eligible := if s.tdm.state == .syncing && s.tdm.bulk && !kicked s then s.tdm.eligible + 1 else s.tdm.eligible }
  settleEligible (if s.tdm.bulk then takeService f.rules f.groupDescs f.loopDescs s1 else s1)

/-- SHADOW_FRAME_RECEIVED (R508, R509). -/
def execShadowFrameReceived (f : ShadowFrame) (s : State) : Res :=
  .next (
    if !(up s && shadows s) then s
    else if shadowGood s f then takeShadow f s
    else
      let s1 := { s with tdm.eligible := 0, tdm.heartbeat := true }
      if f.crcOk then raise evTdmMismatch { s1 with tdm.digestMatch := false } else s1)

/-- SHADOW_FRAMES_MISSING (R509, R520): the third frame in a row is missing; a part that holds authority finds its partner no
longer STANDBY. -/
def execShadowFramesMissing (s : State) : Res :=
  .next (
    if !(up s && paired s) then s
    else if s.tdm.state == .standby then raise evTdmPartnerLost (tdmSync s)
    else if s.tdm.state == .active then raise evTdmPartnerLost (tdmEnter .alone { s with tdm.partner := 3, tdm.switchPending := false })
    else s)

/-- BULK_TRANSFER_RECEIVED (R509). -/
def execBulkTransferReceived (rules groups loops : List Bytes) (authGen period : Nat) (s : State) : Res :=
  .next (
    if !(up s && shadows s) then s
    else takeService (fullTable 256 32 rules) groups loops { s with
      nvHub.authGen := max s.nvHub.authGen authGen
      nvHub.period := max s.nvHub.period period
      alc.staging := fullTable 256 32 rules
      tdm.bulk := true
      tdm.eligible := 0 })

/-- STANDBY_ELIGIBLE (R509): the count is complete, or the partner of a part that holds authority has entered STANDBY. -/
def execStandbyEligible (s : State) : Res :=
  .next (
    if !(up s && paired s) then s
    else if s.tdm.state == .alone then tdmEnter .active { s with tdm.partner := 2 }
    else settleEligible s)

/-- The shadow's part of an epoch boundary (R507, R509): capture by the part that holds authority; one epoch more without a
frame at the other. -/
def shadowBoundary (s : State) : State :=
  let s0 := { s with tdm.shadowAge := s.tdm.shadowAge.map (· + 1) }
  if holds s then
    { s0 with
      tdm.sent := some (captureShadow s)
      tdm.switchSent := s.tdm.switchPending
      tdm.switchPending := false }
  else if shadows s then
    let miss := s.tdm.shadowAge != some 0
    let s1 := { s0 with
      tdm.missing := if miss then s.tdm.missing + 1 else s.tdm.missing
      tdm.eligible := if miss then 0 else s.tdm.eligible }
    if s1.tdm.state == .standby && 3 ≤ s1.tdm.missing then raise evTdmPartnerLost (tdmSync s1) else s1
  else s0

/-! ### Gaining and losing authority (R501 to R505, R511) -/

/-- g(k-1) of a group from the references its stages last received (R511). -/
def takenG (s : State) (gi : Nat) : Int :=
  let t := group s gi
  competitor ((splitOf s (gTarget t.desc)).map fun i => (nth s.chr.sent i).refI).sum 1 (gFullScale t.desc)

/-- The groups at a takeover (R511). -/
def takeGroups (s : State) : State :=
  (List.range 16).foldl (fun s gi =>
    if gSink (group s gi).desc = 1 then
      onGroup gi (fun t => { t with g := takenG s gi, split := splitOf s (gTarget t.desc) }) s
    else s) s

/-- The outbound slots until the groups' first tick: the references last received, no matrix command (R511). -/
def takeRefs (s : State) : State :=
  { s with chr.next := s.chr.sent.zipIdx.map fun (x : Ref × Nat) =>
      { x.1 with
        mtxValid := false
        enable := 0 < x.1.refI
        dir := s.cad.groups.any fun t => t.mode == 1 && t.split.contains x.2 } }

/-- Authority gained from STANDBY (R511, R344, R350). -/
def takeOver (s : State) : State :=
  let f : ShadowFrame := s.tdm.shadow.getD {}
  let s1 := applyShadow f s
  let s2 := takeRefs (takeGroups { s1 with
    chr.stages := s1.chr.stages.map fun t => { t with unclean := 0 }
    stk.chains := s1.stk.chains.map fun h => { h with reading := none }
    spk.period := (f.period + 65536) % 2 ^ 48
    spk.nodes := s1.spk.nodes.filter fun (n : Node) => n.node != ownNode s1
    spk.takeover := true
    spk.silenced := false
    mtr.takeover := 3
    tdm.takeovers := s1.tdm.takeovers + 1
    tdm.lastTakeover := s1.nv.opSeconds
    tdm.partner := 0 })
  let s3 := driveRings (nextGen s2 f.authGen) true s2
  raise evTdmTakeover (record 0x4E01 srcA0 (u16 s3.chr.authGen ++ u64 s3.alc.epoch) (tdmEnter .alone s3))

/-- Authority gained from SYNCING: a cold start, the shadow left behind (R502, R504). -/
def coldStart (s : State) : State :=
  startRings (tdmEnter .alone { s with tdm.partner := 0, tdm.shadow := none, tdm.shadowAge := none, mtr.takeover := 3 })

/-- The part holds authority from now on (R501). -/
def gain (s : State) : State :=
  let s1 := { s with tdm.guardRuns := false, tdm.authI := false, tdm.missing := 0, tdm.sinceNew := 0 }
  if s.tdm.state == .standby then takeOver s1 else if s.tdm.state == .syncing then coldStart s1 else s1

/-- TND_AUTH_O rises, and the 20 us guard runs (R501). -/
def claim (s : State) : State := { s with tdm.authO := true, tdm.guardRuns := true }

/-- The part may claim (R502, R504, R506). -/
def mayClaim (s : State) : Bool :=
  up s && shadows s && !kicked s && !s.tdm.authO && !s.tdm.authI && !s.tdm.heartbeat

/-- AUTHORITY_CLAIM (R501). -/
def execAuthorityClaim (s : State) : Res := .next (if mayClaim s then claim s else s)

/-- CLAIM_GUARD_END (R501): `partnerHigh` is whether TND_AUTH_I was high at any instant of the guard. -/
def execClaimGuardEnd (partnerHigh : Bool) (s : State) : Res :=
  .next (
    if !s.tdm.guardRuns then s
    else if !(partnerHigh || s.tdm.authI) then gain s
    else if s.sys.role = 5 then fence 1 s
    else { s with tdm.guardRuns := false, tdm.authI := true })

/-- BOOT_CLAIM_WAIT_END (R502, R504): both conditions have held for the part's whole wait. -/
def execBootClaimWaitEnd (s : State) : Res :=
  .next (if mayClaim s && s.sys.live && s.tdm.state == .syncing then claim s else s)

/-- AUTHORITY_TIMER_EXPIRY (R503). -/
def execAuthorityTimerExpiry (s : State) : Res := .next (if paired s && holds s then lowerAuth s else s)

/-- SWITCH_OVER_BOUNDARY (R503, R520): the boundary after the shadow frame with SWITCH. -/
def execSwitchOverBoundary (s : State) : Res :=
  .next (if paired s && holds s && s.tdm.switchSent then lowerAuth s else s)

/-- HEARTBEAT_ABSENT (R499). -/
def execHeartbeatAbsent (s : State) : Res :=
  .next (if paired s && s.tdm.heartbeat then raise evTdmPartnerLost { s with tdm.heartbeat := false } else s)

/-- PARTNER_CLAIM_SEEN (R500): the gate closes with TND_AUTH_I high. -/
def execPartnerClaimSeen (s : State) : Res := .next (if paired s then { s with tdm.authI := true } else s)

/-- PARTNER_AUTH_LOST (R501, R504). -/
def execPartnerAuthLost (heartbeat : Bool) (s : State) : Res :=
  .next (
    if !paired s then s
    else
      let s1 := raiseIf (s.tdm.heartbeat && !heartbeat) evTdmPartnerLost
        { s with tdm.authI := false, tdm.heartbeat := heartbeat }
      if s.tdm.authO then (if s.tdm.guardRuns || holds s then s1 else gain s1)
      else if s.tdm.state == .standby && heartbeat then fence 2 s1
      else if s.tdm.state == .standby && mayClaim s1 then claim s1
      else s1)

/-- FENCE_RESOLVED (R505): for 1 s no foreign frame, or the partner's heartbeat present with TND_AUTH_I high. -/
def execFenceResolved (s : State) : Res :=
  .next (
    if !(paired s && s.tdm.state == .fenced) then s
    else raise evTdmFenced (tdmSync (goneKick 0x0603 { s with
      tdm.fenceCause := 0
      tdm.heartbeat := s.tdm.heartbeat || s.tdm.fenceCause != 3
      tdm.authI := s.tdm.authI || s.tdm.fenceCause != 3
      chr.rings := s.chr.rings.map fun r => { r with off := false } })))

/-! ### Peloton (R514 to R518) -/

/-- Changing a member. -/
def onMember (m : Nat) (f : Member → Member) (s : State) : State := { s with plt.members := upd s.plt.members m f }
def member (s : State) (m : Nat) : Member := nth s.plt.members m

/-- The state of a member changes (R518, R520): event, record, and what follows from member 0. -/
def memberChanges (m st : Nat) (s : State) : State :=
  let s1 := raise evPltMember (record 0x4E03 srcA0 (u8 m ++ u8 st) (onMember m (fun x => { x with state := st, good := 0 }) s))
  if m != 0 || s.sys.nodeStrap = 0 then s1
  else if st = 2 then raiseIf (!s1.plt.syncLost) evPltSync { s1 with plt.syncLost := true, plt.gridValid := false }
  else raiseIf s1.plt.syncLost evPltSync { s1 with plt.syncLost := false }

/-- A member whose frames are missing or faulty in three epochs in a row is lost (R518). -/
def settleMember (m : Nat) (s : State) : State :=
  if (member s m).state = 1 && 3 ≤ (member s m).run then memberChanges m 2 s else s

/-! Fields of a peloton frame (table of R514). -/

def pfMember (b : Bytes) : Nat := g8 b 0
def pfFlags (b : Bytes) : Nat := g8 b 1
def pfOut (b : Bytes) : List Int := [gi32 b 6, gi32 b 10, gi32 b 14]
def pfG (b : Bytes) : Int := gi32 b 18
def pfOther (b : Bytes) : Int := gi32 b 22
def pfBuf (b : Bytes) : Int := gi32 b 26
def pfSafety (b : Bytes) : Bytes := slice b 58 36

/-- A frame that came in slot `slot` is good: whole, of that member, its CRC right (R514, R518). -/
def pfGood (slot : Nat) (b : Bytes) : Bool := b.length == 100 && pfMember b == slot && g32 b 96 == crc32c (b.take 96)

/-- What a good frame of member `m` brings (R514, R517, R518). -/
def takeMember (m : Nat) (b : Bytes) (s : State) : State :=
  let old := member s m
  let s1 := onMember m (fun x => { x with
    run := 0, heard := true, good := x.good + 1, kick := bit (pfFlags b) 0, pOut := pfOut b }) s
  let s2 := if old.state = 0 || (old.state = 2 && 2 ≤ old.good) then memberChanges m 1 s1 else s1
  let s3 := if m = 0 && !s2.plt.syncLost then
      { s2 with plt.g := pfG b, plt.pOther := pfOther b, plt.bufSet := pfBuf b, plt.gridValid := bit (pfFlags b) 1 }
    else s2
  receiveCopy 0 (pfSafety b) true s3

/-- PELOTON_FRAME (R514): what comes in the slot of another member; a faulty frame counts as missing at the boundary. -/
def execPelotonFrame (slot : Nat) (frame : Bytes) (s : State) : Res :=
  .next (
    if !(up s && s.sys.role == 6) || 4 ≤ slot || slot = s.sys.nodeStrap then s
    else if pfGood slot frame then takeMember slot frame s
    else onMember slot (fun x => { x with good := 0 }) s)

/-- PELOTON_MEMBER_LOST (R518). -/
def execPelotonMemberLost (m : Nat) (s : State) : Res :=
  .next (if up s && s.sys.role == 6 && m != s.sys.nodeStrap && (member s m).state = 1 then memberChanges m 2 s else s)

/-- PLT_SYNC_LOST (R518). -/
def execPltSyncLost (s : State) : Res :=
  .next (if up s && s.sys.role == 6 && s.sys.nodeStrap != 0 && !s.plt.syncLost then
      raise evPltSync { s with plt.syncLost := true, plt.gridValid := false }
    else s)

/-- The member's own peloton frame (R514). -/
def ownFrame (s : State) : Bytes :=
  let grid (b : Bytes) : Bytes := if s.sys.nodeStrap = 0 then b else List.replicate b.length 0
  let b := u8 s.sys.nodeStrap ++ u8 ((if kicked s then 1 else 0) + (if s.sys.nodeStrap = 0 && !feederStale s then 2 else 0)) ++
    u32 s.alc.epoch ++ ([0, 1, 2] : List Nat).flatMap (fun k => i32 (targetPower s (outletOf s k) / 1000)) ++
    grid (i32 s.alc.g ++ i32 s.alc.pOther ++ i32 s.alc.bufferOut) ++ List.replicate 28 0 ++ slice s.saf.frame 0 36 ++ [0, 0]
  b ++ u32 (crc32c b)

/-- The peloton's part of an epoch boundary (R514, R518). -/
def pelotonBoundary (s : State) : State :=
  if s.sys.role != 6 then s
  else
    let s1 := [0, 1, 2, 3].foldl (fun s m =>
      if m = s.sys.nodeStrap then s
      else if (member s m).heard then onMember m (fun x => { x with heard := false }) s
      else if (member s m).state = 0 then s
      else settleMember m (onMember m (fun x => { x with missed := x.missed + 1, run := x.run + 1, good := 0 }) s)) s
    { s1 with plt.sent := ownFrame s1 }

/-! ### Commands (R519, R520) -/

/-- TDM_GET_STATUS. -/
def execTdmGetStatus (r : Req) (s : State) : Res :=
  command { op := 0x0E01, own := .tandem } r (fun s =>
    let t := s.tdm
    .ok s (u8 t.state.code ++ u8 t.partner ++ u16 s.chr.authGen ++ u32 t.eligible ++
      u32 (match t.shadowAge with | some a => age32 (1000 * a) | none => 0xFFFFFFFF) ++ u32 t.takeovers ++ u8 t.fenceCause ++
      uFlag t.digestMatch ++ u64 t.lastTakeover)) s

/-- TDM_SWITCH_OVER. -/
def execTdmSwitchOver (r : Req) (s : State) : Res :=
  command { op := 0x0E02, own := .tandem, secure := true, states := lcIFS, cred := 1 } r (fun s =>
    checked [(s.tdm.state != .active, stBadArg), (s.tdm.switchPending || s.tdm.switchSent, stBusy)] s fun s =>
      .ok { s with tdm.switchPending := true }) s

/-- The entry of a member: the own one is present. -/
def memberBytes (s : State) (m : Nat) : Bytes :=
  u8 (if m = s.sys.nodeStrap then 1 else (member s m).state) ++ u16 (nth s.cfg.shares m) ++ u32 (member s m).missed

/-- TDM_GET_PELOTON. -/
def execTdmGetPeloton (r : Req) (s : State) : Res :=
  command { op := 0x0E03, own := .peloton } r (fun s =>
    .ok s (u8 s.sys.nodeStrap ++ [0, 1, 2, 3].flatMap (memberBytes s) ++ i32 s.plt.g)) s

end Sys2Proof.Machine
end

