-- ==== Sys2Proof/Machine/Images.lean ====
section
/-!
DEFINITION. Firmware and configuration images (R14, R83 to R85, R474 to R476): which verify, which slot is the inactive one,
and what a boot selects. Readings: log entry 30.
-/
namespace Sys2Proof.Machine

/-- The firmware image on trial is the one running (R106). -/
def trialRunning (s : State) : Bool := s.nv.onTrial && s.sys.trial == 1

/-- The inactive firmware slot: the one that does not run; where the boot ROM serves, the one not preferred (R86, R106). -/
def inactiveFw (s : State) : Nat :=
  if s.sys.phase = .failed then 1 - s.nv.preferred else if s.sys.imageB then 0 else 1

/-- The inactive configuration slot: the one not in service, slot A where none is. -/
def inactiveCfg (s : State) : Nat := if s.sys.configSel = 0 then 1 else 0

/-- Bytes of a firmware or configuration slot (internal address map). -/
def imageSlotSize (target : Nat) : Nat := if target = 0 then 16777216 else 2097152

/-- The signer certificate chains to slot 2 (R474); in SCRAPPED, where R95 has wiped that slot, it is not asked. -/
def signerOk (s : State) (f : FwImage) : Bool :=
  f.signerUsage == 0x40 && (lifecycle s == lcScrapped || (publicOf s 2 != [] && f.signerIssuer == publicOf s 2))

/-- A firmware image verifies (R83, R474). -/
def fwVerifies (s : State) (f : FwImage) : Bool :=
  f.magicOk && signerOk s f && sigOk f.sig f.signer f.headerBytes && f.digestOk && s.nv.fwMin ≤ f.fwCtr && s.nv.legalMin ≤ f.legalCtr

/-- The fields of a configuration header that its signature covers (R476). -/
def cfgSigned (c : ConfigImage) : Bytes :=
  ascii "DCF1" ++ u8 c.role ++ u32 c.generation ++ u32 c.length ++ slice c.digest 0 32

/-- The signature of a configuration image is valid (R476). -/
def cfgSignatureOk (s : State) (c : ConfigImage) : Bool :=
  c.digestOk && (sigOk c.sig (publicOf s 4) (cfgSigned c) ||
    (lifecycle s == lcManufacture && publicOf s 2 != [] && c.issuer == publicOf s 2 && sigOk c.sig c.sig.key (cfgSigned c)))

/-- The configuration slot `i`. -/
def cfgSlot (s : State) (i : Nat) : CfgSlot := nth s.nv.cfg i

/-- A slot holds an image with a valid signature. -/
def cfgSigned1 (s : State) (i : Nat) : Bool := (cfgSlot s i).present && cfgSignatureOk s (cfgSlot s i).image

/-- A slot's image qualifies for service under the strapped role (R85). -/
def cfgQualifies (s : State) (i : Nat) : Bool :=
  cfgSigned1 s i && (cfgSlot s i).image.role == s.sys.roleStrap && (imageVerdict s (cfgSlot s i).image).isNone

/-- A valid strap combination (table of role straps, R12). -/
def strapValid (role node : Nat) : Bool :=
  match role with
  | 1 | 3 | 4 | 5 => node == 0
  | 2 => 1 ≤ node && node ≤ 6
  | 6 => node ≤ 3
  | _ => false

/-- The configuration slot that goes into service: 255 for none (R13, R85). DESIGN CHOICE (log entry 31): of two qualifying images
of equal generation it is the one in slot A. -/
def selectCfg (s : State) : Nat :=
  if !strapValid s.sys.roleStrap s.sys.nodeStrap then 255
  else if cfgQualifies s 0 && cfgQualifies s 1 then
    (if (cfgSlot s 0).image.generation < (cfgSlot s 1).image.generation then 1 else 0)
  else if cfgQualifies s 0 then 0 else if cfgQualifies s 1 then 1 else 255

/-- The Kickstand cause of a boot without a configuration in service (R13, R14). -/
def configCause (s : State) : Option Nat :=
  if !strapValid s.sys.roleStrap s.sys.nodeStrap then some 0x0101
  else if s.sys.configSel != 255 then none
  else
    let named (p : Nat → Bool) : Bool := [0, 1].any fun i => cfgSigned1 s i && p (cfgSlot s i).image.role
    if named (· != s.sys.roleStrap) && !named (· == s.sys.roleStrap) then some 0x0103 else some 0x0102

/-- The record of an image that the boot or an activation refuses (R475): firmware 0 or configuration 1, slot. -/
def imageRefused (kind slot : Nat) (s : State) : State := record 0x3C07 srcBoot (u8 kind ++ u8 slot) s

/-- The records of a configuration image that does not qualify: its signature, its role, or the check of R42 (R14, R475). -/
def noteCfg (s : State) (i : Nat) : State :=
  if !(cfgSlot s i).present then s
  else if !cfgSigned1 s i then imageRefused 1 i s
  else if (cfgSlot s i).image.role != s.sys.roleStrap then record (unstatedCode 1 0) srcBoot (u8 i ++ u8 1) s
  else if (imageVerdict s (cfgSlot s i).image).isSome then record (unstatedCode 1 0) srcBoot (u8 i ++ u8 2) s
  else s

/-- The preferred firmware image after the trial's book-keeping at a boot (R84): a trial image runs for one boot. DESIGN CHOICE
(log entry 31): a boot that a reset ends before IMAGES_VERIFIED has not run the image, and the next boot tries it again. -/
def settleTrial (s : State) : State :=
  if s.nv.onTrial && s.nv.trialRan then
    let p := 1 - s.nv.preferred
    record 0x3102 srcBoot (u8 2 ++ u8 p) { s with
      nv.preferred := p, nv.onTrial := false, nv.trialRan := false, sys.trial := 2 }
  else if s.nv.onTrial then { s with nv.trialRan := true, sys.trial := 1 }
  else { s with sys.trial := 0 }

/-- The firmware image of a slot. -/
def fwSlot (s : State) (i : Nat) : FwImage := (nth s.nv.fw i).image

/-- The part runs firmware image `i` (R80). -/
def runImage (i : Nat) (s : State) : State := { s with sys.imageB := i == 1 }

/-- The firmware selection of a boot (R83, R84): none where both images fail. -/
def selectFw (s : State) : Option State × State :=
  let s1 := settleTrial s
  let p := s1.nv.preferred
  if fwVerifies s1 (fwSlot s1 p) then (some (runImage p s1), s1)
  else
    let s2 := imageRefused 0 p s1
    if fwVerifies s2 (fwSlot s2 (1 - p)) then
      let s3 := record 0x3102 srcBoot (u8 1 ++ u8 (1 - p))
        (runImage (1 - p) { s2 with sys.trial := if s2.sys.trial = 1 then 0 else s2.sys.trial })
      (some s3, s3)
    else (none, imageRefused 0 (1 - p) s2)

end Sys2Proof.Machine
end

