-- ==== Sys2Proof/Machine/System.lean ====
section
/-!
DEFINITION. The System commands (R70, R84, R92 to R101, R105, R106). Readings: log entry 30.
-/
namespace Sys2Proof.Machine

/-- SYS_ECHO_PAYLOAD. -/
def execSysEchoPayload (r : Req) (data : Bytes) (s : State) : Res :=
  command { op := 0x0101, fits := data.length ≤ 4064 } r (fun s => .ok s data) s

/-- SYS_GET_CHANNEL_STATS. -/
def execSysGetChannelStats (r : Req) (channel : Nat) (s : State) : Res :=
  command { op := 0x0104 } r (fun s =>
    checked [(4 ≤ channel, stBadArg)] s fun s => .ok s ((chan s channel).stats.flatMap u32)) s

/-- SYS_GET_BOOT_INFO. -/
def execSysGetBootInfo (r : Req) (s : State) : Res :=
  command { op := 0x0110 } r (fun s =>
    .ok s (u8 s.sys.resetCause ++ u32 s.sys.heldMs ++ uFlag s.sys.heldValid ++ uFlag s.sys.imageB ++ u8 s.sys.configSel ++
      u8 s.sys.trial ++ u32 s.nv.powerCycles)) s

/-- SYS_RESET_PART: the reset is due 10 ms after the response. -/
def execSysResetPart (r : Req) (s : State) : Res :=
  command { op := 0x0111, secure := true, cred := 3 } r (fun s => .ok { s with sys.resetDue := true }) s

/-! ### Kickstand (R99 to R102) -/

/-- The list of SYS_GET_KICKSTAND: 61 bytes, all 0 outside Kickstand. -/
def kickList (s : State) : Bytes :=
  let l := s.sys.kicks.take 24
  u8 l.length ++ slice (l.flatMap fun c => u16 c.code) 0 48 ++ u32 (maskOf (indexes l (·.gone))) ++
    u64 (if kicked s then s.sys.kickSecond else 0)

/-- SYS_ENTER_KICKSTAND. -/
def execSysEnterKickstand (r : Req) (s : State) : Res :=
  command { op := 0x0112 } r (fun s => .ok (enterKick 0x0601 s)) s

/-- SYS_GET_KICKSTAND. -/
def execSysGetKickstand (r : Req) (s : State) : Res :=
  command { op := 0x0113 } r (fun s => .ok s (kickList s)) s

/-- Leaving Kickstand: nothing is energised; the eligibility count of a pair restarts (R101, R506). -/
def leaveKick (s : State) : State :=
  record 0x4104 srcHousekeeping [] (raise evSysReleased { s with
    nv.causes := s.nv.causes.filter fun c => !(s.sys.kicks.any fun k => k.code == c)
    sys.kicks := []
    sys.kickSecond := 0
    tdm.eligible := 0 })

/-- SYS_RELEASE_KICKSTAND (R101, R102). -/
def execSysReleaseKickstand (r : Req) (s : State) : Res :=
  command { op := 0x0114, secure := true, states := lcMPIFS, cred := 3 } r (fun s =>
    if !kicked s then .ok s
    else if s.sys.kicks.any (!·.gone) then ⟨s, stKickstand, kickList s⟩
    else if s.sys.kicks.any fun c => kickSafety c.code && !c.resetGiven then ⟨s, stSafetyLocked, kickList s⟩
    else .ok (leaveKick s)) s

/-! ### Life-cycle (R91 to R94) -/

/-- SYS_GET_LIFECYCLE: a fresh nonce; the one before lapses. -/
def execSysGetLifecycle (r : Req) (s : State) : Res :=
  command { op := 0x0115 } r (fun s =>
    let n := fresh s 32
    .ok (drawn { s with sys.lcNonce := some n }) (u8 (lifecycle s) ++ n)) s

/-- The authorities of a transition (R92): whether the owner may, whether Alrelet may; none where it is not possible. -/
def transition (source target : Nat) : Option (Bool × Bool) :=
  match source, target with
  | 1, 2 => some (false, true)
  | 2, 3 => some (false, true)
  | 3, 4 => some (true, false)
  | 4, 5 => some (true, false)
  | 5, 4 => some (true, false)
  | 2, 6 => some (false, true)
  | 3, 6 | 4, 6 | 5, 6 => some (true, true)
  | 1, 7 | 2, 7 => some (false, true)
  | 3, 7 | 4, 7 | 5, 7 | 6, 7 => some (true, true)
  | _, _ => none

/-- The bytes that a transition token signs (R93). -/
def tokenSigned (t : Token) : Bytes := u8 t.target ++ t.identity ++ t.nonce ++ t.ownerKey

/-- The authority under which a token is good for a transition to `target`: 1 owner, 3 Alrelet; none for a bad token
(R92, R93). DESIGN CHOICE (log entry 31): of the two Alrelet keys it is the credential key of slot 3, not the root of slot 2,
that verifies a token of Alrelet. -/
def tokenAuthority (s : State) (target : Nat) (t : Token) : Option Nat :=
  match transition (lifecycle s) target, s.sys.lcNonce with
  | some a, some n =>
    if t.target != target || t.identity != identity s || t.nonce != n then none
    else if lifecycle s = lcProvisioned && target = lcIntegration && t.ownerKey = [] then none
    else if a.1 && sigOk t.sig (publicOf s 4) (tokenSigned t) then some 1
    else if a.2 && sigOk t.sig (publicOf s 3) (tokenSigned t) then some 3
    else none
  | _, _ => none

/-- A slot holds a valid key. -/
def slotValid (s : State) (n : Nat) : Bool := match winner s n with | some k => k.state == 1 | none => false

/-- The preconditions of a transition but for the acknowledged safety set (R92). -/
def preconditions (s : State) (target : Nat) : Bool :=
  if lifecycle s = lcManufacture && target = lcProvisioned then slotValid s 0 && slotValid s 1
  else if target = lcField then s.sys.configSel != 255 && s.nvMtr.isSealed
  else true

/-- A life-cycle transition that did not commit is recorded as not completed (R94). -/
def noteOpenTransition (s : State) : State :=
  match s.nv.lcOpen with
  | some (a, b, c) => record 0x3101 srcBoot (u8 a ++ u8 b ++ u8 c ++ u8 0) { s with nv.lcOpen := none }
  | none => s

/-- The command record of SYS_SET_LIFECYCLE. -/
def lifecycleCmd : Cmd := { op := 0x0116, secure := true, states := 0x7E, cred := 2 }

/-- SYS_SET_LIFECYCLE (R92, R93): the checks in the order of R64. -/
def execSysSetLifecycle (r : Req) (target : Nat) (token : Token) (s : State) : Res :=
  command lifecycleCmd r (fun s =>
    let possible := (transition (lifecycle s) target).isSome
    let a := tokenAuthority s target token
    checked [(possible && !preconditions s target, stDeniedLifecycle), (possible && a.isNone, stDeniedCredential),
        (possible && target == lcField && !safeRunning s, stSafetyLocked), (!possible, stBadArg)] s fun s =>
      let s1 := drawn { s with
        sys.lcNonce := none
        sys.lcPending := some
          { target := target, authority := a.getD 0, ownerKey := token.ownerKey, ch := r.ch, tag := r.tag }
        nv.lcOpen := some (lifecycle s, target, a.getD 0) }
      accept lifecycleCmd r (1 + Config.freshNat s.free 4294967295 % 4294967295) .lifecycle s1) s

/-! ### Images (R84, R106) -/

/-- An activation of a target is running, on some channel or on after the reset of its channel (R55). -/
def activating (s : State) (target : Nat) : Bool :=
  (s.mbx.channels.any fun c => c.running.any fun w => w.work == .activate target) || s.mbx.orphans.any fun w => w.work == .activate target

/-- Bytes into the inactive slot of a target, whose header is then read anew. -/
def writeImage (target offset : Nat) (data : Bytes) (s : State) : State :=
  if target = 0 then
    { s with nv.fw := upd s.nv.fw (inactiveFw s) fun x =>
        let raw := memWrites x.raw offset data
        { raw := raw, image := Config.parseFirmware raw } }
  else
    { s with nv.cfg := upd s.nv.cfg (inactiveCfg s) fun x =>
        let raw := memWrites x.raw offset data
        { raw := raw, image := Config.parseConfig raw, present := true } }

/-- SYS_WRITE_IMAGE. -/
def execSysWriteImage (r : Req) (target offset : Nat) (data : Bytes) (s : State) : Res :=
  command { op := 0x0117, secure := true, states := lcMPIFS, cred := 3, fits := data.length ≤ 4000 } r (fun s =>
    checked [(1 < target || imageSlotSize target < offset + data.length, stBadArg),
        ((target == 0 && trialRunning s) || activating s target, stBusy)] s fun s =>
      .ok (writeImage target offset data s)) s

/-- The command record of SYS_ACTIVATE_IMAGE. -/
def activateCmd : Cmd := { op := 0x0118, secure := true, states := lcMPIFS, cred := 3 }

/-- SYS_ACTIVATE_IMAGE: accepted; the image is verified by its completion. -/
def execSysActivateImage (r : Req) (target : Nat) (s : State) : Res :=
  command activateCmd r (fun s =>
    checked [(1 < target, stBadArg), ((target == 0 && trialRunning s) || activating s target, stBusy)] s fun s =>
      accept activateCmd r (1 + Config.freshNat s.free 4294967295 % 4294967295) (.activate target) (drawn s)) s

/-- The verification of an activation, and its effect: the status of the final response (R84, R106). DESIGN CHOICE (log entry
31): a slot that is activated, overwritten and fails its second activation stays marked preferred; the boot then refuses it. -/
def activate (target : Nat) (s : State) : State × Nat :=
  if target = 0 then
    let i := inactiveFw s
    if fwVerifies s (fwSlot s i) then ({ s with nv.preferred := i, nv.onTrial := true, nv.trialRan := false }, stOk)
    else (imageRefused 0 i s, stBadArg)
  else
    let i := inactiveCfg s
    if !cfgSigned1 s i then (imageRefused 1 i s, stBadArg)
    else match imageVerdict s (cfgSlot s i).image with
      | some st => (s, st)
      | none => (s, stOk)

/-- One monotonic counter raised to an image's value, recorded (R475). -/
def raiseMin (which new : Nat) (s : State) : State :=
  let old := if which = 0 then s.nv.fwMin else s.nv.legalMin
  if old < new then
    let s1 := if which = 0 then { s with nv.fwMin := new } else { s with nv.legalMin := new }
    record 0x3C08 srcKey (u8 which ++ u32 old ++ u32 new) s1
  else s

/-- SYS_CONFIRM_IMAGE (R84, R106, R475). -/
def execSysConfirmImage (r : Req) (s : State) : Res :=
  command { op := 0x0119, secure := true, states := lcMPIFS, cred := 3 } r (fun s =>
    checked [(!trialRunning s, stBadArg)] s fun s =>
      let f := fwInUse s
      let s1 := { s with nv.onTrial := false, nv.trialRan := false, sys.trial := 0 }
      .ok (raiseMin 1 f.legalCtr (raiseMin 0 f.fwCtr s1))) s

end Sys2Proof.Machine
end

