-- ==== Sys2Proof/Machine/Boot.lean ====
section
/-!
DEFINITION. Resets and the boot (R74 to R96, R271): the reset rows, the release of a reset, the wipe, the images, the
self-test, and the life-cycle transition. Readings: log entry 30.
-/
namespace Sys2Proof.Machine

/-! ### Resets (R77, R79) -/

/-- RESET_N_ASSERT. -/
def execResetNAssert (s : State) : Res := .next (resetPart 0x02 { s with env.resetN := false })

/-- CORE_UNDERVOLTAGE_RESET: the internal reset of R74 holds until the rail is back. -/
def execCoreUndervoltageReset (s : State) : Res := .next (resetPart 0x03 { s with env.rails := false })

/-- RAIL_FAULT_RESET: rail 0 VDD_SAFE, 1 VDDIO, 2 VAFE; VDD_SAFE leaves its Kickstand cause to the boot that follows (R358). -/
def execRailFaultReset (rail : Nat) (s : State) : Res :=
  let s := { s with env.rails := false, env.vddio := s.env.vddio && rail != 1 }
  .next (resetPart 0x04 (if rail = 0 && !s.nv.causes.contains 0x0304 then { s with nv.causes := s.nv.causes ++ [0x0304] } else s))

/-- HOUSEKEEPING_WATCHDOG_RESET. -/
def execHousekeepingWatchdogReset (s : State) : Res := .next (resetPart 0x05 s)

/-- COMMAND_RESET: 10 ms after the response of SYS_RESET_PART. -/
def execCommandReset (s : State) : Res := .next (if s.sys.resetDue then resetPart 0x06 s else s)

/-! ### The boot origin (R80) -/

/-- The boot origin, the later of the release of RESET_N and the end of the internal reset: straps sampled, a changed strap value
recorded (R11, R15), the power cycle counted, the held time latched, the wipe begun. -/
def bootOrigin (role node heldMs : Nat) (s : State) : State :=
  let strap := role % 8 + 8 * (node % 8)
  let s1 := { s with
    sys.phase := .wipe
    sys.roleStrap := role % 8
    sys.nodeStrap := node % 8
    sys.heldMs := min heldMs 4294967295
    sys.heldValid := s.env.vbat
    env.heldMs := none
    nv.powerCycles := (s.nv.powerCycles + 1) % 2 ^ 32
    nv.strapLast := some strap }
  match s.nv.strapLast with
  | some old => recordIf (old != strap) 0x4102 srcBoot (u8 old ++ u8 strap) s1
  | none => s1

/-- RESET_N_RELEASE: RESET_N rises. While the internal reset of R74 holds, the part stays in reset with the held time measured. -/
def execResetNRelease (role node heldMs : Nat) (s : State) : Res :=
  .next (
    if s.env.resetN then s
    else if s.sys.phase = .held && s.env.rails then bootOrigin role node heldMs { s with env.resetN := true }
    else { s with env.resetN := true, env.heldMs := some (min heldMs 4294967295) })

/-- A boot whose held time is the one measured, or a free value where no row gave one. -/
def bootHeld (role node : Nat) (s : State) : State :=
  match s.env.heldMs with
  | some h => bootOrigin role node h s
  | none => drawn (bootOrigin role node (Config.freshNat s.free 4294967296) s)

/-- POWER_ON_RESET_RELEASE: the conditions of R74 are met, with the I/O mode of R529; `cold` is whether the supplies come up from
none, which is a power-on whatever reset went before (R79). While RESET_N is low the part stays in reset. -/
def execPowerOnResetRelease (role node vddioMv : Nat) (cold : Bool) (s : State) : Res :=
  .next (
    if s.sys.phase = .held then
      let s1 := { s with
        env.rails := true, env.vddio := true, sys.io33 := decide (2500 ≤ vddioMv)
        sys.resetCause := if cold then 1 else s.sys.resetCause }
      if s.env.resetN then bootHeld role node s1 else s1
    else s)

/-- SHUTDOWN_HOLD_END: the third reading with every die sensor below 100 degC (R271); RESET_N low, or a rail out of range, holds
the part on. -/
def execShutdownHoldEnd (role node : Nat) (s : State) : Res :=
  .next (
    if s.sys.phase = .heatHold && 3 ≤ s.nvHeat.coolRun then
      if s.env.resetN && s.env.rails then bootHeld role node s else { s with sys.phase := .held }
    else s)

/-! ### Wipe and images (R47, R81, R83 to R86) -/

/-- IDREV of the first silicon release with the interface revision of the firmware in service (table of IDREV fields). -/
def idrevOf (ifMajor ifMinor : Nat) : Nat :=
  0xA1E * 2 ^ 52 + 0xD240 * 2 ^ 36 + 1 * 2 ^ 32 + 0 * 2 ^ 28 + 1 * 2 ^ 24 + ifMajor % 256 * 2 ^ 16 + ifMinor % 256 * 2 ^ 8

/-- The boot ROM serves channel 0 (R86). -/
def bootFailed (s : State) : State :=
  raise evSysLive { s with sys.phase := .failed, sys.live := true, sys.idrev := idrevOf 0 0 }

/-- WIPE_COMPLETE (R81): a word that is not zero fails the boot. -/
def execWipeComplete (zero : Bool) (s : State) : Res :=
  .next (
    if s.sys.phase != .wipe then s
    else if zero then { s with sys.phase := .verify }
    else bootFailed s)

/-- A torn record in the commit area is cleared (R488). -/
def discardTorn (s : State) : State :=
  if s.nvRec.torn then record 0x4D05 srcBoot (u64 s.nvRec.nextSeq) { s with nvRec.torn := false } else s

/-- The configuration image in service, with the role it gives and the channel bindings (R17, R56, R85). -/
def placeConfig (s : State) : State :=
  let sel := selectCfg s
  if sel = 255 then { s with sys.configSel := 255, sys.role := 0 }
  else
    let c := (cfgSlot s sel).image
    { s with
      sys.configSel := sel
      sys.role := s.sys.roleStrap
      cfg := c
      mbx.channels := s.mbx.channels.zipIdx.map fun (x : Channel × Nat) => { x.1 with binding := nth c.binding x.2 } }

/-- The session of an outlet that MRAM shows as open: closed as interrupted, its weld check deferred (R90, R232, R242). -/
def interrupt (s : State) (slot : Nat) : State :=
  if (nth s.mtr.sessions slot).any fun o => o.cut.isSome then
    { interruptedSession slot s with
      ses := upd s.ses slot fun x => { x with endFirst := 0x11, endCode := 0x11, post1 := { outcome := 4 } }
      nvOut.unchecked := s.nvOut.unchecked.set slot true }
  else s

/-- The sessions left open closed as interrupted, at the end of the self-test (R80, R90); a session record that finds no place
takes the part into Kickstand again (R99, R294). -/
def interruptAll (s : State) : State :=
  let t := [0, 1, 2].foldl interrupt s
  let t := if s.mtr.sessions == t.mtr.sessions then t else meterCommit 2 t
  if t.mtr.waiting.isEmpty then t else enterKick 0x0206 t

/-- The loss of the RTC crystal while the part was in reset, which no record shows yet (R34). -/
def noteCrystal (s : State) : State :=
  if s.sys.rtcLost && !s.sys.rtcNoted then record 0x4106 srcHousekeeping (u8 1) { s with sys.rtcNoted := true } else s

/-- The records of a boot: the reset, then what the boot firmware held goes to the queue (R79, R489). -/
def bootRecords (s : State) : State :=
  startRecorder (noteCrystal (record 0x4101 srcBoot
    (u8 s.sys.resetCause ++ u32 s.sys.heldMs ++ uFlag s.sys.heldValid ++ uFlag s.sys.imageB ++ u8 s.sys.trial) s))

/-- The end of image verification with a firmware image selected. -/
def imagesSelected (s : State) : State :=
  let s1 := if strapValid s.sys.roleStrap s.sys.nodeStrap then [0, 1].foldl noteCfg s else s
  let s2 := placeConfig s1
  startMeter { bootRecords s2 with sys.phase := .selfTest }

/-- IMAGES_VERIFIED (R83 to R86, R462, R488). -/
def execImagesVerified (s : State) : Res :=
  .next (
    if s.sys.phase != .verify then s
    else
      let s1 := noteOpenTransition (discardTorn (wipeKeys (resolveSlots s)))
      match selectFw s1 with
      | (some s2, _) => imagesSelected s2
      | (none, s2) => bootFailed s2)

/-! ### Self-test (R80, R82, R89, R100) -/

/-- Entering Kickstand at a boot on a condition. -/
def kickIf (c : Bool) (cause : Nat) (s : State) : State := if c then enterKick cause s else s

/-- A post's power-fail notice on both paths (R349). -/
def sendNotice (s : State) : State :=
  if s.sys.role = 2 then sendEth 0x15 (upstream s) (u16 macNotice) (queueFrame (upstream s) 3 macNotice [] s) else s

/-- Causes decided by the self-test and by what MRAM and the supplies show (R13, R14, R82, R89, R100, R273, R410). -/
def bootCauses (t : SelfTest) (s : State) : State :=
  let s1 := s.nv.causes.foldl (fun s c => enterKick c s) s
  let s2 := match configCause s1 with | some c => enterKick c s1 | none => s1
  let failed := !(t.crossCompare && t.loadWatchdog && t.darkTests && t.knownAnswer && t.microcode && t.lifecycleTags)
  let s3 := kickIf (!t.metrology) 0x0204 (kickIf failed 0x0203 (kickIf (thermalKick s2) 0x0401 s2))
  let s4 := kickIf (safeAwaiting s3) 0x0303 (kickIf (safeHeld s3).isNone 0x0305 s3)
  let s5 := if safeRunning s4 then goneKick 0x0303 s4 else s4
  let s6 := kickIf (lifecycle s5 == lcReturned || lifecycle s5 == lcScrapped) 0x0701 s5
  if s6.sys.pfwLow || s6.sys.pfwFell then
    let s7 := sendNotice (enterKick 0x0501 s6)
    if s7.sys.pfwLow then s7 else goneKick 0x0501 s7
  else s6

/-- The functions of the role put in service (R18): hub functions, stack, load channels, Spoke-line, pair. The outlets of posts come
into allocation when their post joins (R347). -/
def startRole (s : State) : State :=
  let s1 := if s.sys.role = 0 then s
    else if [1, 3, 6].contains s.sys.role then startRings s
    else placeHub s
  startStack { s1 with
    tdm.state := if paired s1 then .syncing else .none
    spk.period := s1.nvHub.period
    grantAge := if s1.sys.role = 2 then some 0 else none
    alc.out := s1.alc.out.zipIdx.map fun (x : OutletIn × Nat) => { x.1 with lost := outPost (outCfg s1 (x.2 + 1)) != 0 }
    ldc.chans := s1.ldc.chans.zipIdx.map fun (x : Load × Nat) => { x.1 with left := ldRetryMax (loadCfg s1 x.2) } }

/-- The mailbox goes live (R48, R73, R80, R94). -/
def goLive (s : State) : State :=
  let f := fwInUse s
  raiseIf s.nv.lcEvent evSysLifecycle (raise evSysLive { s with
    sys.idrev := idrevOf f.ifMajor f.ifMinor, sys.live := true, nv.lcEvent := false })

/-- SELF_TEST_COMPLETE. -/
def execSelfTestComplete (result : SelfTest) (s : State) : Res :=
  .next (
    if s.sys.phase != .selfTest then s
    else goLive (bootCauses result (startRole (startHeat { interruptAll (wipeKeys s) with sys.phase := .running }))))

/-! ### Life-cycle transition (R94, R95) -/

/-- The new life-cycle word, into the copy that is not valid or has the lower generation (R94). -/
def putLifecycle (target : Nat) (l : List LcCopy) : List LcCopy :=
  let w := lcWinner l
  let c : LcCopy := { state := target, generation := w.generation + 1 }
  match l with
  | [a, b] => if !lcGood a then [c, b] else if !lcGood b then [a, c] else if b.generation > a.generation then [c, b] else [a, c]
  | _ => l

/-- The owner key as the transition to INTEGRATION installs it in slot 4 (R92; attributes of the table of slot ranges). -/
def installOwner (key : Bytes) (s : State) : State :=
  installKey 4 { state := 1, alg := 0x20, usage := 0x06, masters := 0x80, lifecycles := 0x78, material := key } s

/-- LIFECYCLE_TRANSITION: recorded, Kickstand, meters committed, the word written, slots wiped, reset (R94, R95). -/
def execLifecycleTransition (s : State) : Res :=
  .next (
    match s.sys.lcPending with
    | none => s
    | some p =>
      let from_ := lifecycle s
      let s1 := commitDraft (draft 0x3101 srcA0 (u8 from_ ++ u8 p.target ++ u8 p.authority ++ u8 1) s) s
      let s2 := meterCommit 3 (enterKick 0x0601 s1)
      let s3 := if from_ = lcProvisioned && p.target = lcIntegration then installOwner p.ownerKey s2 else s2
      let s4 := { s3 with nv.lc := putLifecycle p.target s3.nv.lc, nv.lcOpen := none, nv.lcEvent := true }
      resetPart 0x08 (wipeKeys s4))

end Sys2Proof.Machine
end

