-- ==== Sys2Proof/Machine/Supply.lean ====
section
/-!
DEFINITION. Power-fail warning, Kickstand causes that go, supplies, clocks and memory faults (R33 to R41, R75, R87, R89, R99).
Readings: log entry 30.
-/
namespace Sys2Proof.Machine

/-- The part is out of reset. -/
def outOfReset (s : State) : Bool := s.sys.phase != .held && s.sys.phase != .heatHold

/-! ### Power-fail warning (R87, R89) -/

/-- The commits of R87, in its order: meter registers, recorder, power-fail record (operating second, commits completed). -/
def powerFailCommits (s : State) : State :=
  let s1 := meterCommit 1 s
  let meter := s.mtr.running && (mtrWinner s.nvMtr.copies).isSome
  flushRecords (draft 0x4109 srcHousekeeping (u64 s1.nv.opSeconds ++ u8 (if meter then 3 else 2)) s1) s1

/-- PFW_N_ASSERT: in operation as R87 says; during a boot it is noted (R89). -/
def execPfwNAssert (s : State) : Res :=
  .next (
    let s1 := { s with sys.pfwLow := true }
    if up s then powerFailCommits (sendNotice (enterKick 0x0501 s1))
    else { s1 with sys.pfwFell := s.sys.pfwFell || outOfReset s })

/-- PFW_CAUSE_GONE: PFW_N has been high for 100 ms. -/
def execPfwCauseGone (s : State) : Res := .next (goneKick 0x0501 { s with sys.pfwLow := false })

/-! ### Causes that go (table of Kickstand causes) -/

/-- The condition of a cause has cleared, as far as the state shows it: the reference clock and VDD_SAFE are known to the
step alone; causes that have a step of their own, or never go, stay. -/
def causeCleared (s : State) (cause : Nat) : Bool :=
  match cause with
  | 0x0201 | 0x0304 => true
  | 0x0205 => !(List.range 36).any fun c => outletInput s c && (mchan s c).faulted
  | 0x0206 => s.mtr.waiting.isEmpty && ringUsed s < ringPlaces
  | 0x0301 => 4000 ≤ s.saf.compareOk
  | 0x0302 => 4000 ≤ s.saf.pairsOk && s.saf.pairs.all (fun p => p.fault == 0) && !s.ldc.tripped
  | 0x0303 => safeRunning s
  | 0x0305 => (safeHeld s).isSome
  | _ => false

/-- KICKSTAND_CAUSE_GONE. -/
def execKickstandCauseGone (cause : Nat) (s : State) : Res :=
  .next (
    if hasKick s cause && causeCleared s cause then
      let s1 := goneKick cause s
      if cause = 0x0301 then { s1 with saf.feedStop := false } else s1
    else s)

/-! ### Supplies and clocks (R33, R34, R36, R527) -/

/-- SUPPLY_BELOW_GUARANTEED: the 1 ms monitor of VDD_CORE; one record per excursion (R36). -/
def execSupplyBelowGuaranteed (below : Bool) (s : State) : Res :=
  .next (
    if !outOfReset s then s
    else if below && !s.sys.belowSupply then
      record 0x4105 srcHousekeeping [] (raise evSysSupply { s with sys.belowSupply := true })
    else { s with sys.belowSupply := below })

/-- REFERENCE_CLOCK_FAULT (R33): Kickstand 0x0201, in which the safe outputs and load channels are off, whatever the part is
doing out of reset. -/
def execReferenceClockFault (s : State) : Res :=
  .next (if outOfReset s then enterKick 0x0201 (record 0x4106 srcHousekeeping (u8 0) s) else s)

/-- RTC_CRYSTAL_LOST (R34): recorded once, in reset by the boot that follows; the wall time is of low quality from now on. -/
def execRtcCrystalLost (s : State) : Res :=
  .next (
    if s.sys.rtcLost then s
    else
      let s1 := { s with sys.rtcLost := true }
      if outOfReset s then wallQuality false (record 0x4106 srcHousekeeping (u8 1) { s1 with sys.rtcNoted := true })
      else { s1 with env.wallGood := false })

/-- VBAT_ABSENT (R75, R298, R527): the wall time is of low quality, and a hold that runs has no known length. -/
def execVbatAbsent (s : State) : Res :=
  .next (
    let s1 := { s with env.vbat := false }
    if outOfReset s then wallQuality false s1 else { s1 with env.wallGood := false })

/-! ### Firewall and memories (R39 to R41, R483) -/

/-- Restarting an engine, by its number in the order of the engine table: A0 to A3, S0, S1, M, Cadence, SL, CP, key,
housekeeping. -/
def restartEngine (engine : Nat) (s : State) : State :=
  { s with sys.restarts := upd s.sys.restarts engine fun n => n + 1 }

/-- The SRAM range of an engine (internal address map). -/
def ownSram (engine address : Nat) : Bool :=
  match engine with
  | 4 => 0x600000 ≤ address && address < 0x680000
  | 5 => 0x680000 ≤ address && address < 0x700000
  | 6 => 0x700000 ≤ address && address < 0x780000
  | 7 => 0x400000 ≤ address && address < 0x500000
  | 8 | 9 => 0x500000 ≤ address && address < 0x600000
  | 10 => 0x780000 ≤ address && address < 0x7C0000
  | 11 => 0x7C0000 ≤ address && address < 0x800000
  | _ => address < 0x400000

/-- The MRAM ranges of which R39 names the engines: the key slots, the meter registers, the sealed parameters, the safety set. -/
def keyRange (a : Nat) : Bool := 0x10000000 ≤ a && a < 0x10200000
def meterRange (a : Nat) : Bool := (0x10210000 ≤ a && a < 0x10250000) || (0x102D0000 ≤ a && a < 0x102E0000)
def safetyRange (a : Nat) : Bool := 0x102E0000 ≤ a && a < 0x102F0000

/-- An address at which there is memory (internal address map). -/
def mapped (a : Nat) : Bool := a < 0x800000 || (0x10000000 ≤ a && a < 0x10400000) || (0x20000000 ≤ a && a < 0x24000000)

/-- The firewall refuses an access of an engine (R39). Which other MRAM and NOR ranges the work of an engine needs is not stated:
that part of the answer is free. -/
def firewallRefuses (engine address : Nat) (write : Bool) : Bool :=
  if !mapped address then true
  else if address < 0x800000 then !ownSram engine address
  else if keyRange address then engine != 10
  else if write && meterRange address then engine != 6
  else if write && safetyRange address then engine != 4 && engine != 5
  else Config.firewallRefuses engine address write

/-- FIREWALL_VIOLATION (R39): an access outside the permissions is refused and recorded, and the engine restarted; a safety core
or the metrology core takes the part into Kickstand. A permitted access is none. -/
def execFirewallViolation (engine address : Nat) (write : Bool) (s : State) : Res :=
  .next (
    if !outOfReset s || !firewallRefuses engine address write then s
    else
      let s1 := restartEngine engine { s with sys.refusals := s.sys.refusals + 1 }
      let s2 := record 0x3103 srcHousekeeping (u8 engine ++ u32 address) (raise evSysFirewall s1)
      if 4 ≤ engine && engine ≤ 6 then enterKick 0x0202 s2 else s2)

/-- SRAM_UNCORRECTABLE_ERROR (R40): the owning engine is restarted as in R39, with Kickstand where it is a safety core or the
metrology core. -/
def execSramUncorrectableError (engine : Nat) (s : State) : Res :=
  .next (
    if !outOfReset s then s
    else
      let s1 := record 0x4107 srcHousekeeping (u8 0 ++ u8 engine) (raise evSysMemory (restartEngine engine s))
      if 4 ≤ engine && engine ≤ 6 then enterKick 0x0202 s1 else s1)

/-- Sectors of 64 KiB of the recorder area, by number from the start of NOR (internal address map), and how many of them
no partition uses (R483). -/
def recorderSector (sector : Nat) : Bool := 592 ≤ sector && sector < 720
abbrev spareSectors : Nat := 128 - 35

/-- Recorder sectors that have been replaced. -/
def replacedSectors (s : State) : Nat := (s.nv.badSectors.filter recorderSector).length

/-- A sector of which both copies failed (R41); one of the recorder area is replaced (R483). -/
def sectorBad (sector : Nat) (s : State) : State :=
  let s1 := record 0x4107 srcHousekeeping (u8 1 ++ u32 sector)
    (raise evSysMemory { s with nv.badSectors := s.nv.badSectors ++ [sector] })
  if recorderSector sector && replacedSectors s < spareSectors then
    raise evRecStorage (record 0x4D05 srcHousekeeping (u64 sector) s1)
  else s1

/-- NOR_READ_ERROR (R41): served from the other die and the sector rewritten from it, or the sector is bad. The two dies hold the
same bytes after every completed write, which the state therefore holds once (log entry 32). -/
def execNorReadError (sector : Nat) (bothBad : Bool) (s : State) : Res :=
  .next (
    if !outOfReset s then s
    else if !bothBad then { s with sys.norRewritten := s.sys.norRewritten ++ [sector] }
    else if s.nv.badSectors.contains sector then s
    else sectorBad sector s)

/-- A read of every programmed NOR sector is due: the last is 7 days old (R41). -/
def scrubDue (s : State) : Bool :=
  match s.sys.norScrubbed with
  | some t => t + 604800 ≤ s.nv.opSeconds
  | none => true

/-- NOR_SCRUB (R41): every programmed sector is read; `corrected` lists sectors with the greatest corrected-bit count of 512 bytes
found in them, and 4 asks for a rewrite. -/
def execNorScrub (corrected : List (Nat × Nat)) (s : State) : Res :=
  .next (
    if !outOfReset s then s
    else { s with
      sys.norScrubbed := some s.nv.opSeconds
      sys.norRewritten := s.sys.norRewritten ++ (corrected.filter fun (x : Nat × Nat) => 4 ≤ x.2).map (·.1) })

end Sys2Proof.Machine
end

