-- ==== Sys2Proof/Machine/Epoch.lean ====
section
/-!
DEFINITION. The steps of the part's own time that act on several functions at once: the epoch boundary of 1 ms (R107), the
metering sample of 125 us (R279), and the operating second (R485). The order of work within a boundary: log entry 30.
-/
namespace Sys2Proof.Machine

/-! ### The epoch boundary -/

/-- Requests of a switch-over that was announced: authority passes at this boundary (R503, R520). -/
def passAuthority (s : State) : State :=
  if s.tdm.switchSent then lowerAuth { s with tdm.switchSent := false } else s

/-- Posts that have joined again are admitted from this epoch on (R347). -/
def readmit (s : State) : State :=
  { s with alc.out := s.alc.out.map fun o => if o.joined then { o with lost := false, joined := false } else o }

/-- The grants of the epoch to the part's own outlets, and by ETH0 to those of other parts (R224, R332, R351). -/
def sendGrants (s : State) : State :=
  let s1 := (outlets s).foldl (fun s n => receiveGrant (grantBytes s n) s) s
  if (remoteOutlets s1).isEmpty then s1 else sendGrantsEth s1

/-- The requests and thermal ceilings of the part's own outlets, which are never stale through transport (R110). -/
def latchLocal (s : State) : State :=
  ([0, 1, 2] : List Nat).foldl (fun s k => if localSlot s k then deliverRequest (outletRequest s k) s else s) s

/-- The matrix operations of a peloton member, which has no switching windows, are commanded at the boundary (R517). -/
def memberMatrix (s : State) : State := if s.sys.role = 6 then windowMatrix s else s

/-- The Derailleur's boundary on a part that allocates. -/
def hubBoundary (written : Bool) (s : State) : State :=
  if allocates s && working s then sendGrants (readmit (memberMatrix (deraillBoundary written (latchLocal s)))) else s

/-- Everything that happens at an epoch boundary. -/
def boundary (written : Bool) (s : State) : State :=
  let s1 := passAuthority s
  let s2 := { s1 with alc.epoch := (s1.alc.epoch + 1) % 2 ^ 64, spk.eth := [] }
  let s3 := applyCommits (ceilings (deliverMeter s2))
  pelotonBoundary (shadowBoundary (recorderEpoch (hubBoundary written s3)))

/-- EPOCH_BOUNDARY: `written` is whether the Derailleur's outputs were written in time (R107, R109). -/
def execEpochBoundary (written : Bool) (s : State) : Res := .next (if up s then boundary written s else s)

/-! ### The metering sample -/

/-- The run of samples with the outlet current at most I_OPEN (R238). -/
def countLow (slot : Nat) (s : State) : State :=
  onSes slot (fun x => { x with lowRun := if outletAmps s slot ≤ 100 * seIOpen (sesCfg s slot) then x.lowRun + 1 else 0 }) s

/-- METERING_SAMPLE: the bits that each of the 40 channels latched in the sample window (R278 to R280). -/
def execMeteringSample (bits : List (List Bool)) (s : State) : Res :=
  .next (if s.mtr.running then
    [1, 2, 3, 4].foldl integrateString ([0, 1, 2].foldl (fun s k => countLow k s) (meterSample bits s))
  else s)

/-! ### The operating second -/

/-- One second of wall time, with one millisecond of a slew (R298). -/
def tickWall (s : State) : State :=
  let d : Int := if 0 < s.mtr.slew then 1 else if s.mtr.slew < 0 then -1 else 0
  let ms : Int := 1000 * s.env.wall + s.env.wallMs + 1000 + d
  { s with env.wall := ms / 1000, env.wallMs := (ms % 1000).toNat, mtr.slew := s.mtr.slew - d }

/-- OPERATING_SECOND: the counter is advanced and committed, and the meters with it (R290, R485); `corrected` is the number of SRAM
and MRAM words with a single-bit error in the second, each rewritten in place and counted (R40). -/
def execOperatingSecond (corrected : Nat) (s : State) : Res :=
  .next (if outOfReset s then
    let s1 := tickWall { s with nv.opSeconds := s.nv.opSeconds + 1, sys.corrected := s.sys.corrected + corrected }
    settleEdit (settleLockout (meterCommit 0 s1))
  else s)

end Sys2Proof.Machine
end

