-- ==== Sys2Proof/Machine/SpokeData.lean ====
section
/-!
DEFINITION. The Spoke-line's data (chapter 12): the contention region, segments in and out, tone maps, the bridge, and the
SPK_ commands. Readings: log entry 25.
-/
namespace Sys2Proof.Machine

/-! ### The contention region (R335, R336) -/

/-- Initial contention window of a priority. -/
def initialCw (priority : Nat) : Nat := if priority = 3 then 4 else if priority = 2 then 8 else if priority = 1 then 16 else 32

/-- Long code words in a tone-mapped burst of span `h` (R325). -/
def spanWords (s1 h : Nat) (m : ToneMap) : Nat := min 704 ((h * s1 - 8) * mapBits m / wordBits m.rate)

/-- The span that fits in the symbols left, with the acknowledgement; 0 for none (R325, R336). -/
def spanFor (s1 symbols : Nat) : Nat := if 2 * s1 + 8 ≤ symbols then 2 else if s1 + 8 ≤ symbols then 1 else 0

/-- Long code words of a sturdy burst that fit in the symbols left, with an acknowledgement where there is one. -/
def sturdyFit (symbols ack : Nat) : Nat := min 8 ((symbols - 8 - ack) / 23)

/-- The highest priority of the segments waiting on a link; none where nothing waits, or a burst is unacknowledged. -/
def linkPriority (l : SpkLink) : Option Nat :=
  if l.queue.isEmpty || !l.sent.isEmpty then none else some ((l.queue.map (·.prio)).foldl max 0)

/-- The link that contends: the first of the highest priority. -/
def contender (s : State) : Option (SpkLink × Nat) :=
  [3, 2, 1, 0].findSome? fun p => (s.spk.links.find? fun l => linkPriority l == some p).map fun l => (l, p)

/-- A priority sends in PR0, and in PR1; a node that is silent in a window and hears a signal there defers (R335). -/
def sendsPr0 (p : Nat) : Bool := p == 2 || p == 3
def sendsPr1 (p : Nat) : Bool := p == 3 || p == 1
def defers (p : Nat) (m : Access) : Bool := (!sendsPr0 p && m.pr0) || (!sendsPr1 p && m.pr1)

/-- CW in use on a link: doubled after failures, multiplied by the modem divisor (R269, R335). -/
def contentionWindow (s : State) (l : SpkLink) (priority : Nat) : Nat :=
  modemDivisor s * (if l.cw = 0 then initialCw priority else l.cw)

/-- Back-off left when the medium falls busy again, after `idle` symbols; 0 where the node transmits. -/
def backoffNow (s : State) (l : SpkLink) (priority : Nat) : Nat :=
  s.spk.backoff.getD (Config.freshNat s.free (contentionWindow s l priority) % contentionWindow s l priority)

/-- The next burst of a link carries a power-fail notice. -/
def noticeNext (l : SpkLink) : Bool := match l.queue with | x :: _ => segFirst x && g16 x.data 0 == macNotice | [] => false

/-- Whole symbols from a time after the origin to the end of the region it lies in; 0 outside the regions a burst may start in.
A power-fail notice may be sent in any (R329, R336, R349). -/
def symbolsLeft (s : State) (l : SpkLink) (time : Nat) : Nat :=
  let end_ := if noticeNext l then bpUs s else if time < s.spk.cfEnd then 0 else if time < s.spk.swStart then s.spk.swStart else bpUs s
  (end_ - time) * 100 / 4608

/-- The bytes of a segment under a SEG_SEQ, before its tag (R342). -/
def segmentBytes (seq : Nat) (x : Segment) : Bytes := u16 seq ++ u16 x.ctrl ++ slice x.data 0 520 ++ List.replicate 8 0

/-- SEG_SEQ given to segments sent for the first time: the segments, and the next one to give. -/
def giveSeqs : Nat → List Segment → List Segment × Nat
  | next, [] => ([], next)
  | next, x :: xs =>
    match x.seq with
    | some _ => let r := giveSeqs next xs; (x :: r.1, r.2)
    | none => let r := giveSeqs ((next + 1) % 65536) xs; ({ x with seq := some next } :: r.1, r.2)

/-- A data burst of the first `n` waiting segments to a peer. A tone-mapped burst that has room for more code words than wait
fills them with segments of no data under the last number sent, which any receiver discards (log entry 25). -/
def sendSegments (peer priority n : Nat) (map : Option (ToneMap × Nat)) (s : State) : State :=
  let l := spkLink s peer
  let r := giveSeqs l.seqTx (l.queue.take n)
  let kind := if map.isSome then 4 else 5
  let h := burstHeader s kind peer (match map with
    | some (m, span) => span + 4 * m.rate + 16 * m.ident
    | none => r.1.length)
  let idle : Segment := { seq := some ((r.2 + 65535) % 65536) }
  let g := match map with
    | some _ => r.1 ++ List.replicate (n - r.1.length) idle
    | none => r.1
  let words := g.zipIdx.map fun (x : Segment × Nat) => sealed s s.spk.period x.2 h (segmentBytes (x.1.seq.getD 0) x.1)
  let a := activeCarriers s
  let control := slice h 0 120
  let symbols := match map with
    | some (m, span) => mappedBurst a (span * span1 s - 8) m.rate ((carriers s).map fun c => codeBits (carrierCode m c)) control words
    | none => sturdyBurst a control words
  let s1 := putBurst kind (match map with | some (m, _) => m.backoff | none => 0) (h ++ words.flatten) symbols
    { s with spk.backoff := none }
  onSpkLink peer (fun l => { l with
    queue := l.queue.drop n, prio := priority, seqTx := r.2
    sent := if peer = 255 then [] else r.1.map fun x => (s.spk.burst, x) }) s1

/-- A burst of a link with `symbols` left: tone-mapped with the largest span that fits, else sturdy; nothing where none fits
(R325, R336). In a switching window, to all, and for a power-fail notice only sturdy bursts go out. -/
def sendFitting (l : SpkLink) (priority symbols : Nat) (s : State) : State :=
  let ack := if l.peer = 255 then 0 else 8
  let sturdy := s.spk.window || l.peer = 255 || noticeNext l
  match (if sturdy then none else l.tx) with
  | some m =>
    let h := spanFor (span1 s) symbols
    if 0 < h && 0 < spanWords (span1 s) h m then sendSegments l.peer priority (spanWords (span1 s) h m) (some (m, h)) s
    else if 0 < sturdyFit symbols ack then sendSegments l.peer priority (sturdyFit symbols ack) none s
    else s
  | none => if 0 < sturdyFit symbols ack then sendSegments l.peer priority (sturdyFit symbols ack) none s else s

/-- The preamble symbols a node sends in PR0 and PR1 (R335). -/
def sendPriority (p : Nat) (s : State) : State :=
  let one := [preambleSymbol (activeCarriers s)]
  { s with spk.sent := (if sendsPr1 p then [{ symbols := one }] else []) ++ (if sendsPr0 p then [{ symbols := one }] else []) ++ s.spk.sent }

/-- CONTENTION_ACCESS (R335, R336): the medium has been idle for 4 symbols; what is heard in PR0, PR1 and after them decides
whether the node defers, counts down or sends. -/
def execContentionAccess (m : Access) (s : State) : Res :=
  .next (
    if !(up s && onSpoke s && s.env.vline && beaconCurrent s) then s
    else match contender s with
      | none => s
      | some (l, p) =>
        if symbolsLeft s l m.time = 0 then s
        else
          let s1 := if sendsPr0 p || (sendsPr1 p && !m.pr0) then sendPriority p s else s
          if defers p m then s1
          else
            let c := backoffNow s l p
            let s2 := drawn { s1 with spk.backoff := some (c - m.idle) }
            if m.idle < c then s2 else sendFitting l p (symbolsLeft s l m.time - c) s2)

/-! ### Acknowledgements (R326, R335, R343) -/

/-- Segments that failed: back to the front of the queue with one failure more, at P1 where they came at P2 or P3; from RETRY_MAX
failures on, the segment's frame is dropped and counted (R326). -/
def resend (max : Nat) (failed : List (Nat × Segment)) (l : SpkLink) : SpkLink :=
  let again := failed.filter fun (x : Nat × Segment) => x.2.fails + 1 < max
  let dropped := failed.length - again.length
  { l with
    queue := again.map (fun (x : Nat × Segment) => { x.2 with fails := x.2.fails + 1, prio := min 1 x.2.prio }) ++
      (if dropped = 0 then l.queue else l.queue.dropWhile fun q => !segFirst q)
    sent := []
    stats := upd (upd l.stats lsResent (· + again.length)) lsDropped (· + dropped) }

/-- The acknowledgement is for this node, and its tag is right (R343, R344). -/
def ackSealed (s : State) (b : Bytes) : Bool :=
  b.length == 106 && hdKind b == 6 && hdDst b == spkSrc s &&
    sealRight s s.spk.period 0 (slice b 0 8) (slice b 8 90) (slice b 98 8)

/-- ACKNOWLEDGEMENT_RECEIVED (R326, R335, R343): header, BURST_IDX, bitmap, tag. -/
def execAcknowledgementReceived (b : Bytes) (s : State) : Res :=
  .next (
    let peer := hdSrc b
    let l := spkLink s peer
    if !(up s && onSpoke s && ackSealed s b) || l.sent.isEmpty || l.sent.any (fun (x : Nat × Segment) => x.1 != g16 b 8) then s
    else
      let failed := (l.sent.zipIdx.filter fun (x : (Nat × Segment) × Nat) => !bit (g8 b (10 + x.2 / 8)) (x.2 % 8)).map (·.1)
      onSpkLink peer (fun l => { resend s.cfg.spoke.retryMax failed l with cw := 0 }) s)

/-- ACKNOWLEDGEMENT_MISSING (R335): CW doubles, up to 64. -/
def execAcknowledgementMissing (peer : Nat) (s : State) : Res :=
  .next (
    let l := spkLink s peer
    if !(up s && onSpoke s) || l.sent.isEmpty then s
    else onSpkLink peer (fun l => { resend s.cfg.spoke.retryMax l.sent l with
      cw := min 64 (2 * (if l.cw = 0 then initialCw l.prio else l.cw)) }) s)

/-! ### Tone maps (R321) -/

/-- The tone map changes the link's rate or span, which is reported. -/
def mapChanged (old : Option ToneMap) (rate span : Nat) : Bool :=
  match old with
  | some m => m.rate != rate || m.span != span
  | none => true

/-- A new tone map for the peer's bursts is due (R321). -/
def mapDue (l : SpkLink) : Bool := !l.snr.isEmpty && (l.rx.isNone || 60000000 ≤ l.mapUs || 3 ≤ l.bad)

/-- The tone map a receiver chooses from the SNR it has measured. Its span and back-off are values the spec leaves to the
receiver: free values (log entry 25). -/
def chosenMap (s : State) (l : SpkLink) : ToneMap :=
  { bestMap (carrierOn s) s.cfg.spoke.tmMargin l.snr with
    ident := match l.rx with | some m => (m.ident + 1) % 16 | none => 0
    span := 1 + Config.freshNat s.free 2 % 2
    backoff := Config.freshNat (s.free + 1) 256 % 256 }

/-- The receiver sends a new tone map at P1 where one is due. -/
def settleMap (peer : Nat) (s : State) : State :=
  let l := spkLink s peer
  if !(beaconCurrent s && mapDue l) then s
  else
    let m := chosenMap s l
    let s1 := onSpkLink peer (fun l => { l with bad := 0, mapUs := 0, rx := some m }) (drawn (drawn s))
    raiseIf (mapChanged l.rx m.rate m.span) evSpkTonemap
      (queueFrame peer 1 macToneMap (u8 m.ident ++ u8 m.rate ++ u8 m.span ++ u8 m.backoff ++ m.carriers) s1)

/-- TONE_MAP_UPDATE (R321). -/
def execToneMapUpdate (peer : Nat) (s : State) : Res := .next (if up s && onSpoke s then settleMap peer s else s)

/-- A tone map adopted for bursts to the peer (R321, R342). -/
def adoptMap (peer : Nat) (m : ToneMap) (s : State) : State :=
  raiseIf (mapChanged (spkLink s peer).tx m.rate m.span) evSpkTonemap (onSpkLink peer (fun l => { l with tx := some m }) s)

/-- TONE_MAP_RECEIVED (R321): adopted for bursts to the peer. -/
def execToneMapReceived (peer ident rate span backoff : Nat) (carriers : Bytes) (s : State) : Res :=
  .next (
    if up s && onSpoke s then
      adoptMap peer { ident := ident, rate := rate, span := span, backoff := backoff, carriers := slice carriers 0 525 } s
    else s)

/-! ### Receiving segments (R326, R342) -/

/-- A join request as its MAC frame holds it (R346). -/
def joinOf (s : State) (b : Bytes) : JoinReq :=
  { identity := slice b 0 8, role := g8 b 8, post := g8 b 9, network := g8 b 10, ifMajor := g64 b 11 / 65536 % 256, period := s.spk.period }

/-- A MAC frame that has come whole, by its type (R342). -/
def takeMac (peer : Nat) (f : Bytes) (s : State) : State :=
  let s1 := { s with spk.delivered := s.spk.delivered ++ [(peer, f)] }
  let d := f.drop 2
  let own := peer / 8 == s.cfg.spoke.network
  if g16 f 0 = macJoin then (if isHub s then takeJoin s1 (joinOf s d) else s1)
  else if g16 f 0 = macNotice then (if own && peer != 255 then takeNotice (peer % 8 - 1) s1 else s1)
  else if g16 f 0 = macToneMap then
    adoptMap peer { ident := g8 d 0, rate := g8 d 1, span := g8 d 2, backoff := g8 d 3, carriers := slice d 4 525 } s1
  else if g16 f 0 = macRequest then (if own then requestFrom peer s1 (slice d 0 32) else s1)
  else if g16 f 0 = macDecision then
    (if isMaster s then takeDecision peer s1 (slice d 0 8, g8 d 8, g8 d 9, g8 d 10) else s1)
  else if g16 f 0 = macBridged && s.cfg.spoke.bridgeVid != 0 then
    { s1 with spk.eth := s1.spk.eth ++ [{ vid := s.cfg.spoke.bridgeVid, etherType := g16 d 0, payload := d.drop 2 }] }
  else s1

/-- One segment in order. -/
def takeSegment (peer : Nat) (seg : Bytes) (s : State) : State :=
  let ctrl := g16 seg 2
  let data := slice seg 4 (min 520 (ctrl % 1024))
  let old := if bit ctrl 14 then [] else (spkLink s peer).partialFrame
  let s1 := onSpkLink peer (fun l => { l with
    seqRx := (g16 seg 0 + 1) % 65536, partialFrame := if bit ctrl 15 then [] else old ++ data }) s
  if bit ctrl 15 then takeMac peer (old ++ data) s1 else s1

/-- Segments that had come ahead of their order and now follow. -/
def takeEarly (peer : Nat) : Nat → State → State
  | 0, s => s
  | n + 1, s =>
    let l := spkLink s peer
    match l.early.find? fun (e : Nat × Bytes) => e.1 == l.seqRx with
    | some e => takeEarly peer n (takeSegment peer e.2
        (onSpkLink peer (fun l => { l with early := l.early.filter fun (x : Nat × Bytes) => x.1 != e.1 }) s))
    | none => s

/-- A segment as it arrives: duplicates discarded, order kept (R326). Broadcasts, and nodes that have no number yet, have no
order. A segment 1,024 or more ahead shows that the sender has dropped what was missing (log entry 25). -/
def arriveSegment (peer : Nat) (unordered : Bool) (seg : Bytes) (s : State) : State :=
  let l := spkLink s peer
  let ahead := (g16 seg 0 + 65536 - l.seqRx % 65536) % 65536
  if unordered || ahead = 0 then takeEarly peer l.early.length (takeSegment peer seg s)
  else if 32768 ≤ ahead || l.early.any (fun (e : Nat × Bytes) => e.1 == g16 seg 0) then s
  else if 1024 ≤ ahead then takeSegment peer seg (onSpkLink peer (fun l => { l with early := [] }) s)
  else onSpkLink peer (fun l => { l with early := l.early ++ [(g16 seg 0, seg)] }) s

/-- The plain segment of code word `k`, where it was decoded and its tag is right (R344). -/
def openWord (s : State) (b : Burst) (k : Nat) (w : Option Bytes) : Option Bytes :=
  w.bind fun x =>
    if sealRight s b.period k b.head (x.take 532) (slice x 532 8) then some (crypt s b.period k b.head (x.take 532)) else none

/-- One code word of a data burst: replay check, then its segment. -/
def arriveWord (b : Burst) (s : State) (x : Option Bytes × Nat) : State :=
  let src := hdSrc b.head
  let pair := (b.period, hdIdx b.head)
  match x.1 with
  | some seg =>
    if wordFresh (spkLink s src) pair x.2 then
      arriveSegment src (hdDst b.head == 255 || src == 255) seg (onSpkLink src (keepWord pair x.2) s)
    else s
  | none => s

/-- The bitmap of an acknowledgement, 88 bytes (R343). -/
def ackBitmap (l : List Bool) : Bytes :=
  (List.range 88).map fun i => BitVec.ofNat 8 (maskOf ((List.range 8).filter fun j => l.getD (8 * i + j) false))

/-- The code words of a burst that count toward a tone map: all, or none where an impulse hit its payload, over which every code
word is spread (R321, R324). -/
def wordsCounted (b : Burst) : Nat := if (impulseSymbols b.energy).any fun k => 7 ≤ k then 0 else b.words.length

/-- The statistics of a burst, and the SNR and failures that the tone map rests on. -/
def countBurst (b : Burst) (failed : Nat) (s : State) : State :=
  let src := hdSrc b.head
  let s1 := spkCount src lsImpulse (impulseSymbols b.energy).length (spkCount src lsFailed failed
    (spkCount src lsWords b.words.length (spkCount src lsBursts 1 s)))
  onSpkLink src (fun l => { l with
    bad := if wordsCounted b < 10 * failed && 0 < wordsCounted b then l.bad + 1 else 0
    snr := if b.snr.isEmpty then l.snr else (b.snr :: l.snr).take 32 }) s1

/-- DATA_BURST_RECEIVED (R321, R326, R344): a burst to this node, or to all. -/
def execDataBurstReceived (b : Burst) (s : State) : Res :=
  .next (
    let src := hdSrc b.head
    if !(up s && onSpoke s && s.env.vline && (hdDst b.head == 255 || hdDst b.head == spkSrc s)) then s
    else
      let words := b.words.zipIdx.map fun (x : Option Bytes × Nat) => (openWord s b x.2 x.1, x.2)
      let good := words.map fun (x : Option Bytes × Nat) => x.1.isSome
      let s1 := settleMap src (words.foldl (arriveWord b) (countBurst b (good.filter (!·)).length s))
      if hdDst b.head == 255 then s1
      else sendClear 6 src 1 (u16 (hdIdx b.head) ++ ackBitmap good) s1)

/-! ### Bridging (R352) -/

/-- BRIDGED_ETHERNET_FRAME (R352). -/
def execBridgedEthernetFrame (fromEth : Bool) (vid etherType : Nat) (data : Bytes) (s : State) : Res :=
  .next (
    if !(up s && onSpoke s) || s.cfg.spoke.bridgeVid == 0 || vid != s.cfg.spoke.bridgeVid ||
        etherType == 0x88B5 || etherType == 0x88B6 then s
    else if fromEth then queueFrame 255 0 macBridged (u16 etherType ++ data) s
    else { s with spk.eth := s.spk.eth ++ [{ vid := vid, etherType := etherType, payload := data }] })

/-! ### Commands (R353) -/

/-- SPK_GET_STATUS. -/
def execSpkGetStatus (r : Req) (s : State) : Res :=
  command { op := 0x0801, own := .spoke } r (fun s =>
    let phase : Int := match s.spk.phase with | some p => p | none => 0x7FFF
    .ok s (u8 (if isMaster s then 1 else if isHub s then 2 else 0) ++ u8 (ownNode s) ++ u48 s.spk.period ++ u32 (bpUs s) ++
      u8 ((if beaconCurrent s then 1 else 0) + (if s.spk.freeRun then 2 else 0)) ++ u16 (activeCarriers s) ++ i16 phase ++
      u16 (s.spk.swStart - s.spk.cfEnd) ++ u16 (bpUs s - s.spk.swStart))) s

/-- The entry of a node in SPK_GET_NODES. -/
def nodeBytes (n : Node) : Bytes := u8 n.node ++ u8 n.network ++ u8 n.state ++ u8 n.post ++ u32 (if n.heard then age32 (n.silent - 1) else 0xFFFFFFFF)

/-- SPK_GET_NODES. -/
def execSpkGetNodes (r : Req) (s : State) : Res :=
  command { op := 0x0802, own := .spoke } r (fun s =>
    .ok s (u8 s.spk.nodes.length ++ s.spk.nodes.flatMap nodeBytes)) s

/-- PHY rate of a link, kbit/s: its tone map, or sturdy mode (R321, R322). -/
def phyRate (s : State) (m : Option ToneMap) : Nat :=
  match m with
  | some t =>
    let b := mapBits t
    let info := if t.rate = 0 then b * 30 else if t.rate = 1 then b * 40 else b * 50
    info * 100000 / (60 * 4608)
  | none => 2 * (activeCarriers s / 4) * 30 * 100000 / (60 * 4608)

/-- The mean SNR of a group of 64 carriers, 0.25 dB, over the active ones; none where nothing has been measured. -/
def groupSnr (s : State) (l : SpkLink) (g : Nat) : Option Nat :=
  let c := (carriers s).filter fun c => (c - 82) / 64 == g
  if l.snr.isEmpty || c.isEmpty then none
  else some (clampI 0 255 ((c.map fun c => meanSnr l.snr (c - 82)).sum / (c.length : Nat))).toNat

/-- SPK_GET_LINK: the mean SNR of a group without a measurement is a free value. -/
def execSpkGetLink (r : Req) (peer : Nat) (s : State) : Res :=
  command { op := 0x0803, own := .spoke } r (fun s =>
    checked [(!(s.spk.links.any fun l => l.peer == peer), stBadArg)] s fun s =>
      let l := spkLink s peer
      let m := l.rx.getD {}
      .ok (drawn s) (u8 m.ident ++ u8 m.rate ++ u8 m.span ++
        (List.range 17).flatMap (fun g => match groupSnr s l g with | some v => u8 v | none => slice (fresh s 17) g 1) ++ u32 (phyRate s l.rx) ++ l.stats.flatMap u32)) s

/-- SPK_CLEAR_STATS. -/
def execSpkClearStats (r : Req) (peer : Nat) (s : State) : Res :=
  command { op := 0x0804, own := .spoke, secure := true, states := lcIFS, cred := 1 } r (fun s =>
    checked [(peer != 255 && !(s.spk.links.any fun l => l.peer == peer), stBadArg)] s fun s =>
      .ok { s with spk.links := s.spk.links.map fun l =>
              if peer = 255 || l.peer == peer then { l with stats := List.replicate 8 0 } else l }) s

end Sys2Proof.Machine
end

