-- ==== Sys2Proof/Machine/Operands.lean ====
section
/-!
DEFINITION. The operand forms of the mailbox commands: from the opcode and the payload of a request frame to the command it
asks for, by the payload columns of the command tables. None stands for a LENGTH that does not match the opcode (check 3 of
R64). A payload whose inner length bytes disagree with LENGTH does not match either (log entry 30).
-/
namespace Sys2Proof.Machine

/-- The six attribute bytes of a key command. -/
def attrAt (p : Bytes) (o : Nat) : KeyAttr :=
  { alg := g8 p o, usage := g8 p (o + 1), masters := g8 p (o + 2), world := g8 p (o + 3), lifecycles := g8 p (o + 4)
    flags := g8 p (o + 5) }

/-- A command whose payload has exactly `n` bytes. -/
def fixed (n : Nat) (p : Bytes) (c : State → Res) : Option (State → Res) := if p.length = n then some c else none

/-- A command whose payload has at least `n` bytes, its data the rest; what the rest may be long the command checks. -/
def atLeast (n : Nat) (p : Bytes) (c : State → Res) : Option (State → Res) := if n ≤ p.length then some c else none

/-- System commands (chapters 03, 04, 17), by the low byte of the opcode. -/
def commands1 (low : Nat) (r : Req) (p : Bytes) : Option (State → Res) :=
  match low with
  | 0x01 => some (execSysEchoPayload r p)
  | 0x02 =>
    if p.length < 60 || p.length != 60 + g16 p 58 then none
    else some (execSysOpenCredential r (g8 p 0) (g8 p 1) (slice p 2 56) (Config.sigOf (p.drop 60)))
  | 0x03 => fixed 4 p (execSysCloseCredential r (g32 p 0))
  | 0x04 => fixed 1 p (execSysGetChannelStats r (g8 p 0))
  | 0x10 => fixed 0 p (execSysGetBootInfo r)
  | 0x11 => fixed 0 p (execSysResetPart r)
  | 0x12 => fixed 0 p (execSysEnterKickstand r)
  | 0x13 => fixed 0 p (execSysGetKickstand r)
  | 0x14 => fixed 0 p (execSysReleaseKickstand r)
  | 0x15 => fixed 0 p (execSysGetLifecycle r)
  | 0x16 =>
    if p.length < 1 || 1401 < p.length then none else some (execSysSetLifecycle r (g8 p 0) (Config.tokenOf (p.drop 1)))
  | 0x17 => atLeast 5 p (execSysWriteImage r (g8 p 0) (g32 p 1) (p.drop 5))
  | 0x18 => fixed 1 p (execSysActivateImage r (g8 p 0))
  | 0x19 => fixed 0 p (execSysConfirmImage r)
  | _ => none

/-- Derailleur commands (chapter 05), by the low byte of the opcode. -/
def commands2 (low : Nat) (r : Req) (p : Bytes) : Option (State → Res) :=
  match low with
  | 0x01 => fixed 0 p (execAlcGetStatus r)
  | 0x02 => atLeast 2 p (execAlcSetRules r (g8 p 0) (g8 p 1) (p.drop 2))
  | 0x03 => fixed 3 p (execAlcGetRules r (g8 p 0) (g8 p 1) (g8 p 2))
  | 0x04 => fixed 0 p (execAlcCommitRules r)
  | 0x05 => fixed 10 p (execAlcSetSiteLimits r (gi32 p 0) (gi32 p 4) (g16 p 8))
  | 0x06 => fixed 2 p (execAlcSetSessionClass r (g8 p 0) (g8 p 1))
  | 0x07 => fixed 0 p (execAlcGetGrants r)
  | 0x08 => fixed 1 p (execAlcGetInputs r (g8 p 0))
  | 0x09 => fixed 0 p (execAlcGetAssignment r)
  | 0x0A => fixed 2 p (execAlcSetStageService r (g8 p 0) (g8 p 1))
  | _ => none

/-- Cadence commands (chapter 06), by the low byte of the opcode. -/
def commands3 (low : Nat) (r : Req) (p : Bytes) : Option (State → Res) :=
  match low with
  | 0x01 => fixed 1 p (execCadGetGroup r (g8 p 0))
  | 0x02 => fixed 1 p (execCadGetLoop r (g8 p 0))
  | 0x03 => fixed 9 p (execCadClearFlags r (g64 p 0) (g8 p 8))
  | 0x04 => fixed 5 p (execCadSetReference r (g8 p 0) (gi32 p 1))
  | 0x05 => fixed 1 p (execCadReleaseGroup r (g8 p 0))
  | 0x06 => atLeast 3 p (execCadStageDescriptor r (g8 p 0) (g16 p 1) (p.drop 3))
  | 0x07 => fixed 1 p (execCadCommitGroup r (g8 p 0))
  | _ => none

/-- Chainring commands (chapter 07), by the low byte of the opcode. -/
def commands4 (low : Nat) (r : Req) (p : Bytes) : Option (State → Res) :=
  match low with
  | 0x01 => fixed 1 p (execChrGetRing r (g8 p 0))
  | 0x02 => fixed 1 p (execChrGetStage r (g8 p 0))
  | 0x03 => fixed 1 p (execChrClearCounters r (g8 p 0))
  | _ => none

/-- Outlet and session commands (chapters 08, 09), by the low byte of the opcode. -/
def commands5 (low : Nat) (r : Req) (p : Bytes) : Option (State → Res) :=
  match low with
  | 0x01 => fixed 1 p (execOutGetLink r (g8 p 0))
  | 0x02 => fixed 1 p (execOutGetLinkStats r (g8 p 0))
  | 0x03 => fixed 1 p (execOutClearLinkStats r (g8 p 0))
  | 0x04 => fixed 2 p (execOutSetPilotTest r (g8 p 0) (g8 p 1))
  | 0x10 => fixed 1 p (execOutGetSession r (g8 p 0))
  | 0x11 =>
    if p.length != 6 + g8 p 5 then none
    else some (execOutAuthorise r (g8 p 0) (g8 p 1) (g8 p 2) (g16 p 3) (p.drop 6))
  | 0x12 => fixed 1 p (execOutStopSession r (g8 p 0))
  | 0x13 => fixed 2 p (execOutSetAvailability r (g8 p 0) (g8 p 1))
  | 0x14 => fixed 1 p (execOutClearWeld r (g8 p 0))
  | 0x15 => fixed 1 p (execOutGetChecks r (g8 p 0))
  | 0x16 => fixed 1 p (execOutRenegotiate r (g8 p 0))
  | _ => none

/-- Heat commands (chapter 10), by the low byte of the opcode. -/
def commands6 (low : Nat) (r : Req) (p : Bytes) : Option (State → Res) :=
  match low with
  | 0x01 => fixed 2 p (execHeatGetInput r (g8 p 0) (g8 p 1))
  | 0x02 => fixed 1 p (execHeatGetOutlet r (g8 p 0))
  | 0x03 => fixed 2 p (execHeatGetThresholds r (g8 p 0) (g8 p 1))
  | 0x04 => fixed 2 p (execHeatAckSensor r (g8 p 0) (g8 p 1))
  | 0x05 => fixed 0 p (execHeatGetDie r)
  | _ => none

/-- Metering commands (chapter 11), by the low byte of the opcode. -/
def commands7 (low : Nat) (r : Req) (p : Bytes) : Option (State → Res) :=
  match low with
  | 0x01 => fixed 1 p (execMtrGetRegisters r (g8 p 0))
  | 0x02 => fixed 1 p (execMtrGetPoint r (g8 p 0))
  | 0x03 => fixed 8 p (execMtrGetRecord r (g64 p 0))
  | 0x04 => fixed 13 p (execMtrRenderRecord r (g64 p 0) (g8 p 8) (g32 p 9))
  | 0x05 => fixed 8 p (execMtrAckRecords r (g64 p 0))
  | 0x06 => fixed 9 p (execMtrSetWallTime r (g8 p 0) (gi64 p 1))
  | 0x07 => atLeast 2 p (execMtrWriteParameters r (g8 p 0) (g8 p 1) (p.drop 2))
  | 0x08 => fixed 0 p (execMtrSealParameters r)
  | 0x09 => fixed 0 p (execMtrGetLegalId r)
  | 0x0A => fixed 2 p (execMtrReadParameters r (g8 p 0) (g8 p 1))
  | _ => none

/-- Spoke-line commands (chapter 12), by the low byte of the opcode. -/
def commands8 (low : Nat) (r : Req) (p : Bytes) : Option (State → Res) :=
  match low with
  | 0x01 => fixed 0 p (execSpkGetStatus r)
  | 0x02 => fixed 0 p (execSpkGetNodes r)
  | 0x03 => fixed 1 p (execSpkGetLink r (g8 p 0))
  | 0x04 => fixed 1 p (execSpkClearStats r (g8 p 0))
  | _ => none

/-- Safety commands (chapters 13, 14), by the low byte of the opcode. -/
def commands9 (low : Nat) (r : Req) (p : Bytes) : Option (State → Res) :=
  match low with
  | 0x01 => fixed 0 p (execSafGetStatus r)
  | 0x02 => fixed 1 p (execSafGetInstance r (g8 p 0))
  | 0x03 => fixed 1 p (execSafGetInput r (g8 p 0))
  | 0x04 => fixed 1 p (execSafGetPair r (g8 p 0))
  | 0x05 => fixed 5 p (execSafReset r (g32 p 0) (g8 p 4))
  | 0x06 => fixed 2 p (execSafSetOutput r (g8 p 0) (g8 p 1))
  | 0x07 => fixed 2 p (execSafDoorLock r (g8 p 0) (g8 p 1))
  | 0x10 => fixed 1 p (execSafGetLink r (g8 p 0))
  | 0x11 => fixed 0 p (execSafCfgGet r)
  | 0x12 => fixed 3 p (execSafCfgRead r (g8 p 0) (g8 p 1) (g8 p 2))
  | 0x13 =>
    if p.length != 1 + g8 p 0 then none else some (execSafCfgOpen r (p.drop 1))
  | 0x14 => atLeast 2 p (execSafCfgWrite r (g8 p 0) (g8 p 1) (p.drop 2))
  | 0x15 => fixed 0 p (execSafCfgCommit r)
  | 0x16 => fixed 0 p (execSafCfgClose r)
  | 0x17 =>
    if p.length != 5 + g8 p 4 then none else some (execSafCfgAck r (g32 p 0) (p.drop 5))
  | 0x18 =>
    if p.length != 2 + g8 p 0 + g8 p (1 + g8 p 0) then none
    else some (execSafCfgSetPassword r (slice p 1 (g8 p 0)) (p.drop (2 + g8 p 0)))
  | 0x19 => fixed 2 p (execSafCfgGetLog r (g8 p 0) (g8 p 1))
  | _ => none

/-- Load-channel commands (chapter 15), by the low byte of the opcode. -/
def commandsA (low : Nat) (r : Req) (p : Bytes) : Option (State → Res) :=
  match low with
  | 0x01 => fixed 1 p (execLdcGetChannel r (g8 p 0))
  | 0x02 => fixed 2 p (execLdcSetChannel r (g8 p 0) (g8 p 1))
  | 0x03 => fixed 3 p (execLdcSetDuty r (g8 p 0) (g16 p 1))
  | 0x04 => fixed 4 p (execLdcClearFault r (g32 p 0))
  | 0x05 => fixed 0 p (execLdcGetPackage r)
  | _ => none

/-- Stack commands (chapter 16), by the low byte of the opcode. -/
def commandsB (low : Nat) (r : Req) (p : Bytes) : Option (State → Res) :=
  match low with
  | 0x01 => fixed 0 p (execStkGetStatus r)
  | 0x02 => fixed 2 p (execStkGetCompanion r (g8 p 0) (g8 p 1))
  | 0x03 => fixed 3 p (execStkSetSoc r (g8 p 0) (g16 p 1))
  | 0x04 => fixed 2 p (execStkClearFault r (g8 p 0) (g8 p 1))
  | _ => none

/-- Key commands (chapter 17), by the low byte of the opcode. -/
def commandsC (low : Nat) (r : Req) (p : Bytes) : Option (State → Res) :=
  match low with
  | 0x01 => fixed 1 p (execKeyGetSlot r (g8 p 0))
  | 0x02 => fixed 39 p (execKeyGenerate r (g8 p 0) (attrAt p 1) (slice p 7 32))
  | 0x03 => atLeast 42 p (execKeyImport r (g8 p 0) (attrAt p 1) (slice p 7 32) (g16 p 39) (g8 p 41) (p.drop 42))
  | 0x04 => fixed 40 p (execKeyDerive r (g8 p 0) (g8 p 1) (attrAt p 2) (slice p 8 32))
  | 0x05 => fixed 1 p (execKeyRevoke r (g8 p 0))
  | 0x06 => fixed 1 p (execKeyErase r (g8 p 0))
  | 0x07 => fixed 1 p (execKeyExport r (g8 p 0))
  | 0x08 =>
    if p.length != 2 + g8 p 1 then none else some (execKeySign r (g8 p 0) (p.drop 2))
  | 0x09 => fixed 32 p (execKeyAttest r (slice p 0 32))
  | 0x0A => fixed 3 p (execKeyGetCertificate r (g8 p 0) (g16 p 1))
  | _ => none

/-- Recorder commands (chapter 18), by the low byte of the opcode. -/
def commandsD (low : Nat) (r : Req) (p : Bytes) : Option (State → Res) :=
  match low with
  | 0x01 => fixed 0 p (execRecGetInfo r)
  | 0x02 => fixed 18 p (execRecRead r (g8 p 0) (g64 p 1) (g64 p 9) (g8 p 17))
  | 0x03 => fixed 0 p (execRecGetLimits r)
  | 0x04 => fixed 0 p (execRecGetChallenge r)
  | 0x05 =>
    if p.length = 10 && g8 p 9 != 1 then some (execRecClear r (g8 p 0) (g64 p 1) (g8 p 9) (Config.sigOf []))
    else if 12 ≤ p.length && g8 p 9 = 1 && p.length = 12 + g16 p 10 then
      some (execRecClear r (g8 p 0) (g64 p 1) 1 (Config.sigOf (p.drop 12)))
    else none
  | 0x06 => fixed 22 p (execRecWriteNote r (slice p 0 22))
  | _ => none

/-- Tandem and peloton commands (chapter 19), by the low byte of the opcode. -/
def commandsE (low : Nat) (r : Req) (p : Bytes) : Option (State → Res) :=
  match low with
  | 0x01 => fixed 0 p (execTdmGetStatus r)
  | 0x02 => fixed 0 p (execTdmSwitchOver r)
  | 0x03 => fixed 0 p (execTdmGetPeloton r)
  | _ => none

/-- The command that a request asks for. -/
def commandOf (op : Nat) (r : Req) (p : Bytes) : Option (State → Res) :=
  match op / 256 with
  | 1 => commands1 (op % 256) r p
  | 2 => commands2 (op % 256) r p
  | 3 => commands3 (op % 256) r p
  | 4 => commands4 (op % 256) r p
  | 5 => commands5 (op % 256) r p
  | 6 => commands6 (op % 256) r p
  | 7 => commands7 (op % 256) r p
  | 8 => commands8 (op % 256) r p
  | 9 => commands9 (op % 256) r p
  | 10 => commandsA (op % 256) r p
  | 11 => commandsB (op % 256) r p
  | 12 => commandsC (op % 256) r p
  | 13 => commandsD (op % 256) r p
  | 14 => commandsE (op % 256) r p
  | _ => none

/-- The opcodes that the interface revision defines (R50, R70). -/
def opDefined (op : Nat) : Bool :=
  match op / 256 with
  | 1 => [0x01, 0x02, 0x03, 0x04, 0x10, 0x11, 0x12, 0x13, 0x14, 0x15, 0x16, 0x17, 0x18, 0x19].contains (op % 256)
  | 2 => [0x01, 0x02, 0x03, 0x04, 0x05, 0x06, 0x07, 0x08, 0x09, 0x0A].contains (op % 256)
  | 3 => [0x01, 0x02, 0x03, 0x04, 0x05, 0x06, 0x07].contains (op % 256)
  | 4 => [0x01, 0x02, 0x03].contains (op % 256)
  | 5 => [0x01, 0x02, 0x03, 0x04, 0x10, 0x11, 0x12, 0x13, 0x14, 0x15, 0x16].contains (op % 256)
  | 6 => [0x01, 0x02, 0x03, 0x04, 0x05].contains (op % 256)
  | 7 => [0x01, 0x02, 0x03, 0x04, 0x05, 0x06, 0x07, 0x08, 0x09, 0x0A].contains (op % 256)
  | 8 => [0x01, 0x02, 0x03, 0x04].contains (op % 256)
  | 9 => [0x01, 0x02, 0x03, 0x04, 0x05, 0x06, 0x07, 0x10, 0x11, 0x12, 0x13, 0x14, 0x15, 0x16, 0x17, 0x18, 0x19].contains (op % 256)
  | 10 => [0x01, 0x02, 0x03, 0x04, 0x05].contains (op % 256)
  | 11 => [0x01, 0x02, 0x03, 0x04].contains (op % 256)
  | 12 => [0x01, 0x02, 0x03, 0x04, 0x05, 0x06, 0x07, 0x08, 0x09, 0x0A].contains (op % 256)
  | 13 => [0x01, 0x02, 0x03, 0x04, 0x05, 0x06].contains (op % 256)
  | 14 => [0x01, 0x02, 0x03].contains (op % 256)
  | _ => false

end Sys2Proof.Machine
end

