-- ==== Sys2Proof/Machine/Mailbox.lean ====
section
/-!
DEFINITION. The mailbox itself: reading requests in round-robin order (R52, R58, R59, R63 to R65), held responses (R54), the
end of accepted commands (R66), and the connections of Ethernet-bound channels (R57, R58, R472). Readings: log entry 30.
-/
namespace Sys2Proof.Machine

/-! ### Frames that wait -/

/-- A request frame as the part copies it: its header, and as many bytes after it as LENGTH says, at most 4,064 (R59). -/
structure Frame where
  head : Bytes
  payload : Bytes
deriving DecidableEq, Repr

/-- Bytes of payload that follow a header (R59). -/
def payloadLength (head : Bytes) : Nat := min (g16 head 8) 4064

/-- The frame in the slot at the consumer index of a channel. -/
def slotFrame (s : State) (ch : Nat) : Frame :=
  let a := reqBase ch + (chan s ch).reqCons % 32 * 4096
  let head := memReads s.mbx.ring a 32
  { head := head, payload := memReads s.mbx.ring (a + 32) (payloadLength head) }

/-- A frame of a stream. -/
def streamFrame (f : Bytes) : Frame :=
  let head := slice f 0 32
  { head := head, payload := slice f 32 (payloadLength head) }

/-- The frame that waits first on a channel. -/
def waiting (s : State) (ch : Nat) : Option Frame :=
  let c := chan s ch
  if c.binding = 0 then (if c.reqProd = c.reqCons then none else some (slotFrame s ch))
  else match c.streamIn with
    | f :: _ => some (streamFrame f)
    | [] => none

/-- Check 1 of R64: MAGIC. -/
def magicOk (f : Frame) : Bool := g16 f.head 0 == 0xD2A1

/-- Check 2 of R64: the CRC over bytes 0 to 27 and the payload (R59). -/
def crcOk (f : Frame) : Bool := crc32c (f.head.take 28 ++ f.payload) == g32 f.head 28

/-- OPCODE, and FLAGS.FENCE. -/
def frameOp (f : Frame) : Nat := g16 f.head 2
def frameFence (f : Frame) : Bool := bit (g8 f.head 5) 2

/-- The frame with CRED_AUTH and CRC set to 0, which its authenticator covers (R60). -/
def authCovered (f : Frame) : Bytes := f.head.take 20 ++ List.replicate 12 0 ++ f.payload

/-- CRED_AUTH is the authenticator of the frame under a credential of the channel (R60). -/
def authOk (s : State) (ch : Nat) (f : Frame) : Bool :=
  match (chan s ch).creds.find? fun c => c.handle == g32 f.head 16 with
  | some c => frameAuth c.key (authCovered f) == slice f.head 20 8
  | none => false

/-- The request of a frame. -/
def frameReq (s : State) (ch : Nat) (f : Frame) : Req :=
  { ch := ch, tag := g8 f.head 4 % 32, seq := g32 f.head 12, world := g8 f.head 6, handle := g32 f.head 16
    auth := authOk s ch f, retry := bit (g8 f.head 5) 1 }

/-- Every command that has been accepted and has not finished, on whichever channel it arrived (R55, R66). -/
def unfinished (s : State) : List Running := s.mbx.channels.flatMap (·.running) ++ s.mbx.orphans

/-- A frame asks for the records that an accepted rendering still reads: an acknowledgement waits for it (R63). -/
def sameObject (s : State) (f : Frame) : Bool :=
  frameOp f == 0x0705 && (unfinished s).any fun w => match w.work with
    | .render m _ _ _ => m.mseq ≤ g64 f.payload 0
    | _ => false

/-- A frame may be read: its response has a place, a fence finds every earlier command finished, and no command read before it
works on the same object (R54, R63). -/
def mayRead (s : State) (ch : Nat) (f : Frame) : Bool :=
  let c := chan s ch
  c.held.isEmpty && !(c.binding == 0 && rspFull c) &&
    !(magicOk f && crcOk f && ((frameFence f && !c.running.isEmpty) || sameObject s f))

/-- A channel has a frame that can be read now. -/
def ready (s : State) (ch : Nat) : Bool :=
  serves s ch && match waiting s ch with
    | some f => mayRead s ch f
    | none => false

/-- The channel whose turn it is, among those with a frame to read (R63). -/
def nextChannel (s : State) : Option Nat := ([0, 1, 2, 3].map fun i => (s.mbx.turn + i) % 4).find? (ready s)

/-- The channel whose turn it is and its frame. -/
def nextFrame (s : State) : Option (Nat × Frame) :=
  match nextChannel s with
  | some ch => (waiting s ch).map fun f => (ch, f)
  | none => none

/-- The frame copied out: the consumer index advances, or the stream does; the turn passes on (R52, R63). -/
def consume (ch : Nat) (s : State) : State :=
  onChan ch (fun c =>
    if c.binding = 0 then { c with reqCons := (c.reqCons + 1) % 64 } else { c with streamIn := c.streamIn.drop 1 })
    { s with mbx.turn := (ch + 1) % 4 }

/-! ### Connections (R57, R58) -/

/-- A bad magic: a slot is consumed, a connection ends (check 1 of R64). -/
def badMagic (ch : Nat) (s : State) : State :=
  let s1 := raise evMbxFraming (count ch statFraming (count ch statFrames s))
  if (chan s ch).binding = 0 then s1 else endConnection ch s1

/-- A bad CRC: a SUSPECT response, the tag as it was (R65). -/
def badCrc (ch : Nat) (f : Frame) (s : State) : State :=
  sendFrame ch (responseFrame (frameReq s ch f) (frameOp f) 9 stBadCrc none [])
    (count ch statCrc (count ch statFrames s))

/-- An undefined opcode: the checks up to the fifth (R50). -/
def undefinedOp (op : Nat) (r : Req) (s : State) : Res := command { op := op, defined := false } r (fun s => .no s stBadOpcode) s

/-- An opcode is defined in the interface revision in service: the boot ROM's serves six (R50, R86). -/
def opInService (s : State) (op : Nat) : Bool := opDefined op && (s.sys.phase != .failed || romServes op)

/-- A frame that has passed checks 1 and 2: LENGTH, then the command it asks for. -/
def startFrame (ch : Nat) (f : Frame) (s : State) : Res :=
  let r := frameReq s ch f
  let op := frameOp f
  if 4064 < g16 f.head 8 then .next (badLength op r s)
  else if !opInService s op then undefinedOp op r s
  else match commandOf op r f.payload with
    | some c => c s
    | none => .next (badLength op r s)

/-- The next frame read and judged (R63, R64). -/
def readFrame (ch : Nat) (f : Frame) (s : State) : Res :=
  let s1 := consume ch s
  if !magicOk f then .next (badMagic ch s1)
  else if !crcOk f then .next (badCrc ch f s1)
  else startFrame ch f s1

/-- The next frame read where it is of the kind that a row names. -/
def readIf (p : Frame → Bool) (s : State) : Res :=
  match nextFrame s with
  | some (ch, f) => if p f then readFrame ch f s else .next s
  | none => .next s

/-- REQUEST_READ. -/
def execRequestRead (s : State) : Res := readIf (fun _ => true) s

/-- REQUEST_BAD_MAGIC: the next frame, where its MAGIC is wrong. -/
def execRequestBadMagic (s : State) : Res := readIf (fun f => !magicOk f) s

/-- REQUEST_BAD_CRC: the next frame, where its MAGIC is right and its CRC is not. -/
def execRequestBadCrc (s : State) : Res := readIf (fun f => magicOk f && !crcOk f) s

/-- UNDEFINED_OPCODE_REQUEST: the next frame, where it asks for an undefined opcode. -/
def execUndefinedOpcodeRequest (s : State) : Res :=
  readIf (fun f => magicOk f && crcOk f && !opInService s (frameOp f)) s

/-! ### Held responses (R54) -/

/-- A held response written into its slot and the index advanced. -/
def sendHeld (ch : Nat) (f : Bytes) (rest : List Bytes) (s : State) : State :=
  raise (evMbxRsp + ch) (onChan ch (fun c => { c with held := rest, rspProd := (c.rspProd + 1) % 64 })
    { s with mbx.ring := memWrites s.mbx.ring (rspBase ch + (chan s ch).rspProd % 32 * 4096) f })

/-- RESPONSE_WRITE: the oldest held response into a freed slot. -/
def execResponseWrite (ch : Nat) (s : State) : Res :=
  .next (match (chan s ch).held with
    | f :: rest => if rspFull (chan s ch) || (chan s ch).binding != 0 then s else sendHeld ch f rest s
    | [] => s)

/-! ### The end of an accepted command (R66) -/

/-- What the work of an accepted command comes to at its end; none while a clear has not taken effect (R493). -/
def finishWork (w : Running) (s : State) : Option Reply :=
  match w.work with
  | .lifecycle => some (.ok s)
  | .activate target =>
    let a := activate target s
    some ⟨a.1, a.2, []⟩
  | .render m mseq format offset => some (renderWork w.req.ch m mseq format offset s)
  | .write slot key => some (.ok (installKey slot key { s with keys.busy := s.keys.busy.erase slot }))
  | .sign alg material digest => some (.ok s (Config.sign alg material digest))
  | .attest nonce => some (.ok s (attestReply s nonce))
  | .clear => match s.recd.clear with
    | some c => if c.done then some (.ok (finishClear s)) else none
    | none => none

/-- The work of a command abandoned: what would otherwise complete later never takes effect (R66). -/
def abandon (w : Work) (s : State) : State :=
  match w with
  | .lifecycle => noteOpenTransition { s with sys.lcPending := none }
  | .write slot _ => { s with keys.busy := s.keys.busy.erase slot }
  | .clear => { s with recd.clear := none }
  | .activate _ | .render _ _ _ _ | .sign _ _ _ | .attest _ => s

/-- The oldest command that runs on without its channel and was accepted on this channel and tag (R55). -/
def orphanAt (s : State) (ch tag : Nat) : Option Running := s.mbx.orphans.find? fun w => w.req.ch == ch && w.req.tag == tag

/-- The list without its first entry of a channel and tag. -/
def dropOrphan (ch tag : Nat) (s : State) : State :=
  { s with mbx.orphans := s.mbx.orphans.eraseP fun w => w.req.ch == ch && w.req.tag == tag }

/-- COMMAND_COMPLETION: the work takes effect and its final response goes; that of a reset channel goes nowhere (R55). -/
def execCommandCompletion (ch tag : Nat) (s : State) : Res :=
  .next (match orphanAt s ch tag with
    | some w => match finishWork w s with
      | some p => dropOrphan ch tag p.state
      | none => s
    | none => match runningAt s ch tag with
      | some w => match finishWork w s with
        | some p => settle w p.status p.payload p.state
        | none => s
      | none => s)

/-- COMMAND_TIMEOUT: ST_TIMEOUT is the final response, and the work is abandoned (R66). -/
def execCommandTimeout (ch tag : Nat) (s : State) : Res :=
  .next (match orphanAt s ch tag with
    | some w => dropOrphan ch tag (abandon w.work s)
    | none => match runningAt s ch tag with
      | some w => settle w stTimeout [] (abandon w.work s)
      | none => s)

/-! ### Ethernet channels (R56 to R58, R472) -/

/-- A client's certificate or raw public key verifies against a slot of USAGE 0x0B (R472). -/
def clientKnown (s : State) (t : TlsOffer) : Bool :=
  t.clientKey != [] && match t.clientCert with
    | none => (anchors s 0x0B).contains t.clientKey
    | some c => c.key == t.clientKey && ((anchors s 0x0B).contains c.key || anchored (anchors s 0x0B) c)

/-- The signature algorithms that a key of an algorithm code makes in TLS (R57). -/
def sigAlgOf (alg : Nat) : SigAlg := if alg = 0x11 then .ecdsaSecp384r1Sha384 else if alg = 0x13 then .ed448 else .other

/-- The slot of USAGE 0x0A whose private key makes a signature that the client accepts (R57, R466, table of usages). DESIGN CHOICE
(log entry 31): of several it is the one with the lowest number. -/
def serverSlot (s : State) (accepts : List SigAlg) : Option Nat :=
  (List.range 256).find? fun n => mayInvoke s n (fun k => k.usage == 0x0A && keyPrivate k && sigAlgOf k.alg != .other &&
    accepts.contains (sigAlgOf k.alg)) byApplication

/-- A TLS handshake is completed (R57, R472): version 1.3, a cipher suite and a key exchange of the two of each, and both ends
authenticated by one of the two signature algorithms. -/
def tlsAccepted (s : State) (t : TlsOffer) : Bool :=
  t.version == 13 && (t.suites.any (· != .other)) && (t.exchanges.any (· != .other)) && t.clientSig != .other &&
    clientKnown s t && (serverSlot s t.accepts).isSome

/-- The connection comes to port 50,820 on a configured address of the interface, and in the VID, that the channel is bound to (R56, R213). -/
def endpointOk (s : State) (ch : Nat) (c : Connection) : Bool :=
  c.eth < 2 && (chan s ch).binding == c.eth + 1 && c.port == 50820 && (nth s.cfg.ethAddresses c.eth).contains c.address &&
    c.vid == nth s.cfg.bindingVid ch

/-- A connection for a channel is accepted (R56 to R58). DESIGN CHOICE (log entry 31): a channel with ENABLE 0 accepts none. -/
def connectionAllowed (s : State) (ch : Nat) (c : Connection) : Bool :=
  serves s ch && endpointOk s ch c && !(chan s ch).connected &&
    match c.tls with
    | none => s.cfg.plainTcp && (lifecycle s == lcManufacture || lifecycle s == lcIntegration)
    | some t => tlsAccepted s t

/-- MBX_CONNECTION_OPEN. -/
def execMbxConnectionOpen (ch : Nat) (conn : Connection) (s : State) : Res :=
  .next (if connectionAllowed s ch conn then
    raise evMbxLink (onChan ch (fun c => { c with
      connected := true, plain := conn.tls.isNone, tlsSlot := conn.tls.bind fun t => serverSlot s t.accepts }) s)
  else s)

/-- A channel has a live connection, whether it is enabled or not (R58). -/
def connectedOn (s : State) (ch : Nat) : Bool := s.sys.live && ch < 4 && (chan s ch).connected

/-- MBX_STREAM_FRAME: a frame whose header is good waits on the stream; another ends the connection (R58). DESIGN CHOICE (log
entry 31): on a channel with ENABLE 0 a good frame is dropped. -/
def execMbxStreamFrame (ch : Nat) (frame : Bytes) (s : State) : Res :=
  .next (if !connectedOn s ch then s
    else if !magicOk (streamFrame frame) then badMagic ch s
    else if 4064 < g16 frame 8 then endConnection ch (count ch statFraming (count ch statFrames s))
    else if !(chan s ch).enable then s
    else onChan ch (fun c => { c with streamIn := c.streamIn ++ [frame] }) s)

/-- MBX_KEEPALIVE_EXPIRY: three probes unanswered. -/
def execMbxKeepaliveExpiry (ch : Nat) (s : State) : Res := .next (if connectedOn s ch then endConnection ch s else s)

/-- MBX_CONNECTION_CLOSED: the peer has ended the connection. -/
def execMbxConnectionClosed (ch : Nat) (s : State) : Res := .next (if connectedOn s ch then endConnection ch s else s)

end Sys2Proof.Machine
end

