-- ==== Sys2Proof/Machine/Dispatch.lean ====
section
/-!
DEFINITION. One arm per command: a direct call of its meaning.
-/
namespace Sys2Proof.Machine

def exec (i : Instr) (s : State) : Host.Outcome State Fault Refusal :=
  match i with
  | .sysEchoPayload r data => Sys2Proof.Machine.execSysEchoPayload r data s
  | .sysOpenCredential r kind slot eph sig => Sys2Proof.Machine.execSysOpenCredential r kind slot eph sig s
  | .sysCloseCredential r handle => Sys2Proof.Machine.execSysCloseCredential r handle s
  | .sysGetChannelStats r channel => Sys2Proof.Machine.execSysGetChannelStats r channel s
  | .sysGetBootInfo r => Sys2Proof.Machine.execSysGetBootInfo r s
  | .sysResetPart r => Sys2Proof.Machine.execSysResetPart r s
  | .sysEnterKickstand r => Sys2Proof.Machine.execSysEnterKickstand r s
  | .sysGetKickstand r => Sys2Proof.Machine.execSysGetKickstand r s
  | .sysReleaseKickstand r => Sys2Proof.Machine.execSysReleaseKickstand r s
  | .sysGetLifecycle r => Sys2Proof.Machine.execSysGetLifecycle r s
  | .sysSetLifecycle r target token => Sys2Proof.Machine.execSysSetLifecycle r target token s
  | .sysWriteImage r target offset data => Sys2Proof.Machine.execSysWriteImage r target offset data s
  | .sysActivateImage r target => Sys2Proof.Machine.execSysActivateImage r target s
  | .sysConfirmImage r => Sys2Proof.Machine.execSysConfirmImage r s
  | .alcGetStatus r => Sys2Proof.Machine.execAlcGetStatus r s
  | .alcSetRules r first count rules => Sys2Proof.Machine.execAlcSetRules r first count rules s
  | .alcGetRules r table first count => Sys2Proof.Machine.execAlcGetRules r table first count s
  | .alcCommitRules r => Sys2Proof.Machine.execAlcCommitRules r s
  | .alcSetSiteLimits r imp exp validity => Sys2Proof.Machine.execAlcSetSiteLimits r imp exp validity s
  | .alcSetSessionClass r outlet cls => Sys2Proof.Machine.execAlcSetSessionClass r outlet cls s
  | .alcGetGrants r => Sys2Proof.Machine.execAlcGetGrants r s
  | .alcGetInputs r outlet => Sys2Proof.Machine.execAlcGetInputs r outlet s
  | .alcGetAssignment r => Sys2Proof.Machine.execAlcGetAssignment r s
  | .alcSetStageService r position action => Sys2Proof.Machine.execAlcSetStageService r position action s
  | .cadGetGroup r group => Sys2Proof.Machine.execCadGetGroup r group s
  | .cadGetLoop r loop => Sys2Proof.Machine.execCadGetLoop r loop s
  | .cadClearFlags r loops flags => Sys2Proof.Machine.execCadClearFlags r loops flags s
  | .cadSetReference r number value => Sys2Proof.Machine.execCadSetReference r number value s
  | .cadReleaseGroup r group => Sys2Proof.Machine.execCadReleaseGroup r group s
  | .cadStageDescriptor r descriptor offset data => Sys2Proof.Machine.execCadStageDescriptor r descriptor offset data s
  | .cadCommitGroup r group => Sys2Proof.Machine.execCadCommitGroup r group s
  | .chrGetRing r ring => Sys2Proof.Machine.execChrGetRing r ring s
  | .chrGetStage r position => Sys2Proof.Machine.execChrGetStage r position s
  | .chrClearCounters r ring => Sys2Proof.Machine.execChrClearCounters r ring s
  | .outGetLink r slot => Sys2Proof.Machine.execOutGetLink r slot s
  | .outGetLinkStats r slot => Sys2Proof.Machine.execOutGetLinkStats r slot s
  | .outClearLinkStats r slot => Sys2Proof.Machine.execOutClearLinkStats r slot s
  | .outSetPilotTest r slot drive => Sys2Proof.Machine.execOutSetPilotTest r slot drive s
  | .outGetSession r slot => Sys2Proof.Machine.execOutGetSession r slot s
  | .outAuthorise r slot decision cls validity ident => Sys2Proof.Machine.execOutAuthorise r slot decision cls validity ident s
  | .outStopSession r slot => Sys2Proof.Machine.execOutStopSession r slot s
  | .outSetAvailability r slot mode => Sys2Proof.Machine.execOutSetAvailability r slot mode s
  | .outClearWeld r slot => Sys2Proof.Machine.execOutClearWeld r slot s
  | .outGetChecks r slot => Sys2Proof.Machine.execOutGetChecks r slot s
  | .outRenegotiate r slot => Sys2Proof.Machine.execOutRenegotiate r slot s
  | .heatGetInput r kind index => Sys2Proof.Machine.execHeatGetInput r kind index s
  | .heatGetOutlet r slot => Sys2Proof.Machine.execHeatGetOutlet r slot s
  | .heatGetThresholds r first count => Sys2Proof.Machine.execHeatGetThresholds r first count s
  | .heatAckSensor r kind index => Sys2Proof.Machine.execHeatAckSensor r kind index s
  | .heatGetDie r => Sys2Proof.Machine.execHeatGetDie r s
  | .mtrGetRegisters r point => Sys2Proof.Machine.execMtrGetRegisters r point s
  | .mtrGetPoint r point => Sys2Proof.Machine.execMtrGetPoint r point s
  | .mtrGetRecord r mseq => Sys2Proof.Machine.execMtrGetRecord r mseq s
  | .mtrRenderRecord r mseq format offset => Sys2Proof.Machine.execMtrRenderRecord r mseq format offset s
  | .mtrAckRecords r mseq => Sys2Proof.Machine.execMtrAckRecords r mseq s
  | .mtrSetWallTime r mode wall => Sys2Proof.Machine.execMtrSetWallTime r mode wall s
  | .mtrWriteParameters r kind index block => Sys2Proof.Machine.execMtrWriteParameters r kind index block s
  | .mtrSealParameters r => Sys2Proof.Machine.execMtrSealParameters r s
  | .mtrGetLegalId r => Sys2Proof.Machine.execMtrGetLegalId r s
  | .mtrReadParameters r kind index => Sys2Proof.Machine.execMtrReadParameters r kind index s
  | .spkGetStatus r => Sys2Proof.Machine.execSpkGetStatus r s
  | .spkGetNodes r => Sys2Proof.Machine.execSpkGetNodes r s
  | .spkGetLink r peer => Sys2Proof.Machine.execSpkGetLink r peer s
  | .spkClearStats r peer => Sys2Proof.Machine.execSpkClearStats r peer s
  | .safGetStatus r => Sys2Proof.Machine.execSafGetStatus r s
  | .safGetInstance r index => Sys2Proof.Machine.execSafGetInstance r index s
  | .safGetInput r input => Sys2Proof.Machine.execSafGetInput r input s
  | .safGetPair r pair => Sys2Proof.Machine.execSafGetPair r pair s
  | .safReset r mask part => Sys2Proof.Machine.execSafReset r mask part s
  | .safSetOutput r pair request => Sys2Proof.Machine.execSafSetOutput r pair request s
  | .safDoorLock r index action => Sys2Proof.Machine.execSafDoorLock r index action s
  | .safGetLink r conn => Sys2Proof.Machine.execSafGetLink r conn s
  | .safCfgGet r => Sys2Proof.Machine.execSafCfgGet r s
  | .safCfgRead r copy kind index => Sys2Proof.Machine.execSafCfgRead r copy kind index s
  | .safCfgOpen r password => Sys2Proof.Machine.execSafCfgOpen r password s
  | .safCfgWrite r kind index block => Sys2Proof.Machine.execSafCfgWrite r kind index block s
  | .safCfgCommit r => Sys2Proof.Machine.execSafCfgCommit r s
  | .safCfgClose r => Sys2Proof.Machine.execSafCfgClose r s
  | .safCfgAck r signature password => Sys2Proof.Machine.execSafCfgAck r signature password s
  | .safCfgSetPassword r old new => Sys2Proof.Machine.execSafCfgSetPassword r old new s
  | .safCfgGetLog r first count => Sys2Proof.Machine.execSafCfgGetLog r first count s
  | .ldcGetChannel r channel => Sys2Proof.Machine.execLdcGetChannel r channel s
  | .ldcSetChannel r channel request => Sys2Proof.Machine.execLdcSetChannel r channel request s
  | .ldcSetDuty r generator duty => Sys2Proof.Machine.execLdcSetDuty r generator duty s
  | .ldcClearFault r mask => Sys2Proof.Machine.execLdcClearFault r mask s
  | .ldcGetPackage r => Sys2Proof.Machine.execLdcGetPackage r s
  | .stkGetStatus r => Sys2Proof.Machine.execStkGetStatus r s
  | .stkGetCompanion r chain position => Sys2Proof.Machine.execStkGetCompanion r chain position s
  | .stkSetSoc r string soc => Sys2Proof.Machine.execStkSetSoc r string soc s
  | .stkClearFault r chain position => Sys2Proof.Machine.execStkClearFault r chain position s
  | .keyGetSlot r slot => Sys2Proof.Machine.execKeyGetSlot r slot s
  | .keyGenerate r slot attr label => Sys2Proof.Machine.execKeyGenerate r slot attr label s
  | .keyImport r slot attr label offset final data => Sys2Proof.Machine.execKeyImport r slot attr label offset final data s
  | .keyDerive r parent child attr label => Sys2Proof.Machine.execKeyDerive r parent child attr label s
  | .keyRevoke r slot => Sys2Proof.Machine.execKeyRevoke r slot s
  | .keyErase r slot => Sys2Proof.Machine.execKeyErase r slot s
  | .keyExport r slot => Sys2Proof.Machine.execKeyExport r slot s
  | .keySign r slot digest => Sys2Proof.Machine.execKeySign r slot digest s
  | .keyAttest r nonce => Sys2Proof.Machine.execKeyAttest r nonce s
  | .keyGetCertificate r which offset => Sys2Proof.Machine.execKeyGetCertificate r which offset s
  | .recGetInfo r => Sys2Proof.Machine.execRecGetInfo r s
  | .recRead r part start limit count => Sys2Proof.Machine.execRecRead r part start limit count s
  | .recGetLimits r => Sys2Proof.Machine.execRecGetLimits r s
  | .recGetChallenge r => Sys2Proof.Machine.execRecGetChallenge r s
  | .recClear r part limit kind sig => Sys2Proof.Machine.execRecClear r part limit kind sig s
  | .recWriteNote r note => Sys2Proof.Machine.execRecWriteNote r note s
  | .tdmGetStatus r => Sys2Proof.Machine.execTdmGetStatus r s
  | .tdmSwitchOver r => Sys2Proof.Machine.execTdmSwitchOver r s
  | .tdmGetPeloton r => Sys2Proof.Machine.execTdmGetPeloton r s
  | .undefinedOpcodeRequest => Sys2Proof.Machine.execUndefinedOpcodeRequest s
  | .requestBadMagic => Sys2Proof.Machine.execRequestBadMagic s
  | .requestBadCrc => Sys2Proof.Machine.execRequestBadCrc s
  | .qspiUnknownInstruction instruction data => Sys2Proof.Machine.execQspiUnknownInstruction instruction data s
  | .chnReqProdWrite ch value => Sys2Proof.Machine.execChnReqProdWrite ch value s
  | .chnRspConsWrite ch value => Sys2Proof.Machine.execChnRspConsWrite ch value s
  | .chnCtrlReset ch => Sys2Proof.Machine.execChnCtrlReset ch s
  | .chnCtrlEnable ch on => Sys2Proof.Machine.execChnCtrlEnable ch on s
  | .winErrClear value set => Sys2Proof.Machine.execWinErrClear value set s
  | .evPendClear m value set => Sys2Proof.Machine.execEvPendClear m value set s
  | .bellCtrlWrite value => Sys2Proof.Machine.execBellCtrlWrite value s
  | .registerWrite address data => Sys2Proof.Machine.execRegisterWrite address data s
  | .requestRead => Sys2Proof.Machine.execRequestRead s
  | .responseWrite ch => Sys2Proof.Machine.execResponseWrite ch s
  | .commandCompletion ch tag => Sys2Proof.Machine.execCommandCompletion ch tag s
  | .commandTimeout ch tag => Sys2Proof.Machine.execCommandTimeout ch tag s
  | .mbxConnectionOpen ch conn => Sys2Proof.Machine.execMbxConnectionOpen ch conn s
  | .mbxStreamFrame ch frame => Sys2Proof.Machine.execMbxStreamFrame ch frame s
  | .mbxKeepaliveExpiry ch => Sys2Proof.Machine.execMbxKeepaliveExpiry ch s
  | .mbxConnectionClosed ch => Sys2Proof.Machine.execMbxConnectionClosed ch s
  | .resetNAssert => Sys2Proof.Machine.execResetNAssert s
  | .resetNRelease role node heldMs => Sys2Proof.Machine.execResetNRelease role node heldMs s
  | .powerOnResetRelease role node vddioMv cold => Sys2Proof.Machine.execPowerOnResetRelease role node vddioMv cold s
  | .coreUndervoltageReset => Sys2Proof.Machine.execCoreUndervoltageReset s
  | .railFaultReset rail => Sys2Proof.Machine.execRailFaultReset rail s
  | .housekeepingWatchdogReset => Sys2Proof.Machine.execHousekeepingWatchdogReset s
  | .commandReset => Sys2Proof.Machine.execCommandReset s
  | .wipeComplete zero => Sys2Proof.Machine.execWipeComplete zero s
  | .imagesVerified => Sys2Proof.Machine.execImagesVerified s
  | .selfTestComplete result => Sys2Proof.Machine.execSelfTestComplete result s
  | .lifecycleTransition => Sys2Proof.Machine.execLifecycleTransition s
  | .pfwNAssert => Sys2Proof.Machine.execPfwNAssert s
  | .pfwCauseGone => Sys2Proof.Machine.execPfwCauseGone s
  | .kickstandCauseGone cause => Sys2Proof.Machine.execKickstandCauseGone cause s
  | .supplyBelowGuaranteed below => Sys2Proof.Machine.execSupplyBelowGuaranteed below s
  | .referenceClockFault => Sys2Proof.Machine.execReferenceClockFault s
  | .rtcCrystalLost => Sys2Proof.Machine.execRtcCrystalLost s
  | .firewallViolation engine address write => Sys2Proof.Machine.execFirewallViolation engine address write s
  | .sramUncorrectableError engine => Sys2Proof.Machine.execSramUncorrectableError engine s
  | .norReadError sector bothBad => Sys2Proof.Machine.execNorReadError sector bothBad s
  | .norScrub corrected => Sys2Proof.Machine.execNorScrub corrected s
  | .epochBoundary written => Sys2Proof.Machine.execEpochBoundary written s
  | .alcLateZeroCeilings => Sys2Proof.Machine.execAlcLateZeroCeilings s
  | .alcInputStale input outlet => Sys2Proof.Machine.execAlcInputStale input outlet s
  | .alcSiteLimitExpiry => Sys2Proof.Machine.execAlcSiteLimitExpiry s
  | .stageReleaseDelay outlet => Sys2Proof.Machine.execStageReleaseDelay outlet s
  | .matrixConfirmTimeout position => Sys2Proof.Machine.execMatrixConfirmTimeout position s
  | .controlTick group => Sys2Proof.Machine.execControlTick group s
  | .groupOverrun group completed => Sys2Proof.Machine.execGroupOverrun group completed s
  | .zeroHoldComplete group => Sys2Proof.Machine.execZeroHoldComplete group s
  | .chainringFrameReturn ring line => Sys2Proof.Machine.execChainringFrameReturn ring line s
  | .stageLost position => Sys2Proof.Machine.execStageLost position s
  | .stagePresent position => Sys2Proof.Machine.execStagePresent position s
  | .ringBroken ring => Sys2Proof.Machine.execRingBroken ring s
  | .pilotPeriodEnd slot vPlus vMinus pps => Sys2Proof.Machine.execPilotPeriodEnd slot vPlus vMinus pps s
  | .pilotStateConfirmed slot => Sys2Proof.Machine.execPilotStateConfirmed slot s
  | .proximityClassConfirmed slot => Sys2Proof.Machine.execProximityClassConfirmed slot s
  | .outletCCodeConfirmed => Sys2Proof.Machine.execOutletCCodeConfirmed s
  | .cmSlacParamReq slot mac runId => Sys2Proof.Machine.execCmSlacParamReq slot mac runId s
  | .slacSoundsReceived slot runId sounds => Sys2Proof.Machine.execSlacSoundsReceived slot runId sounds s
  | .cmValidate slot => Sys2Proof.Machine.execCmValidate slot s
  | .cmSlacMatchReq slot mac runId => Sys2Proof.Machine.execCmSlacMatchReq slot mac runId s
  | .t1sFrameReceived slot event => Sys2Proof.Machine.execT1sFrameReceived slot event s
  | .t1sLinkTimeout slot => Sys2Proof.Machine.execT1sLinkTimeout slot s
  | .bridgeGpioChange gpio level => Sys2Proof.Machine.execBridgeGpioChange gpio level s
  | .sessionSequencerStep slot protocolError => Sys2Proof.Machine.execSessionSequencerStep slot protocolError s
  | .sdpRequest slot vid => Sys2Proof.Machine.execSdpRequest slot vid s
  | .supportedAppProtocolReq slot offers => Sys2Proof.Machine.execSupportedAppProtocolReq slot offers s
  | .tlsHandshakeComplete slot keySlot hello => Sys2Proof.Machine.execTlsHandshakeComplete slot keySlot hello s
  | .authorizationReq slot method ident chain => Sys2Proof.Machine.execAuthorizationReq slot method ident chain s
  | .authTimeoutExpiry slot => Sys2Proof.Machine.execAuthTimeoutExpiry slot s
  | .authValidityExpiry slot => Sys2Proof.Machine.execAuthValidityExpiry slot s
  | .cableCheckReq slot vMax => Sys2Proof.Machine.execCableCheckReq slot vMax s
  | .prechargeReq slot target => Sys2Proof.Machine.execPrechargeReq slot target s
  | .powerDeliveryStartReq slot discharge => Sys2Proof.Machine.execPowerDeliveryStartReq slot discharge s
  | .powerDeliveryStopReq slot => Sys2Proof.Machine.execPowerDeliveryStopReq slot s
  | .directionChangeReq slot exporting => Sys2Proof.Machine.execDirectionChangeReq slot exporting s
  | .weldingDetectionReq slot => Sys2Proof.Machine.execWeldingDetectionReq slot s
  | .vehicleRenegotiationReq slot schedule => Sys2Proof.Machine.execVehicleRenegotiationReq slot schedule s
  | .grantReceived grant => Sys2Proof.Machine.execGrantReceived grant s
  | .contactorConfirmed slot => Sys2Proof.Machine.execContactorConfirmed slot s
  | .contactorConfirmTimeout slot => Sys2Proof.Machine.execContactorConfirmTimeout slot s
  | .weldTestStepRead slot => Sys2Proof.Machine.execWeldTestStepRead slot s
  | .postcheckGrantTimeout slot => Sys2Proof.Machine.execPostcheckGrantTimeout slot s
  | .imdSettleComplete slot => Sys2Proof.Machine.execImdSettleComplete slot s
  | .cableCheckMaxExpiry slot => Sys2Proof.Machine.execCableCheckMaxExpiry slot s
  | .prechargeTimeout slot => Sys2Proof.Machine.execPrechargeTimeout slot s
  | .renegHoldExpiry slot => Sys2Proof.Machine.execRenegHoldExpiry slot s
  | .outletCurrentAtOpen slot => Sys2Proof.Machine.execOutletCurrentAtOpen slot s
  | .endTimeoutExpiry slot => Sys2Proof.Machine.execEndTimeoutExpiry slot s
  | .urgentStop100msExpiry slot => Sys2Proof.Machine.execUrgentStop100msExpiry slot s
  | .hubLost => Sys2Proof.Machine.execHubLost s
  | .heatSamplePoint ohms edges => Sys2Proof.Machine.execHeatSamplePoint ohms edges s
  | .thresholdCrossed index => Sys2Proof.Machine.execThresholdCrossed index s
  | .thresholdRearmed index => Sys2Proof.Machine.execThresholdRearmed index s
  | .sensorRecovered kind index => Sys2Proof.Machine.execSensorRecovered kind index s
  | .dieSample readings => Sys2Proof.Machine.execDieSample readings s
  | .dieThermalShutdown => Sys2Proof.Machine.execDieThermalShutdown s
  | .shutdownSupervisorReading readings => Sys2Proof.Machine.execShutdownSupervisorReading readings s
  | .shutdownHoldEnd role node => Sys2Proof.Machine.execShutdownHoldEnd role node s
  | .meteringSample bits => Sys2Proof.Machine.execMeteringSample bits s
  | .meterChannelFaulted channel => Sys2Proof.Machine.execMeterChannelFaulted channel s
  | .meterChannelValid channel => Sys2Proof.Machine.execMeterChannelValid channel s
  | .directionEstablished point => Sys2Proof.Machine.execDirectionEstablished point s
  | .operatingSecond corrected => Sys2Proof.Machine.execOperatingSecond corrected s
  | .intervalClose point => Sys2Proof.Machine.execIntervalClose point s
  | .wallTimeStepEffect => Sys2Proof.Machine.execWallTimeStepEffect s
  | .testPulseStart output => Sys2Proof.Machine.execTestPulseStart output s
  | .zxEdge time width => Sys2Proof.Machine.execZxEdge time width s
  | .zxFreeRun => Sys2Proof.Machine.execZxFreeRun s
  | .zxResync => Sys2Proof.Machine.execZxResync s
  | .beaconTransmit => Sys2Proof.Machine.execBeaconTransmit s
  | .beaconReceived time beacon => Sys2Proof.Machine.execBeaconReceived time beacon s
  | .beaconLost => Sys2Proof.Machine.execBeaconLost s
  | .slotTransmit => Sys2Proof.Machine.execSlotTransmit s
  | .slotReceived slot => Sys2Proof.Machine.execSlotReceived slot s
  | .nodeSilent node => Sys2Proof.Machine.execNodeSilent node s
  | .postLost post => Sys2Proof.Machine.execPostLost post s
  | .contentionAccess medium => Sys2Proof.Machine.execContentionAccess medium s
  | .dataBurstReceived burst => Sys2Proof.Machine.execDataBurstReceived burst s
  | .acknowledgementReceived ack => Sys2Proof.Machine.execAcknowledgementReceived ack s
  | .acknowledgementMissing peer => Sys2Proof.Machine.execAcknowledgementMissing peer s
  | .toneMapUpdate peer => Sys2Proof.Machine.execToneMapUpdate peer s
  | .toneMapReceived peer ident rate span backoff carriers => Sys2Proof.Machine.execToneMapReceived peer ident rate span backoff carriers s
  | .joinRequest requests => Sys2Proof.Machine.execJoinRequest requests s
  | .joinDecision hub decisions => Sys2Proof.Machine.execJoinDecision hub decisions s
  | .powerFailNotice post => Sys2Proof.Machine.execPowerFailNotice post s
  | .switchingWindowOpen => Sys2Proof.Machine.execSwitchingWindowOpen s
  | .noBeacon60s => Sys2Proof.Machine.execNoBeacon60s s
  | .islandEth0Frame slot => Sys2Proof.Machine.execIslandEth0Frame slot s
  | .bridgedEthernetFrame fromEth vid etherType data => Sys2Proof.Machine.execBridgedEthernetFrame fromEth vid etherType data s
  | .safetyTick s0 s1 loops sense vsout => Sys2Proof.Machine.execSafetyTick s0 s1 loops sense vsout s
  | .safetyEdgeMissed core => Sys2Proof.Machine.execSafetyEdgeMissed core s
  | .vddSafeOutOfRange => Sys2Proof.Machine.execVddSafeOutOfRange s
  | .testSample tp samples => Sys2Proof.Machine.execTestSample tp samples s
  | .discrepancyLate input => Sys2Proof.Machine.execDiscrepancyLate input s
  | .resetInputPress input => Sys2Proof.Machine.execResetInputPress input s
  | .twoHandLate index => Sys2Proof.Machine.execTwoHandLate index s
  | .muteMaxExpiry index => Sys2Proof.Machine.execMuteMaxExpiry index s
  | .lockFeedbackTimeout index => Sys2Proof.Machine.execLockFeedbackTimeout index s
  | .unlockDelayExpiry index => Sys2Proof.Machine.execUnlockDelayExpiry index s
  | .maxRampExpiry pair => Sys2Proof.Machine.execMaxRampExpiry pair s
  | .darkTest pair vHigh vLow vsout => Sys2Proof.Machine.execDarkTest pair vHigh vLow vsout s
  | .pairOvercurrent pair => Sys2Proof.Machine.execPairOvercurrent pair s
  | .vsoutRangeChange inRange => Sys2Proof.Machine.execVsoutRangeChange inRange s
  | .safetyFramePoint => Sys2Proof.Machine.execSafetyFramePoint s
  | .safetyCopyReceived path frame tag => Sys2Proof.Machine.execSafetyCopyReceived path frame tag s
  | .skewWindowClose conn => Sys2Proof.Machine.execSkewWindowClose conn s
  | .transportWatchdogExpiry conn => Sys2Proof.Machine.execTransportWatchdogExpiry conn s
  | .degradedHoldExpiry conn => Sys2Proof.Machine.execDegradedHoldExpiry conn s
  | .transportFaultClear conn => Sys2Proof.Machine.execTransportFaultClear conn s
  | .editSessionTimeout => Sys2Proof.Machine.execEditSessionTimeout s
  | .passwordLockoutEnd => Sys2Proof.Machine.execPasswordLockoutEnd s
  | .ldcDiagnosticEval vload readings => Sys2Proof.Machine.execLdcDiagnosticEval vload readings s
  | .ldcShortToGround channel => Sys2Proof.Machine.execLdcShortToGround channel s
  | .ldcOvertemperature channel => Sys2Proof.Machine.execLdcOvertemperature channel s
  | .ldcLatchClear channel => Sys2Proof.Machine.execLdcLatchClear channel s
  | .ldcRetryDelayExpiry channel => Sys2Proof.Machine.execLdcRetryDelayExpiry channel s
  | .ldcRetryReload channel => Sys2Proof.Machine.execLdcRetryReload channel s
  | .ldcSwitchOnAdmitted channel => Sys2Proof.Machine.execLdcSwitchOnAdmitted channel s
  | .loadWatchdogTrip core => Sys2Proof.Machine.execLoadWatchdogTrip core s
  | .loadWatchdogTest openUs closeUs => Sys2Proof.Machine.execLoadWatchdogTest openUs closeUs s
  | .vloadRangeChange inRange => Sys2Proof.Machine.execVloadRangeChange inRange s
  | .stackSweep => Sys2Proof.Machine.execStackSweep s
  | .readAllReturn chain atB frame => Sys2Proof.Machine.execReadAllReturn chain atB frame s
  | .readAllTimeout chain => Sys2Proof.Machine.execReadAllTimeout chain s
  | .enumerateReturn chain counter turned companions => Sys2Proof.Machine.execEnumerateReturn chain counter turned companions s
  | .enumerationRetry chain => Sys2Proof.Machine.execEnumerationRetry chain s
  | .balanceCycle => Sys2Proof.Machine.execBalanceCycle s
  | .faultLoopOpen chain => Sys2Proof.Machine.execFaultLoopOpen chain s
  | .faultLoopPermitReturn chain => Sys2Proof.Machine.execFaultLoopPermitReturn chain s
  | .norRecordCopy count => Sys2Proof.Machine.execNorRecordCopy count s
  | .rateLimitWindowEnd code => Sys2Proof.Machine.execRateLimitWindowEnd code s
  | .recordClearEffect => Sys2Proof.Machine.execRecordClearEffect s
  | .heartbeatAbsent => Sys2Proof.Machine.execHeartbeatAbsent s
  | .authorityClaim => Sys2Proof.Machine.execAuthorityClaim s
  | .claimGuardEnd partnerHigh => Sys2Proof.Machine.execClaimGuardEnd partnerHigh s
  | .bootClaimWaitEnd => Sys2Proof.Machine.execBootClaimWaitEnd s
  | .authorityTimerExpiry => Sys2Proof.Machine.execAuthorityTimerExpiry s
  | .partnerAuthLost heartbeat => Sys2Proof.Machine.execPartnerAuthLost heartbeat s
  | .fenceResolved => Sys2Proof.Machine.execFenceResolved s
  | .shadowFrameReceived frame => Sys2Proof.Machine.execShadowFrameReceived frame s
  | .shadowFramesMissing => Sys2Proof.Machine.execShadowFramesMissing s
  | .bulkTransferReceived rules groups loops authGen period => Sys2Proof.Machine.execBulkTransferReceived rules groups loops authGen period s
  | .standbyEligible => Sys2Proof.Machine.execStandbyEligible s
  | .switchOverBoundary => Sys2Proof.Machine.execSwitchOverBoundary s
  | .pelotonFrame slot frame => Sys2Proof.Machine.execPelotonFrame slot frame s
  | .pelotonMemberLost member => Sys2Proof.Machine.execPelotonMemberLost member s
  | .pltSyncLost => Sys2Proof.Machine.execPltSyncLost s
  | .vbatAbsent => Sys2Proof.Machine.execVbatAbsent s
  | .vlineRangeChange inRange => Sys2Proof.Machine.execVlineRangeChange inRange s
  | .testPulseEnd output => Sys2Proof.Machine.execTestPulseEnd output s
  | .vehicleLoopRequest slot request => Sys2Proof.Machine.execVehicleLoopRequest slot request s
  | .vehicleNegotiationRequest slot service dynamic limits schedule => Sys2Proof.Machine.execVehicleNegotiationRequest slot service dynamic limits schedule s
  | .slacTimerExpiry slot => Sys2Proof.Machine.execSlacTimerExpiry slot s
  | .erroneousWindowRead address count => Sys2Proof.Machine.execErroneousWindowRead address count s
  | .partnerClaimSeen => Sys2Proof.Machine.execPartnerClaimSeen s

end Sys2Proof.Machine
end

