-- ==== Sys2Proof/WellFormed.lean ====
section
/-!
DEFINITION. Well-formed commands: every operand within the field that carries it, by the payload columns of the command
tables and the number ranges of the chapters. exec is total; an ill-formed operand stands for nothing that can arrive.
-/
namespace Sys2Proof

/-- A request header within its fields (frame header table). -/
def Req.wf (r : Req) : Bool := r.ch < 4 && r.tag < 32 && r.seq < 4294967296 && r.world < 256 && r.handle < 4294967296

/-- The attribute bytes of a key command. -/
def KeyAttr.wf (a : KeyAttr) : Bool :=
  a.alg < 256 && a.usage < 256 && a.masters < 256 && a.world < 256 && a.lifecycles < 256 && a.flags < 256

/-- LENGTH of a frame on a stream. -/
def slotLength (frame : Bytes) : Nat := (frame.getD 8 0).toNat + 256 * (frame.getD 9 0).toNat

/-- A POSITION byte: ring in bit 7, place 1 to 24 in the ring (R130). -/
def positionByte (p : Nat) : Bool := p < 256 && 1 ≤ p % 128 && p % 128 ≤ 24

/-- A command whose operands fit their fields. -/
def Instr.wf (i : Instr) : Bool :=
  match i with
  | .sysEchoPayload r data => r.wf && data.length ≤ 4064
  | .sysOpenCredential r kind slot eph sig => r.wf && kind < 256 && slot < 256 && eph.length == 56 && sig.len < 65536
  | .sysCloseCredential r handle => r.wf && handle < 4294967296
  | .sysGetChannelStats r channel => r.wf && channel < 256
  | .sysGetBootInfo r => r.wf
  | .sysResetPart r => r.wf
  | .sysEnterKickstand r => r.wf
  | .sysGetKickstand r => r.wf
  | .sysReleaseKickstand r => r.wf
  | .sysGetLifecycle r => r.wf
  | .sysSetLifecycle r target token => r.wf && target < 256 && token.target < 256 && token.sig.len ≤ 1400
  | .sysWriteImage r target offset data => r.wf && target < 256 && offset < 4294967296 && data.length ≤ 4059
  | .sysActivateImage r target => r.wf && target < 256
  | .sysConfirmImage r => r.wf
  | .alcGetStatus r => r.wf
  | .alcSetRules r first count rules => r.wf && first < 256 && count < 256 && rules.length ≤ 4062
  | .alcGetRules r table first count => r.wf && table < 256 && first < 256 && count < 256
  | .alcCommitRules r => r.wf
  | .alcSetSiteLimits r imp exp validity =>
    r.wf && -2147483648 ≤ imp && imp < 2147483648 && -2147483648 ≤ exp && exp < 2147483648 && validity < 65536
  | .alcSetSessionClass r outlet cls => r.wf && outlet < 256 && cls < 256
  | .alcGetGrants r => r.wf
  | .alcGetInputs r outlet => r.wf && outlet < 256
  | .alcGetAssignment r => r.wf
  | .alcSetStageService r position action => r.wf && position < 256 && action < 256
  | .cadGetGroup r group => r.wf && group < 256
  | .cadGetLoop r loop => r.wf && loop < 256
  | .cadClearFlags r loops flags => r.wf && loops < 18446744073709551616 && flags < 256
  | .cadSetReference r number value => r.wf && number < 256 && -2147483648 ≤ value && value < 2147483648
  | .cadReleaseGroup r group => r.wf && group < 256
  | .cadStageDescriptor r descriptor offset data => r.wf && descriptor < 256 && offset < 65536 && data.length ≤ 4061
  | .cadCommitGroup r group => r.wf && group < 256
  | .chrGetRing r ring => r.wf && ring < 256
  | .chrGetStage r position => r.wf && position < 256
  | .chrClearCounters r ring => r.wf && ring < 256
  | .outGetLink r slot => r.wf && slot < 256
  | .outGetLinkStats r slot => r.wf && slot < 256
  | .outClearLinkStats r slot => r.wf && slot < 256
  | .outSetPilotTest r slot drive => r.wf && slot < 256 && drive < 256
  | .outGetSession r slot => r.wf && slot < 256
  | .outAuthorise r slot decision cls validity ident => r.wf && slot < 256 && decision < 256 && cls < 256 && validity < 65536 && ident.length < 256
  | .outStopSession r slot => r.wf && slot < 256
  | .outSetAvailability r slot mode => r.wf && slot < 256 && mode < 256
  | .outClearWeld r slot => r.wf && slot < 256
  | .outGetChecks r slot => r.wf && slot < 256
  | .outRenegotiate r slot => r.wf && slot < 256
  | .heatGetInput r kind index => r.wf && kind < 256 && index < 256
  | .heatGetOutlet r slot => r.wf && slot < 256
  | .heatGetThresholds r first count => r.wf && first < 256 && count < 256
  | .heatAckSensor r kind index => r.wf && kind < 256 && index < 256
  | .heatGetDie r => r.wf
  | .mtrGetRegisters r point => r.wf && point < 256
  | .mtrGetPoint r point => r.wf && point < 256
  | .mtrGetRecord r mseq => r.wf && mseq < 18446744073709551616
  | .mtrRenderRecord r mseq format offset => r.wf && mseq < 18446744073709551616 && format < 256 && offset < 4294967296
  | .mtrAckRecords r mseq => r.wf && mseq < 18446744073709551616
  | .mtrSetWallTime r mode wall => r.wf && mode < 256 && -9223372036854775808 ≤ wall && wall < 9223372036854775808
  | .mtrWriteParameters r kind index block => r.wf && kind < 256 && index < 256 && block.length ≤ 4062
  | .mtrSealParameters r => r.wf
  | .mtrGetLegalId r => r.wf
  | .mtrReadParameters r kind index => r.wf && kind < 256 && index < 256
  | .spkGetStatus r => r.wf
  | .spkGetNodes r => r.wf
  | .spkGetLink r peer => r.wf && peer < 256
  | .spkClearStats r peer => r.wf && peer < 256
  | .safGetStatus r => r.wf
  | .safGetInstance r index => r.wf && index < 256
  | .safGetInput r input => r.wf && input < 256
  | .safGetPair r pair => r.wf && pair < 256
  | .safReset r mask part => r.wf && mask < 4294967296 && part < 256
  | .safSetOutput r pair request => r.wf && pair < 256 && request < 256
  | .safDoorLock r index action => r.wf && index < 256 && action < 256
  | .safGetLink r conn => r.wf && conn < 256
  | .safCfgGet r => r.wf
  | .safCfgRead r copy kind index => r.wf && copy < 256 && kind < 256 && index < 256
  | .safCfgOpen r password => r.wf && password.length < 256
  | .safCfgWrite r kind index block => r.wf && kind < 256 && index < 256 && block.length ≤ 4062
  | .safCfgCommit r => r.wf
  | .safCfgClose r => r.wf
  | .safCfgAck r signature password => r.wf && signature < 4294967296 && password.length < 256
  | .safCfgSetPassword r old new => r.wf && old.length < 256 && new.length < 256
  | .safCfgGetLog r first count => r.wf && first < 256 && count < 256
  | .ldcGetChannel r channel => r.wf && channel < 256
  | .ldcSetChannel r channel request => r.wf && channel < 256 && request < 256
  | .ldcSetDuty r generator duty => r.wf && generator < 256 && duty < 65536
  | .ldcClearFault r mask => r.wf && mask < 4294967296
  | .ldcGetPackage r => r.wf
  | .stkGetStatus r => r.wf
  | .stkGetCompanion r chain position => r.wf && chain < 256 && position < 256
  | .stkSetSoc r string soc => r.wf && string < 256 && soc < 65536
  | .stkClearFault r chain position => r.wf && chain < 256 && position < 256
  | .keyGetSlot r slot => r.wf && slot < 256
  | .keyGenerate r slot attr label => r.wf && slot < 256 && attr.wf && label.length == 32
  | .keyImport r slot attr label offset final data =>
    r.wf && slot < 256 && attr.wf && label.length == 32 && offset < 65536 && final < 256 && data.length ≤ 4022
  | .keyDerive r parent child attr label => r.wf && parent < 256 && child < 256 && attr.wf && label.length == 32
  | .keyRevoke r slot => r.wf && slot < 256
  | .keyErase r slot => r.wf && slot < 256
  | .keyExport r slot => r.wf && slot < 256
  | .keySign r slot digest => r.wf && slot < 256 && digest.length < 256
  | .keyAttest r nonce => r.wf && nonce.length == 32
  | .keyGetCertificate r which offset => r.wf && which < 256 && offset < 65536
  | .recGetInfo r => r.wf
  | .recRead r part start limit count =>
    r.wf && part < 256 && start < 18446744073709551616 && limit < 18446744073709551616 && count < 256
  | .recGetLimits r => r.wf
  | .recGetChallenge r => r.wf
  | .recClear r part limit kind sig => r.wf && part < 256 && limit < 18446744073709551616 && kind < 256 && sig.len < 65536
  | .recWriteNote r note => r.wf && note.length == 22
  | .tdmGetStatus r => r.wf
  | .tdmSwitchOver r => r.wf
  | .tdmGetPeloton r => r.wf
  | .undefinedOpcodeRequest => true
  | .requestBadMagic => true
  | .requestBadCrc => true
  | .qspiUnknownInstruction instruction _ => instruction < 256
  | .chnReqProdWrite ch _ => ch < 4
  | .chnRspConsWrite ch _ => ch < 4
  | .chnCtrlReset ch => ch < 4
  | .chnCtrlEnable ch _ => ch < 4
  | .winErrClear _ _ => true
  | .evPendClear m _ _ => m < 4
  | .bellCtrlWrite _ => true
  | .registerWrite address _ => address < 16777216
  | .requestRead => true
  | .responseWrite ch => ch < 4
  | .commandCompletion ch tag => ch < 4 && tag < 32
  | .commandTimeout ch tag => ch < 4 && tag < 32
  | .mbxConnectionOpen ch conn => ch < 4 && conn.eth < 2 && conn.port < 65536
  | .mbxStreamFrame ch frame =>
    ch < 4 && 32 ≤ frame.length && (4064 < slotLength frame || frame.length == 32 + slotLength frame)
  | .mbxKeepaliveExpiry ch => ch < 4
  | .mbxConnectionClosed ch => ch < 4
  | .resetNAssert => true
  | .resetNRelease role node heldMs => role < 8 && node < 8 && heldMs < 4294967296
  | .powerOnResetRelease role node vddioMv _ => role < 8 && node < 8 && vddioMv < 65536
  | .coreUndervoltageReset => true
  | .railFaultReset rail => rail < 3
  | .housekeepingWatchdogReset => true
  | .commandReset => true
  | .wipeComplete _ => true
  | .imagesVerified => true
  | .selfTestComplete _ => true
  | .lifecycleTransition => true
  | .pfwNAssert => true
  | .pfwCauseGone => true
  | .kickstandCauseGone cause => cause < 65536
  | .supplyBelowGuaranteed _ => true
  | .referenceClockFault => true
  | .rtcCrystalLost => true
  | .firewallViolation engine address _ => engine < 12 && address < 4294967296
  | .sramUncorrectableError engine => engine < 12
  | .norReadError sector _ => sector < 65536
  | .norScrub _ => true
  | .epochBoundary _ => true
  | .alcLateZeroCeilings => true
  | .alcInputStale input outlet => input < 5 && outlet < 13
  | .alcSiteLimitExpiry => true
  | .stageReleaseDelay outlet => outlet < 13
  | .matrixConfirmTimeout position => positionByte position
  | .controlTick group => group < 16
  | .groupOverrun group _ => group < 16
  | .zeroHoldComplete group => group < 16
  | .chainringFrameReturn ring _ => ring < 2
  | .stageLost position => positionByte position
  | .stagePresent position => positionByte position
  | .ringBroken ring => ring < 2
  | .pilotPeriodEnd slot _ _ pps => slot < 3 && pps < 65536
  | .pilotStateConfirmed slot => slot < 3
  | .proximityClassConfirmed slot => slot < 3
  | .outletCCodeConfirmed => true
  | .cmSlacParamReq slot mac runId => slot < 3 && mac.length == 6 && runId.length == 8
  | .slacSoundsReceived slot runId sounds => slot < 3 && runId.length == 8 && sounds.all (·.length == (sounds.headD []).length)
  | .cmValidate slot => slot < 3
  | .cmSlacMatchReq slot mac runId => slot < 3 && mac.length == 6 && runId.length == 8
  | .t1sFrameReceived slot _ => slot < 3
  | .t1sLinkTimeout slot => slot < 3
  | .bridgeGpioChange gpio _ => gpio < 16
  | .sessionSequencerStep slot _ => slot < 3
  | .sdpRequest slot vid => slot < 3 && vid.all (· < 4095)
  | .supportedAppProtocolReq slot _ => slot < 3
  | .tlsHandshakeComplete slot keySlot hello => slot < 3 && hello.version < 65536 && keySlot < 256
  | .authorizationReq slot method _ _ => slot < 3 && method < 256
  | .authTimeoutExpiry slot => slot < 3
  | .authValidityExpiry slot => slot < 3
  | .cableCheckReq slot vMax => slot < 3 && vMax < 65536
  | .prechargeReq slot target => slot < 3 && target < 65536
  | .powerDeliveryStartReq slot _ => slot < 3
  | .powerDeliveryStopReq slot => slot < 3
  | .directionChangeReq slot _ => slot < 3
  | .weldingDetectionReq slot => slot < 3
  | .vehicleRenegotiationReq slot schedule => slot < 3 && schedule.all fun (e : Nat × Nat) => e.1 < 4294967296 && e.2 < 65536
  | .grantReceived grant => grant.length == 16
  | .contactorConfirmed slot => slot < 3
  | .contactorConfirmTimeout slot => slot < 3
  | .weldTestStepRead slot => slot < 3
  | .postcheckGrantTimeout slot => slot < 3
  | .imdSettleComplete slot => slot < 3
  | .cableCheckMaxExpiry slot => slot < 3
  | .prechargeTimeout slot => slot < 3
  | .renegHoldExpiry slot => slot < 3
  | .outletCurrentAtOpen slot => slot < 3
  | .endTimeoutExpiry slot => slot < 3
  | .urgentStop100msExpiry slot => slot < 3
  | .hubLost => true
  | .heatSamplePoint _ _ => true
  | .thresholdCrossed index => index < 64
  | .thresholdRearmed index => index < 64
  | .sensorRecovered kind index => kind < 4 && index < 32
  | .dieSample _ => true
  | .dieThermalShutdown => true
  | .shutdownSupervisorReading _ => true
  | .shutdownHoldEnd role node => role < 8 && node < 8
  | .meteringSample bits => bits.length == 40 && bits.all fun (b : List Bool) =>
      [0, 125, 200, 250, 400, 500, 625, 1000, 1250, 2000, 2500].contains b.length
  | .meterChannelFaulted channel => channel < 40
  | .meterChannelValid channel => channel < 40
  | .directionEstablished point => point < 11
  | .operatingSecond corrected => corrected < 4294967296
  | .intervalClose point => point < 11
  | .wallTimeStepEffect => true
  | .testPulseStart output => output < 2
  | .zxEdge time width => time < 18446744073709551616 && width < 4294967296
  | .zxFreeRun => true
  | .zxResync => true
  | .beaconTransmit => true
  | .beaconReceived time beacon => time < 18446744073709551616 && beacon.length == 240
  | .beaconLost => true
  | .slotTransmit => true
  | .slotReceived _ => true
  | .nodeSilent node => node < 256
  | .postLost post => post < 16
  | .contentionAccess _ => true
  | .dataBurstReceived _ => true
  | .acknowledgementReceived ack => ack.length == 106
  | .acknowledgementMissing peer => peer < 256
  | .toneMapUpdate peer => peer < 256
  | .toneMapReceived peer ident rate span backoff _ => peer < 256 && ident < 256 && rate < 256 && span < 256 && backoff < 256
  | .joinRequest _ => true
  | .joinDecision hub _ => hub < 32
  | .powerFailNotice post => post < 16
  | .switchingWindowOpen => true
  | .noBeacon60s => true
  | .islandEth0Frame _ => true
  | .bridgedEthernetFrame _ vid etherType _ => vid < 4096 && etherType < 65536
  | .safetyTick _ _ _ _ vsout => vsout < 65536
  | .safetyEdgeMissed core => core < 2
  | .vddSafeOutOfRange => true
  | .testSample tp _ => tp < 4
  | .discrepancyLate input => input < 16
  | .resetInputPress input => input < 16
  | .twoHandLate index => index < 35
  | .muteMaxExpiry index => index < 35
  | .lockFeedbackTimeout index => index < 35
  | .unlockDelayExpiry index => index < 35
  | .maxRampExpiry pair => pair < 6
  | .darkTest pair vHigh vLow vsout => pair < 6 && vHigh < 65536 && vLow < 65536 && vsout < 65536
  | .pairOvercurrent pair => pair < 6
  | .vsoutRangeChange _ => true
  | .safetyFramePoint => true
  | .safetyCopyReceived path frame tag => path < 2 && frame.length == 36 && tag.length ≤ 8
  | .skewWindowClose conn => conn < 8
  | .transportWatchdogExpiry conn => conn < 8
  | .degradedHoldExpiry conn => conn < 8
  | .transportFaultClear conn => conn < 8
  | .editSessionTimeout => true
  | .passwordLockoutEnd => true
  | .ldcDiagnosticEval vload _ => vload < 65536
  | .ldcShortToGround channel => channel < 24
  | .ldcOvertemperature channel => channel < 24
  | .ldcLatchClear channel => channel < 24
  | .ldcRetryDelayExpiry channel => channel < 24
  | .ldcRetryReload channel => channel < 24
  | .ldcSwitchOnAdmitted channel => channel < 24
  | .loadWatchdogTrip core => core < 2
  | .loadWatchdogTest openUs closeUs => openUs < 1048576 && closeUs < 1048576
  | .vloadRangeChange _ => true
  | .stackSweep => true
  | .readAllReturn chain _ _ => chain < 2
  | .readAllTimeout chain => chain < 2
  | .enumerateReturn chain counter _ _ => chain < 2 && counter < 256
  | .enumerationRetry chain => chain < 2
  | .balanceCycle => true
  | .faultLoopOpen chain => chain < 2
  | .faultLoopPermitReturn chain => chain < 2
  | .norRecordCopy count => count < 8129
  | .rateLimitWindowEnd code => code < 65536
  | .recordClearEffect => true
  | .heartbeatAbsent => true
  | .authorityClaim => true
  | .claimGuardEnd _ => true
  | .bootClaimWaitEnd => true
  | .authorityTimerExpiry => true
  | .partnerAuthLost _ => true
  | .fenceResolved => true
  | .shadowFrameReceived _ => true
  | .shadowFramesMissing => true
  | .bulkTransferReceived _ _ _ authGen period => authGen < 65536 && period < 281474976710656
  | .standbyEligible => true
  | .switchOverBoundary => true
  | .pelotonFrame slot frame => slot < 4 && frame.length == 100
  | .pelotonMemberLost member => member < 4
  | .pltSyncLost => true
  | .vbatAbsent => true
  | .vlineRangeChange _ => true
  | .testPulseEnd output => output < 2
  | .vehicleLoopRequest slot _ => slot < 3
  | .vehicleNegotiationRequest slot _ _ _ schedule => slot < 3 && schedule.all fun (e : Nat × Nat) => e.1 < 4294967296 && e.2 < 65536
  | .slacTimerExpiry slot => slot < 3
  | .erroneousWindowRead address count => address < 16777216 && count < 4294967296
  | .partnerClaimSeen => true

end Sys2Proof
end

