-- ==== Sys2Proof/Safety.lean ====
section
/-!
DEFINITION. What counts as a safe run, in the terms the statements use: the rows of the command tables, when the request checks
of R64 admit a mailbox command, the answers a command gives, the canonical form of the byte memories and the shape of the state.
-/
namespace Sys2Proof.Machine

/-- A command runs to a next state. -/
def Runs (c : Instr) (s t : State) : Prop := exec c s = .next t

/-- Every byte memory of the part is in canonical form. -/
def State.memOk (s : State) : Prop :=
  Memory.wf s.mbx.ring ∧ (∀ x ∈ s.nv.fw, Memory.wf x.raw) ∧ ∀ x ∈ s.nv.cfg, Memory.wf x.raw

/-- The four channels are there, with 32 tags each. -/
def State.channelsOk (s : State) : Prop := s.mbx.channels.length = 4 ∧ ∀ c ∈ s.mbx.channels, c.tags.length = 32

/-- In Kickstand every safe output and every load channel is off (R97, R98). -/
def State.kickOff (s : State) : Prop :=
  kicked s = true → (∀ p ∈ s.saf.pairs, p.on = false) ∧ ∀ l ∈ s.ldc.chans, l.on = false

/-- Every LEGAL record that the part holds, in NOR or still in the commit area (R481, R488). -/
def legalOf (parts : List Part) (area : List Record) : List Record :=
  (nth parts 0).nor ++ area.filter fun x => partOf x.code == 1

/-- Every LEGAL record that the part holds. -/
def State.legalRecords (s : State) : List Record := legalOf s.nvRec.parts s.nvRec.area

/-- The four partitions are there, and LEGAL has given up no record to make room (R481). -/
def State.partsOk (s : State) : Prop := s.nvRec.parts.length = 4 ∧ (nth s.nvRec.parts 0).oldest = 0

/-- What holds of the part at reset and after every step: the byte memories in canonical form, four channels of 32 tags,
256 key slots, every safe output and load channel off while the part is in Kickstand, four recorder partitions of which LEGAL
still begins at its first record. -/
def State.sound (s : State) : Prop :=
  s.memOk ∧ s.channelsOk ∧ s.slots.length = 256 ∧ s.kickOff ∧ s.partsOk

/-- A LEGAL record is still held, or it lies below the clear floor of its partition (R493). -/
def State.holdsLegal (s : State) (x : Record) : Prop := x ∈ s.legalRecords ∨ x.pidx < (nth s.nvRec.parts 0).floor

/-- What a later state never falls behind: the anti-rollback counters, the operating seconds, the record
sequence, and the LEGAL records held but for those a clear removed (R96, R475, R481, R493). -/
def State.upTo (s t : State) : Prop :=
  s.nv.fwMin ≤ t.nv.fwMin ∧ s.nv.legalMin ≤ t.nv.legalMin ∧ s.nv.opSeconds ≤ t.nv.opSeconds ∧
    s.nvRec.nextSeq ≤ t.nvRec.nextSeq ∧ ∀ x ∈ s.legalRecords, t.holdsLegal x

/-! ### The command tables (Worlds, Life-cycle, Payload; R18, R471, R103) -/

/-- The row of the command tables of each mailbox command, with the request it came in. The role by R18 and each chapter, the
credential by R471 and R105, the check of Kickstand by R103, the length check by the Payload column. -/
def tableRow : Instr → Option (Cmd × Req)
  | .sysEchoPayload r data => some ({ op := 0x0101, fits := data.length ≤ 4064 }, r)
  | .sysOpenCredential r _ _ eph _ => some ({ op := 0x0102, fits := eph.length == 56 }, r)
  | .sysCloseCredential r _ => some ({ op := 0x0103 }, r)
  | .sysGetChannelStats r _ => some ({ op := 0x0104 }, r)
  | .sysGetBootInfo r => some ({ op := 0x0110 }, r)
  | .sysResetPart r => some ({ op := 0x0111, secure := true, cred := 3 }, r)
  | .sysEnterKickstand r => some ({ op := 0x0112 }, r)
  | .sysGetKickstand r => some ({ op := 0x0113 }, r)
  | .sysReleaseKickstand r => some ({ op := 0x0114, secure := true, states := lcMPIFS, cred := 3 }, r)
  | .sysGetLifecycle r => some ({ op := 0x0115 }, r)
  | .sysSetLifecycle r _ _ => some ({ op := 0x0116, secure := true, states := 0x7E, cred := 2 }, r)
  | .sysWriteImage r _ _ data => some ({ op := 0x0117, secure := true, states := lcMPIFS, cred := 3, fits := data.length ≤ 4000 }, r)
  | .sysActivateImage r _ => some ({ op := 0x0118, secure := true, states := lcMPIFS, cred := 3 }, r)
  | .sysConfirmImage r => some ({ op := 0x0119, secure := true, states := lcMPIFS, cred := 3 }, r)
  | .alcGetStatus r => some ({ op := 0x0201, own := .hub, reads := true }, r)
  | .alcSetRules r _ count rules => some ({ op := 0x0202, own := .hub, secure := true, states := lcIFS, cred := 1, fits := rules.length == 32 * count }, r)
  | .alcGetRules r _ _ _ => some ({ op := 0x0203, own := .hub, reads := true }, r)
  | .alcCommitRules r => some ({ op := 0x0204, own := .hub, secure := true, states := lcIFS, cred := 1 }, r)
  | .alcSetSiteLimits r _ _ _ => some ({ op := 0x0205, own := .hub, secure := true, states := lcIFS, cred := 1 }, r)
  | .alcSetSessionClass r _ _ => some ({ op := 0x0206, own := .hub, secure := true, states := lcIF, cred := 1 }, r)
  | .alcGetGrants r => some ({ op := 0x0207, own := .hub, reads := true }, r)
  | .alcGetInputs r _ => some ({ op := 0x0208, own := .hub, reads := true }, r)
  | .alcGetAssignment r => some ({ op := 0x0209, own := .hub, reads := true }, r)
  | .alcSetStageService r _ _ => some ({ op := 0x020A, own := .hub, secure := true, states := lcIFS, cred := 1 }, r)
  | .cadGetGroup r _ => some ({ op := 0x0301, own := .cadence, reads := true }, r)
  | .cadGetLoop r _ => some ({ op := 0x0302, own := .cadence, reads := true }, r)
  | .cadClearFlags r _ _ => some ({ op := 0x0303, own := .cadence, secure := true, states := lcIFS, cred := 1 }, r)
  | .cadSetReference r _ _ => some ({ op := 0x0304, own := .cadence, secure := true, states := lcIFS, cred := 1 }, r)
  | .cadReleaseGroup r _ => some ({ op := 0x0305, own := .cadence, secure := true, states := lcIFS, cred := 1 }, r)
  | .cadStageDescriptor r _ _ data => some ({ op := 0x0306, own := .cadence, secure := true, states := lcIS, cred := 1, fits := 4 ≤ data.length && data.length ≤ 2048 }, r)
  | .cadCommitGroup r _ => some ({ op := 0x0307, own := .cadence, secure := true, states := lcIS, cred := 1 }, r)
  | .chrGetRing r _ => some ({ op := 0x0401, own := .hub, reads := true }, r)
  | .chrGetStage r _ => some ({ op := 0x0402, own := .hub, reads := true }, r)
  | .chrClearCounters r _ => some ({ op := 0x0403, own := .hub, secure := true, states := lcIFS, cred := 1 }, r)
  | .outGetLink r _ => some ({ op := 0x0501, own := .outlet }, r)
  | .outGetLinkStats r _ => some ({ op := 0x0502, own := .outlet }, r)
  | .outClearLinkStats r _ => some ({ op := 0x0503, own := .outlet, secure := true, states := lcIFS, cred := 1 }, r)
  | .outSetPilotTest r _ _ => some ({ op := 0x0504, own := .outlet, secure := true, states := lcIS, cred := 1 }, r)
  | .outGetSession r _ => some ({ op := 0x0510, own := .outlet }, r)
  | .outAuthorise r _ _ _ _ _ => some ({ op := 0x0511, own := .outlet, secure := true, states := lcIF, cred := 1, kick := false }, r)
  | .outStopSession r _ => some ({ op := 0x0512, own := .outlet, secure := true, cred := 1 }, r)
  | .outSetAvailability r _ _ => some ({ op := 0x0513, own := .outlet, secure := true, states := lcIFS, cred := 1 }, r)
  | .outClearWeld r _ => some ({ op := 0x0514, own := .outlet, secure := true, states := lcIS, cred := 1 }, r)
  | .outGetChecks r _ => some ({ op := 0x0515, own := .outlet }, r)
  | .outRenegotiate r _ => some ({ op := 0x0516, own := .outlet, secure := true, states := lcIF, cred := 1 }, r)
  | .heatGetInput r _ _ => some ({ op := 0x0601, own := .anyRole }, r)
  | .heatGetOutlet r _ => some ({ op := 0x0602, own := .outlet }, r)
  | .heatGetThresholds r _ _ => some ({ op := 0x0603, own := .anyRole }, r)
  | .heatAckSensor r _ _ => some ({ op := 0x0604, own := .anyRole, secure := true, states := lcIFS, cred := 1 }, r)
  | .heatGetDie r => some ({ op := 0x0605, own := .anyRole }, r)
  | .mtrGetRegisters r _ => some ({ op := 0x0701, own := .anyRole }, r)
  | .mtrGetPoint r _ => some ({ op := 0x0702, own := .anyRole }, r)
  | .mtrGetRecord r _ => some ({ op := 0x0703 }, r)
  | .mtrRenderRecord r _ _ _ => some ({ op := 0x0704, states := lcMPIFS }, r)
  | .mtrAckRecords r _ => some ({ op := 0x0705, secure := true, cred := 1 }, r)
  | .mtrSetWallTime r _ _ => some ({ op := 0x0706, own := .anyRole, secure := true, states := lcIFS, cred := 1 }, r)
  | .mtrWriteParameters r kind _ block => some ({ op := 0x0707, own := .anyRole, secure := true, states := lcIS, cred := 1, fits := 4 ≤ kind || block.length == blockLength kind }, r)
  | .mtrSealParameters r => some ({ op := 0x0708, own := .anyRole, secure := true, states := lcIS, cred := 1 }, r)
  | .mtrGetLegalId r => some ({ op := 0x0709 }, r)
  | .mtrReadParameters r _ _ => some ({ op := 0x070A }, r)
  | .spkGetStatus r => some ({ op := 0x0801, own := .spoke }, r)
  | .spkGetNodes r => some ({ op := 0x0802, own := .spoke }, r)
  | .spkGetLink r _ => some ({ op := 0x0803, own := .spoke }, r)
  | .spkClearStats r _ => some ({ op := 0x0804, own := .spoke, secure := true, states := lcIFS, cred := 1 }, r)
  | .safGetStatus r => some ({ op := 0x0901, own := .anyRole }, r)
  | .safGetInstance r _ => some ({ op := 0x0902, own := .anyRole }, r)
  | .safGetInput r _ => some ({ op := 0x0903, own := .anyRole }, r)
  | .safGetPair r _ => some ({ op := 0x0904, own := .anyRole }, r)
  | .safReset r _ _ => some ({ op := 0x0905, own := .anyRole, secure := true, states := lcMPIFS, cred := 1 }, r)
  | .safSetOutput r _ _ => some ({ op := 0x0906, own := .anyRole, secure := true, states := lcIFS, cred := 1 }, r)
  | .safDoorLock r _ _ => some ({ op := 0x0907, own := .anyRole, secure := true, states := lcIFS, cred := 1 }, r)
  | .safGetLink r _ => some ({ op := 0x0910, own := .anyRole }, r)
  | .safCfgGet r => some ({ op := 0x0911, own := .anyRole }, r)
  | .safCfgRead r _ _ _ => some ({ op := 0x0912, own := .anyRole }, r)
  | .safCfgOpen r _ => some ({ op := 0x0913, own := .anyRole, secure := true, states := lcIS, cred := 1 }, r)
  | .safCfgWrite r kind _ block => some ({ op := 0x0914, own := .anyRole, secure := true, states := lcIS, cred := 1, fits := 5 < kind || block.length == (blockShape kind).2 }, r)
  | .safCfgCommit r => some ({ op := 0x0915, own := .anyRole, secure := true, states := lcIS, cred := 1 }, r)
  | .safCfgClose r => some ({ op := 0x0916, own := .anyRole, secure := true, states := lcIS, cred := 1 }, r)
  | .safCfgAck r _ _ => some ({ op := 0x0917, own := .anyRole, secure := true, states := lcIS, cred := 1 }, r)
  | .safCfgSetPassword r _ _ => some ({ op := 0x0918, own := .anyRole, secure := true, states := lcIS, cred := 1 }, r)
  | .safCfgGetLog r _ _ => some ({ op := 0x0919, own := .anyRole }, r)
  | .ldcGetChannel r _ => some ({ op := 0x0A01, own := .anyRole }, r)
  | .ldcSetChannel r _ _ => some ({ op := 0x0A02, own := .anyRole, secure := true, states := lcIFS, cred := 1 }, r)
  | .ldcSetDuty r _ _ => some ({ op := 0x0A03, own := .anyRole, secure := true, states := lcIFS, cred := 1 }, r)
  | .ldcClearFault r _ => some ({ op := 0x0A04, own := .anyRole, secure := true, states := lcIFS, cred := 1 }, r)
  | .ldcGetPackage r => some ({ op := 0x0A05, own := .anyRole }, r)
  | .stkGetStatus r => some ({ op := 0x0B01, own := .stack, reads := true }, r)
  | .stkGetCompanion r _ _ => some ({ op := 0x0B02, own := .stack, reads := true }, r)
  | .stkSetSoc r _ _ => some ({ op := 0x0B03, own := .stack, secure := true, states := lcIFS, cred := 1 }, r)
  | .stkClearFault r _ _ => some ({ op := 0x0B04, own := .stack, secure := true, states := lcIFS, cred := 1 }, r)
  | .keyGetSlot r _ => some ({ op := 0x0C01 }, r)
  | .keyGenerate r _ _ label => some ({ op := 0x0C02, secure := true, states := lcIFS, cred := 2, fits := label.length == 32 }, r)
  | .keyImport r _ _ label _ _ data => some ({ op := 0x0C03, secure := true, states := lcIFS, cred := 2, fits := label.length == 32 && data.length ≤ 3900 }, r)
  | .keyDerive r _ _ _ label => some ({ op := 0x0C04, secure := true, states := lcIFS, cred := 2, fits := label.length == 32 }, r)
  | .keyRevoke r _ => some ({ op := 0x0C05, secure := true, states := lcIFS, cred := 2 }, r)
  | .keyErase r _ => some ({ op := 0x0C06, secure := true, states := lcIFS, cred := 2 }, r)
  | .keyExport r _ => some ({ op := 0x0C07, states := lcMPIFS }, r)
  | .keySign r _ _ => some ({ op := 0x0C08 }, r)
  | .keyAttest r nonce => some ({ op := 0x0C09, states := lcMPIFS, fits := nonce.length == 32 }, r)
  | .keyGetCertificate r _ _ => some ({ op := 0x0C0A }, r)
  | .recGetInfo r => some ({ op := 0x0D01 }, r)
  | .recRead r _ _ _ _ => some ({ op := 0x0D02 }, r)
  | .recGetLimits r => some ({ op := 0x0D03 }, r)
  | .recGetChallenge r => some ({ op := 0x0D04 }, r)
  | .recClear r _ _ _ _ => some ({ op := 0x0D05, states := 0x7A }, r)
  | .recWriteNote r note => some ({ op := 0x0D06, secure := true, states := lcIFS, cred := 1, fits := note.length == 22 }, r)
  | .tdmGetStatus r => some ({ op := 0x0E01, own := .tandem }, r)
  | .tdmSwitchOver r => some ({ op := 0x0E02, own := .tandem, secure := true, states := lcIFS, cred := 1 }, r)
  | .tdmGetPeloton r => some ({ op := 0x0E03, own := .peloton }, r)
  | _ => none

/-- Checks 3 to 10 of R64 admit a request: the channel serves, the length matches, the tag is free, it repeats no kept
response, and no check from 5 to 10 fails. -/
def admitted (k : Cmd) (r : Req) (s : State) : Bool :=
  serves s r.ch && k.fits && !(tagOf (chan s r.ch) r.tag).used &&
    (match (tagOf (chan s r.ch) r.tag).kept with
      | some (q, _) => !(mayRetry s r && q == r.seq)
      | none => true) &&
    (verdict k r s).isNone

/-- Whether the request checks admit a mailbox command. -/
def admits (c : Instr) (s : State) : Bool :=
  match tableRow c with
  | some (k, r) => admitted k r s
  | none => false

/-- The request checks admit a mailbox command. -/
abbrev Admits (c : Instr) (s : State) : Prop := admits c s = true

/-- The state `t` with the final answer of a request that came in the state `s`: the tag free, the response kept and sent. -/
def answered (r : Req) (op status : Nat) (payload : Bytes) (s t : State) : State :=
  finish r op status (authKey s r) payload t

/-- The state `t` with the final answer ST_OK. -/
def okay (r : Req) (op : Nat) (payload : Bytes) (s t : State) : State := answered r op stOk payload s t

/-- The state `t` with the answer ST_ACCEPTED and its bound in ms: the tag stays in use and the work runs (R66). -/
def accepted (r : Req) (op bound : Nat) (w : Work) (s t : State) : State :=
  answerOnly r op stAccepted (authKey s r) (u32 bound)
    (onChan r.ch (fun c => { c with running := c.running ++ [{ req := r, opcode := op, work := w }] }) t)

end Sys2Proof.Machine
end

