-- ==== Sys2Proof/Certificates/Slice0/Obligations.lean ====
section
/-!
DEFINITION. The statements for the provers: the step and the queue, the invariants of every step, the request checks, single
rules of the spec, and for every command that it completes and with what state. The statements named ...Run cover every row of
the command table; each gives the whole next state, so that what it does not name is unchanged.
-/
open Sys2Proof Sys2Proof.Machine

/-- A step runs the command at the front of the queue on the state with the rest of the queue. Readings that the spec leaves open: log entry 1. -/
def Obligations.StepRunsFrontCommand : Prop :=
  ∀ (s : State) (c : Instr) (rest : List Instr), s.pending = c :: rest → step s = exec c { s with pending := rest }

/-- With no command waiting a step changes nothing; the model's choice (log entry 1). Readings that the spec leaves open: log entry 1. -/
def Obligations.EmptyQueueIdles : Prop := ∀ s : State, s.pending = [] → step s = .next s

/-- The command table gives no row any bits: no word spells a command, and placing one changes nothing. Readings that the spec leaves open: log entry 2. -/
def Obligations.WordsSpellNoCommand : Prop :=
  ∀ nbits w : Nat, decodeTableWord nbits w = none ∧ ∀ s : State, s.withFetchWord nbits w = s

/-- The state right after reset is sound. Readings that the spec leaves open: log entry 8. -/
def Obligations.ResetIsSound : Prop := State.reset.sound

/-- What reset leaves, in the registers whose reset value the spec states (the Reset columns of the register tables; R73, R80, R99, R484): every register of the event window, the ring pointers, no Kickstand cause, no pair or load channel on, every load channel's temperature latch set (R423), the queue empty. -/
def Obligations.ResetLeaves : Prop :=
  State.reset.win.err = 0 ∧ State.reset.win.pend = 0 ∧ State.reset.win.en = 0xFF ∧ State.reset.win.route = 0 ∧
    State.reset.win.pulse = 0 ∧ State.reset.sys.live = false ∧ State.reset.sys.role = 0 ∧ kicked State.reset = false ∧
    (∀ ch, ch < 4 → (chan State.reset ch).reqProd = 0 ∧ (chan State.reset ch).reqCons = 0 ∧ (chan State.reset ch).rspProd = 0 ∧
      (chan State.reset ch).rspCons = 0 ∧ (chan State.reset ch).creds = []) ∧
    (∀ p ∈ State.reset.saf.pairs, p.on = false) ∧ (∀ l ∈ State.reset.ldc.chans, l.on = false ∧ l.latch = true) ∧
    (∀ line, bellAsserted State.reset line = false) ∧ State.reset.nvRec.nextSeq = 1 ∧ State.reset.pending = []

/-- Every step keeps the state sound: the byte memories in canonical form, four channels of 32 tags, 256 key slots, every safe output and load channel off while the part is in Kickstand (R97, R98), four recorder partitions of which LEGAL has given up no record (R481). -/
def Obligations.StepKeepsSound : Prop := ∀ s t : State, s.sound → step s = .next t → t.sound

/-- A step of a sound state takes exactly the front command off the queue: no command's effect adds, drops or reorders a waiting command. Readings that the spec leaves open: log entry 1. -/
def Obligations.StepTakesFrontCommand : Prop := ∀ s t : State, s.sound → step s = .next t → t.pending = s.pending.tail

/-- No step lowers an anti-rollback counter (R475), the operating seconds or the record sequence (R96), and a LEGAL record is held until a clear puts it below the clear floor (R481, R493). -/
def Obligations.StepNeverFallsBehind : Prop := ∀ s t : State, s.sound → step s = .next t → s.upTo t

/-- Every command answers a next state in every state: no meaning ends in a fault or a refusal (every status of the spec is an answer, R69). -/
def Obligations.NoCommandStops : Prop := ∀ (c : Instr) (s : State), ∃ t, exec c s = .next t

/-- A mailbox command that the request checks of R64 do not admit (a channel not served, a wrong length, a tag in use, a retry, a failed check 5 to 10) changes nothing outside the mailbox and the event window, whatever the command and the state. -/
def Obligations.OnlyAdmittedCommandsAct : Prop :=
  ∀ (c : Instr) (k : Cmd) (r : Req) (s : State), tableRow c = some (k, r) → ¬Admits c s →
    ∃ m w, exec c s = .next { s with mbx := m, win := w }

/-- R16: a command addressed to a function that the active role does not own completes with ST_NOT_IN_ROLE and takes no action: for every row of the command tables, where checks 3 to 5 pass and the role does not own the function, the answer is ST_NOT_IN_ROLE and nothing outside the mailbox and the event window changes. -/
def Obligations.CommandNotInRole : Prop :=
  ∀ (c : Instr) (k : Cmd) (r : Req) (s : State), tableRow c = some (k, r) → serves s r.ch = true → k.fits = true →
    (tagOf (chan s r.ch) r.tag).used = false → (tagOf (chan s r.ch) r.tag).kept = none → opServed k s = true → owned k s = false →
    exec c s = .next (finish r k.op stNotInRole (authKey s r) [] (count r.ch statFrames s)) ∧
      ∃ m w, finish r k.op stNotInRole (authKey s r) [] (count r.ch statFrames s) = { s with mbx := m, win := w }

/-- The checks of R64 that a request of the command tables meets, in the table's order: what is answered when check 3 fails (it holds an opcode that the revision in service defines to its payload length), when its tag is in use, when it is a retry of the kept response (R67), and the status of the first of checks 5 to 10 that fails, with no other check performed. Readings that the spec leaves open: log entry 31. -/
def Obligations.RequestCheckOrder : Prop :=
  ∀ (c : Instr) (k : Cmd) (r : Req) (s : State), tableRow c = some (k, r) → serves s r.ch = true →
    (opServed k s = true → k.fits = false → exec c s = .next (badLength k.op r s)) ∧
    ((opServed k s = false ∨ k.fits = true) → (tagOf (chan s r.ch) r.tag).used = true →
      exec c s = .next (if mayRetry s r && (tagOf (chan s r.ch) r.tag).seq == r.seq
        then count r.ch statAbsorbed (count r.ch statFrames s)
        else answerOnly r k.op stTagInUse (authKey s r) [] (count r.ch statTag (count r.ch statFrames s)))) ∧
    (∀ f, (opServed k s = false ∨ k.fits = true) → (tagOf (chan s r.ch) r.tag).used = false → (tagOf (chan s r.ch) r.tag).kept = some (r.seq, f) →
      mayRetry s r = true → exec c s = .next (sendFrame r.ch f (count r.ch statServed (count r.ch statFrames s)))) ∧
    (∀ st, (opServed k s = false ∨ k.fits = true) → (tagOf (chan s r.ch) r.tag).used = false →
      (∀ f, (tagOf (chan s r.ch) r.tag).kept = some (r.seq, f) → mayRetry s r = false) →
      firstOf [(!opServed k s, stBadOpcode), (!owned k s, stNotInRole), (k.secure && r.world != 1, stDeniedWorld),
        (r.world > 1, stDeniedWorld),
        (!bit k.states (lifecycle s), stDeniedLifecycle), (credFails s r || !credMeets k (credKind s r), stDeniedCredential),
        (!k.kick && kicked s, stKickstand)] = some st →
      exec c s = .next (refuse k r st s))

/-- R55, R58, R62, R67: on a channel that can be answered (the quad-SPI, or an open connection) a final response frees its tag and keeps the response with its SEQUENCE; without a connection it changes nothing; it leaves every other tag of every channel, every credential and every running command as it was. -/
def Obligations.FinalResponseFreesTag : Prop :=
  ∀ (r : Req) (op st : Nat) (key : Option Bytes) (payload : Bytes) (s : State),
    (reachable (chan s r.ch) = true → s.channelsOk → r.ch < 4 → r.tag < 32 →
      (tagOf (chan (finish r op st key payload s) r.ch) r.tag).used = false ∧
      (tagOf (chan (finish r op st key payload s) r.ch) r.tag).kept = some (r.seq, responseFrame r op 1 st key payload)) ∧
    (reachable (chan s r.ch) = false → finish r op st key payload s = s) ∧
    ∀ ch tag, (chan (finish r op st key payload s) ch).creds = (chan s ch).creds ∧
      (chan (finish r op st key payload s) ch).running = (chan s ch).running ∧
      (ch ≠ r.ch ∨ tag ≠ r.tag → tagOf (chan (finish r op st key payload s) ch) tag = tagOf (chan s ch) tag)

/-- R51, on a quad-SPI channel: an index is 6 bits; bits [4:0] name the slot, as the place of every byte of a response shows, and bit 5 toggles as the index passes slot 31; a ring is empty when its indices are equal and full when they differ only in bit 5. -/
def Obligations.RingIndices : Prop :=
  ∀ (s : State) (ch : Nat) (f : Bytes), s.sound → ch < 4 → (chan s ch).binding = 0 → (chan s ch).rspProd < 64 → (chan s ch).rspCons < 64 →
    (waiting s ch = none ↔ (chan s ch).reqProd = (chan s ch).reqCons) ∧
    (rspFull (chan s ch) = true ↔
      (chan s ch).rspProd % 32 = (chan s ch).rspCons % 32 ∧ (chan s ch).rspProd / 32 ≠ (chan s ch).rspCons / 32) ∧
    (rspFull (chan s ch) = false → (chan s ch).held = [] → f.length ≤ 4096 →
      (chan (sendFrame ch f s) ch).rspProd < 64 ∧
      (chan (sendFrame ch f s) ch).rspProd % 32 = ((chan s ch).rspProd % 32 + 1) % 32 ∧
      ((chan (sendFrame ch f s) ch).rspProd / 32 ≠ (chan s ch).rspProd / 32 ↔ (chan s ch).rspProd % 32 = 31) ∧
      ∀ a, memRead (sendFrame ch f s).mbx.ring a =
        if 0x180000 + ch * 0x20000 + (chan s ch).rspProd % 32 * 4096 ≤ a ∧
            a < 0x180000 + ch * 0x20000 + (chan s ch).rspProd % 32 * 4096 + f.length then
          f.getD (a - (0x180000 + ch * 0x20000 + (chan s ch).rspProd % 32 * 4096)) 0
        else memRead s.mbx.ring a)

/-- R45, R46: ring memory is byte memory. Writing a byte string keeps the canonical form, every byte of it reads back at its address, and every byte outside it reads as before. -/
def Obligations.RingMemoryReadsBack : Prop :=
  ∀ (m : Mem) (a : Nat) (b : Bytes), Memory.wf m →
    Memory.wf (memWrites m a b) ∧ memReads (memWrites m a b) a b.length = b ∧
      ∀ x, x < a ∨ a + b.length ≤ x → memRead (memWrites m a b) x = memRead m x

/-- R72: when PULSE is set for a line that is already asserted and a further routed source becomes pending and enabled, the line is released for 2 µs and asserted again (one more release counted), so that it is asserted afterwards; with PULSE clear there is no release. -/
def Obligations.BellPulse : Prop :=
  ∀ (s : State) (n : Nat), n < 128 → s.win.pulses.length = 4 → bellAsserted s (routeOf s n) = true → active s n = false →
    s.win.en.getLsbD n = true →
    bellAsserted (raise n s) (routeOf s n) = true ∧
    (s.win.pulse.getLsbD (routeOf s n) = true →
      ∀ line, line < 4 → (raise n s).win.pulses.getD line 0 = s.win.pulses.getD line 0 + if line = routeOf s n then 1 else 0) ∧
    (s.win.pulse.getLsbD (routeOf s n) = false → (raise n s).win.pulses = s.win.pulses)

/-- R97 to R100, R102: what a Kickstand cause that arises does. It is listed once, behind the causes listed before it, its gone bit cleared unless the cause is one that is gone at once; KICK_CAUSE keeps the first cause of the entry; a persistent cause is kept in MRAM; at the entry EV_SYS_KICKSTAND is set and every safe output and load channel is off. A cause that is listed and not gone changes nothing. -/
def Obligations.KickstandEntry : Prop :=
  ∀ (cause : Nat) (s : State),
    (hasKick s cause = true → enterKick cause s = s) ∧
    (hasKick s cause = false →
      (enterKick cause s).sys.kicks.map (·.code) =
        s.sys.kicks.map (·.code) ++ (if cause ∈ s.sys.kicks.map (·.code) then [] else [cause]) ∧
      (∀ c ∈ (enterKick cause s).sys.kicks, c.code = cause → c.gone = kickAtOnce cause) ∧
      (∀ c ∈ (enterKick cause s).sys.kicks, c.code ≠ cause → c ∈ s.sys.kicks) ∧
      kicked (enterKick cause s) = true ∧
      kickCauseOf (enterKick cause s) = (if kicked s then kickCauseOf s else cause) ∧
      (kickPersists cause = true → cause ∈ (enterKick cause s).nv.causes) ∧
      (kicked s = false → (enterKick cause s).win.pend.getLsbD evSysKickstand = true ∧
        (enterKick cause s).sys.kickSecond = s.nv.opSeconds ∧
        (∀ p ∈ (enterKick cause s).saf.pairs, p.on = false ∧ p.request = false) ∧
        ∀ l ∈ (enterKick cause s).ldc.chans, l.on = false ∧ l.request = false))

/-- R101: SYS_RELEASE_KICKSTAND leaves Kickstand only if every cause is gone and, for each cause 0x03xx, a safety reset has been given after it went; a safety reset counts for the 0x03xx causes that are gone, and for no other. -/
def Obligations.ReleaseLeavesKickstand : Prop :=
  ∀ (r : Req) (s : State), kicked s = true →
    (Admits (.sysReleaseKickstand r) s → ∃ t, exec (.sysReleaseKickstand r) s = .next t ∧
      (kicked t = false ↔ ∀ c ∈ s.sys.kicks, c.gone = true ∧ (c.code / 256 = 3 → c.resetGiven = true))) ∧
    (kickReset s).sys.kicks = s.sys.kicks.map fun c =>
      { c with resetGiven := c.resetGiven || (c.code / 256 == 3 && c.gone) }

/-- R460, R461: a copy is good where its MAGIC is 0x5D4B, it reads and its tag is right. A write of a slot that is not bad goes into the copy that is not the winner, into copy B where the generations are equal, with GENERATION and EPOCH one above the winner's, and becomes the winner; a bad slot is not written; an erased slot is an empty winner with GENERATION 0 and EPOCH one above. -/
def Obligations.KeyWriteGenerations : Prop :=
  ∀ (n : Nat) (k : KeySlot) (key : KeyCopy),
    (∀ w, slotWinner n k = some w →
      slotWinner n (putCopy n key k) = some (asWritten { key with generation := w.generation + 1, epoch := w.epoch + 1 }) ∧
      ((putCopy n key k).a = k.a ∨ (putCopy n key k).b = k.b) ∧
      (copyGood n k.a = true → copyGood n k.b = true → k.a.generation = k.b.generation → (putCopy n key k).a = k.a) ∧
      slotWinner n (emptyCopies n k) = some { ({} : KeyCopy) with epoch := w.epoch + 1 }) ∧
    (slotWinner n k = none ↔ copyGood n k.a = false ∧ copyGood n k.b = false) ∧
    (slotWinner n k = none → putCopy n key k = k ∧ ∃ e, slotWinner n (emptyCopies n k) = some { ({} : KeyCopy) with epoch := e }) ∧
    (copyGood n key = true ↔ key.magic = 0x5D4B ∧ key.readable = true ∧ tagRight key.tag (copyTag n key) = true)

/-- R490: a configuration image is refused with ST_BAD_ARG at load when a rate-limit entry names a LEGAL code, carries a reserved partition nibble, repeats a code, has a value out of range, or has a non-zero reserved field; a code without an entry is not limited, so that its record goes to the intake queue as it is made. -/
def Obligations.RateLimitEntries : Prop :=
  (∀ (s : State) (c : ConfigImage) (b : Bytes), b ∈ c.limits → cadVerdict (imageCadence c) ≠ some stNotInRole →
    (g16 b 0 / 4096 = 1 ∨ g16 b 0 / 4096 = 0 ∨ 5 ≤ g16 b 0 / 4096 ∨ g8 b 2 = 0 ∨ g16 b 4 = 0 ∨ 3600 < g16 b 4 ∨
      g8 b 3 ≠ 0 ∨ allZero (slice b 6 2) = false ∨ 2 ≤ (c.limits.filter fun x => g16 x 0 == g16 b 0).length) →
    imageVerdict s c = some stBadArg) ∧
  ∀ (s : State) (code source : Nat) (params : Bytes), (∀ b ∈ s.cfg.limits, g16 b 0 ≠ code) →
    record code source params s = intake (draft code source params s) s

/-- R144: every rounding of the Cadence engine rounds to nearest with ties toward plus infinity: it adds 2^(s-1) and shifts arithmetically right by s bits, so that the result is within half a unit, exactly half only upwards; a product is rounded with s = 20, an accumulator with s = 8. -/
def Obligations.CadenceRounding : Prop :=
  (∀ (x : Int) (s : Nat), 0 < s → roundShift x s = (x + 2 ^ (s - 1)) >>> s ∧
    -(2 : Int) ^ (s - 1) < 2 ^ s * roundShift x s - x ∧ 2 ^ s * roundShift x s - x ≤ 2 ^ (s - 1)) ∧
  (∀ (st : Int × Bool) (c x : Int) (cs xs : List Int),
    accRow st (c :: cs) (x :: xs) = accRow (accAdd st ((c * x + 2 ^ 19) >>> 20)) cs xs) ∧
  ∀ st : Int × Bool, accOut st = sat28 ((st.1 + 2 ^ 7) >>> 8)

/-- R91, R161, R173, R190: the frame that a ring launches carries for every stage of its ring the launched record; in part-wide Kickstand that is a zero reference with ENABLE 0 and no matrix operation, and FLAGS.KICKSTAND is 1; in a life-cycle state that energises nothing it is a zero reference with ENABLE 0; otherwise it is the record in the launch buffer where no loop binds a voltage ceiling of its group. The other ring's frame, the launch buffers and everything that a launch does not concern stay as they are. -/
def Obligations.LaunchedReferences : Prop :=
  ∀ (r : Nat) (s : State), r < 2 →
    (∀ i, i < 48 → nth (Machine.launch r s).chr.sent i = if i / 24 = r then launched s i else nth s.chr.sent i) ∧
    (∀ i, kicked s = true → (launched s i).refI = 0 ∧ (launched s i).enable = false ∧ (launched s i).mtxValid = false) ∧
    (r < s.chr.rings.length → (bit (g8 (Machine.ring (Machine.launch r s) r).frame 12) 0 = true ↔ kicked s = true)) ∧
    (∀ i, mayEnergise s = false → (launched s i).refI = 0 ∧ (launched s i).enable = false) ∧
    (∀ i, kicked s = false → mayEnergise s = true → (∀ gi, gi < 16 → ceilBound s gi = false) → launched s i = nth s.chr.next i) ∧
    (Machine.launch r s).chr.next = s.chr.next ∧
    ∃ chr late new groups win, Machine.launch r s = { s with
      chr := chr, sys.late := late, tdm.sinceNew := new, cad.groups := groups, win := win }

/-- R289: MIRROR is floor(register / 1,000) mod 2^32 in Wh and EPOCH is floor(register / (1,000 x 2^32)) mod 2^16; between two readings with no wrap of EPOCH the energy in Wh is exactly (EPOCH2 - EPOCH1) x 2^32 + MIRROR2 - MIRROR1. -/
def Obligations.MirrorsRecoverEnergy : Prop :=
  ∀ m1 m2 : Nat, mirror m1 = m1 / 1000 % 2 ^ 32 ∧ mirrorEpoch m1 = m1 / (1000 * 2 ^ 32) % 2 ^ 16 ∧
    (m1 ≤ m2 → m2 / 1000 < 2 ^ 48 →
      ((mirrorEpoch m2 : Int) - mirrorEpoch m1) * 2 ^ 32 + mirror m2 - mirror m1 = (m2 / 1000 : Nat) - (m1 / 1000 : Nat))

/-- What the System commands that the request checks admit do (R70, R84, R93, R99 to R101, R105, R106). Readings that the spec leaves open: log entries 30, 31. -/
def Obligations.SystemCommandsRun : Prop :=
  ∀ (s : State) (r : Req),
    (∀ data, Admits (.sysEchoPayload r data) s →
      exec (.sysEchoPayload r data) s = .next (okay r 0x0101 data s (started r s))) ∧
    (∀ channel, Admits (.sysGetChannelStats r channel) s → channel < 4 →
      exec (.sysGetChannelStats r channel) s =
        .next (okay r 0x0104 ((chan (started r s) channel).stats.flatMap u32) s (started r s))) ∧
    (Admits (.sysGetBootInfo r) s →
      exec (.sysGetBootInfo r) s = .next (okay r 0x0110
        (u8 s.sys.resetCause ++ u32 s.sys.heldMs ++ uFlag s.sys.heldValid ++ uFlag s.sys.imageB ++ u8 s.sys.configSel ++
          u8 s.sys.trial ++ u32 s.nv.powerCycles) s (started r s))) ∧
    (Admits (.sysResetPart r) s →
      exec (.sysResetPart r) s = .next (okay r 0x0111 [] s { started r s with sys.resetDue := true })) ∧
    (Admits (.sysEnterKickstand r) s →
      exec (.sysEnterKickstand r) s = .next (okay r 0x0112 [] s (enterKick 0x0601 (started r s)))) ∧
    (Admits (.sysGetKickstand r) s →
      exec (.sysGetKickstand r) s = .next (okay r 0x0113
        (u8 (s.sys.kicks.take 24).length ++ slice ((s.sys.kicks.take 24).flatMap fun c => u16 c.code) 0 48 ++
          u32 (maskOf (indexes (s.sys.kicks.take 24) (·.gone))) ++ u64 (if kicked s then s.sys.kickSecond else 0))
        s (started r s))) ∧
    (Admits (.sysReleaseKickstand r) s → (∀ c ∈ s.sys.kicks, c.gone = true) →
      (∀ c ∈ s.sys.kicks, kickSafety c.code = true → c.resetGiven = true) → kicked s = true →
      exec (.sysReleaseKickstand r) s = .next (okay r 0x0114 [] s
        (record 0x4104 srcHousekeeping [] (raise evSysReleased { started r s with
          nv.causes := s.nv.causes.filter fun c => !(s.sys.kicks.any fun k => k.code == c)
          sys.kicks := []
          sys.kickSecond := 0
          tdm.eligible := 0 })))) ∧
    (Admits (.sysReleaseKickstand r) s → kicked s = false →
      exec (.sysReleaseKickstand r) s = .next (okay r 0x0114 [] s (started r s))) ∧
    (Admits (.sysGetLifecycle r) s →
      exec (.sysGetLifecycle r) s = .next (okay r 0x0115 (u8 (lifecycle s) ++ fresh s 32) s
        (drawn { started r s with sys.lcNonce := some (fresh s 32) }))) ∧
    (∀ target token authority, Admits (.sysSetLifecycle r target token) s →
      (transition (lifecycle s) target).isSome = true → preconditions s target = true →
      tokenAuthority s target token = some authority → (target = lcField → safeRunning s = true) →
      ∃ bound, exec (.sysSetLifecycle r target token) s = .next (accepted r 0x0116 bound .lifecycle s (drawn { started r s with
        sys.lcNonce := none
        sys.lcPending := some { target := target, authority := authority, ownerKey := token.ownerKey, ch := r.ch, tag := r.tag }
        nv.lcOpen := some (lifecycle s, target, authority) }))) ∧
    (∀ offset data, Admits (.sysWriteImage r 0 offset data) s → offset + data.length ≤ imageSlotSize 0 →
      trialRunning s = false → activating (started r s) 0 = false →
      exec (.sysWriteImage r 0 offset data) s = .next (okay r 0x0117 [] s { started r s with
        nv.fw := upd s.nv.fw (inactiveFw s) fun x =>
          { raw := memWrites x.raw offset data, image := Config.parseFirmware (memWrites x.raw offset data) } })) ∧
    (∀ offset data, Admits (.sysWriteImage r 1 offset data) s → offset + data.length ≤ imageSlotSize 1 →
      activating (started r s) 1 = false →
      exec (.sysWriteImage r 1 offset data) s = .next (okay r 0x0117 [] s { started r s with
        nv.cfg := upd s.nv.cfg (inactiveCfg s) fun x =>
          { raw := memWrites x.raw offset data, image := Config.parseConfig (memWrites x.raw offset data), present := true } })) ∧
    (∀ target, Admits (.sysActivateImage r target) s → target ≤ 1 → (target = 0 → trialRunning s = false) →
      activating (started r s) target = false →
      ∃ bound, exec (.sysActivateImage r target) s =
        .next (accepted r 0x0118 bound (.activate target) s (drawn (started r s)))) ∧
    (Admits (.sysConfirmImage r) s → trialRunning s = true →
      exec (.sysConfirmImage r) s = .next (okay r 0x0119 [] s
        (raiseMin 1 (fwInUse s).legalCtr (raiseMin 0 (fwInUse s).fwCtr
          { started r s with nv.onTrial := false, nv.trialRan := false, sys.trial := 0 }))))

/-- What SYS_OPEN_CREDENTIAL and SYS_CLOSE_CREDENTIAL do (R60, R470, R471); handle and session key rest on free values. Readings that the spec leaves open: log entries 4, 5, 26, 31. -/
def Obligations.CredentialCommandsRun : Prop :=
  ∀ (s : State) (r : Req),
    (∀ kind slot eph sig (k : KeyCopy), Admits (.sysOpenCredential r kind slot eph sig) s → winner s slot = some k → k.state = 1 → 1 ≤ kind → kind ≤ 3 → k.usage = credUsage kind → bit (credStates kind) (lifecycle s) = true → sigOk sig (keyPublic k) (credSigned s kind slot r.ch eph) = true → (chan (started r s) r.ch).creds.length < 4 →
      exec (.sysOpenCredential r kind slot eph sig) s = .next
        (okay r 0x0102 (openCred r kind slot eph (started r s)).payload s (record 0x3C05 srcKey (u8 kind ++ u8 slot ++ u8 r.ch)
          (drawn (onChan r.ch (fun c => { c with
            creds := c.creds ++ [Cred.mk (freshHandle (started r s) r.ch) kind slot
              (digest32 (ascii "DRINOV-CRED" ++ Config.x448 s.free (slice eph 0 56) ++ slice eph 0 56 ++
                slice (Config.publicPart 0x14 (Config.freshKey 0x14 s.free)) 0 56 ++ u32 (freshHandle (started r s) r.ch)))
              none 0] }) (started r s)))))) ∧
    (∀ kind slot eph sig (k : KeyCopy), Admits (.sysOpenCredential r kind slot eph sig) s → winner s slot = some k → k.state = 1 → 1 ≤ kind → kind ≤ 3 → k.usage = credUsage kind → bit (credStates kind) (lifecycle s) = true → sigOk sig (keyPublic k) (credSigned s kind slot r.ch eph) = false →
      exec (.sysOpenCredential r kind slot eph sig) s = .next
        (answered r 0x0102 stDeniedCredential [] s (record 0x3C06 srcKey (u8 kind ++ u8 slot ++ u8 r.ch) (started r s)))) ∧
    (∀ handle, Admits (.sysCloseCredential r handle) s → ((chan (started r s) r.ch).creds.any fun c => c.handle == handle) = true →
      exec (.sysCloseCredential r handle) s = .next
        (okay r 0x0103 [] s (onChan r.ch (fun c => { c with creds := c.creds.filter fun d => d.handle != handle }) (started r s))))

/-- What the Derailleur commands that the request checks admit do (R112, R125, R129, R135, R137, R138). Readings that the spec leaves open: log entries 14, 33. -/
def Obligations.DerailleurCommandsRun : Prop :=
  ∀ (s : State) (r : Req),
    (Admits (.alcGetStatus r) s →
      exec (.alcGetStatus r) s = .next
        (okay r 0x0201 (u64 s.alc.epoch ++ i32 s.alc.g ++ i32 s.alc.pOther ++ i32 s.alc.a ++ i32 s.alc.reserve ++ i32 s.alc.buffer ++
          i32 (s.alc.sFr / 1000) ++ u32 s.alc.freq ++ u32 s.alc.late ++ u32 (alcFlags s)) s (started r s))) ∧
    (∀ first count rules, Admits (.alcSetRules r first count rules) s → 1 ≤ count → count ≤ 64 → first + count ≤ 256 → s.alc.commit = none →
      exec (.alcSetRules r first count rules) s = .next
        (okay r 0x0202 [] s { started r s with
          alc.staging := (ruleTable s.alc.staging).take first ++ rulesIn count rules ++ (ruleTable s.alc.staging).drop (first + count) })) ∧
    (∀ first count, Admits (.alcGetRules r 0 first count) s → 1 ≤ count → count ≤ 64 → first + count ≤ 256 →
      exec (.alcGetRules r 0 first count) s = .next
        (okay r 0x0203 ((((ruleTable s.alc.rules).drop first).take count).flatten) s (started r s))) ∧
    (∀ first count, Admits (.alcGetRules r 1 first count) s → 1 ≤ count → count ≤ 64 → first + count ≤ 256 →
      exec (.alcGetRules r 1 first count) s = .next
        (okay r 0x0203 ((((ruleTable s.alc.staging).drop first).take count).flatten) s (started r s))) ∧
    (Admits (.alcCommitRules r) s → ruleTableOk (outlets s) (ruleTable s.alc.staging) = true → epochCost s.cfg (ruleTable s.alc.staging) ≤ 640000 → s.alc.commit = none →
      exec (.alcCommitRules r) s = .next
        (okay r 0x0204 (ruleDigest s.alc.staging) s (record 0x3201 srcA0 ((ruleDigest s.alc.staging).take 8 ++ credDigest (started r s) r)
          { started r s with alc.commit := some (ruleTable s.alc.staging) }))) ∧
    (∀ imp exp validity, Admits (.alcSetSiteLimits r imp exp validity) s → validity ≤ 3600 →
      exec (.alcSetSiteLimits r imp exp validity) s = .next
        (okay r 0x0205 [] s { started r s with alc.hostNew := some (imp, exp, validity) })) ∧
    (∀ outlet cls, Admits (.alcSetSessionClass r outlet cls) s → 1 ≤ outlet → outlet ≤ 12 → (outIn s outlet).session = true → cls ≤ 7 →
      exec (.alcSetSessionClass r outlet cls) s = .next
        (okay r 0x0206 [] s (onOut outlet (fun o => { o with cls := some cls }) (started r s)))) ∧
    (Admits (.alcGetGrants r) s →
      exec (.alcGetGrants r) s = .next
        (okay r 0x0207 (u8 (outlets s).length ++ (outlets s).flatMap fun n =>
          u8 n ++ u8 (nth s.alc.grants (n - 1)).state ++ u8 (nth s.alc.grants (n - 1)).limit ++ u8 (nth s.alc.grants (n - 1)).cls ++
            u32 (nth s.alc.grants (n - 1)).p ++ u32 (nth s.alc.grants (n - 1)).i ++ u8 (nth s.alc.grants (n - 1)).stages ++ [0, 0, 0]) s (started r s))) ∧
    (∀ outlet, Admits (.alcGetInputs r outlet) s → outlet ∈ outlets s →
      exec (.alcGetInputs r outlet) s = .next
        (okay r 0x0208 (((demandTerms s outlet).flatMap fun t => termBytes t.1) ++ u64 ((outIn s outlet).deadline.getD 0) ++
          ageBytes s.alc.feederAge ++ ageBytes s.alc.freqAge ++ ageBytes s.alc.bufferAge ++ ageBytes (outIn s outlet).age ++
          ageBytes (outIn s outlet).age) s (started r s))) ∧
    (Admits (.alcGetAssignment r) s →
      exec (.alcGetAssignment r) s = .next
        (okay r 0x0209 ((positions s).flatMap fun i =>
          u8 (posByte i) ++ u8 (matrixByte (assignOf s i)) ++ u16 (assignOf s i).counted ++ sinceOp s (assignOf s i)) s (started r s))) ∧
    (∀ position, Admits (.alcSetStageService r position 0) s → posOk position = true → posIndex position ∈ positions s → (assignOf s (posIndex position)).phase = .idle →
      exec (.alcSetStageService r position 0) s = .next
        (okay r 0x020A [] s (onAssign (posIndex position) (fun a => { a with withdrawn := true, admitted := false, ready := false }) (started r s)))) ∧
    (∀ position, Admits (.alcSetStageService r position 1) s → posOk position = true → posIndex position ∈ positions s → (assignOf s (posIndex position)).phase = .idle →
      exec (.alcSetStageService r position 1) s = .next
        (okay r 0x020A [] s (onAssign (posIndex position) (fun a => { a with
          withdrawn := false, fault := false, admitted := false, ready := true, counted := 0, dest := a.at_ }) (started r s))))

/-- What the Cadence commands that the request checks admit do (R146, R149, R164, R168, R169). Readings that the spec leaves open: log entries 13, 35. -/
def Obligations.CadenceCommandsRun : Prop :=
  ∀ (s : State) (r : Req),
    (∀ group, Admits (.cadGetGroup r group) s → group < 16 →
      exec (.cadGetGroup r group) s = .next
        (okay r 0x0301 (u8 (groupCode s group) ++ u8 (Machine.group s group).winner ++
          i32 (if gSink (Machine.group s group).desc = 3 then 0 else (Machine.group s group).g) ++ i32 (Machine.group s group).ceil ++
          i32 (Machine.group s group).cap ++ u8 (Machine.group s group).split.length ++ u32 (Machine.group s group).overruns ++
          u16 (age16 ((Machine.group s group).holdUs.getD 0 / 1000)) ++ u64 (Machine.group s group).ticks) s (started r s))) ∧
    (∀ loop, Admits (.cadGetLoop r loop) s → loop < 64 →
      exec (.cadGetLoop r loop) s = .next
        (okay r 0x0302 (u8 (Machine.loop s loop).flags ++ u32 (Machine.loop s loop).won ++ (Machine.loop s loop).u.flatMap i32 ++
          (Machine.loop s loop).x.flatMap i32) s (started r s))) ∧
    (∀ loops flags, Admits (.cadClearFlags r loops flags) s → flags < 32 →
      exec (.cadClearFlags r loops flags) s = .next
        (okay r 0x0303 [] s { started r s with
          cad.loops := s.cad.loops.zipIdx.map fun x =>
            if bit loops x.2 then { x.1 with flags := clearFlags x.1 flags } else x.1 })) ∧
    (∀ number value, Admits (.cadSetReference r number value) s → number < 32 →
      exec (.cadSetReference r number value) s = .next
        (okay r 0x0304 [] s { started r s with cad.refs := s.cad.refs.set number value })) ∧
    (∀ group, Admits (.cadReleaseGroup r group) s → group < 16 → (Machine.group s group).kick = true →
      exec (.cadReleaseGroup r group) s = .next
        (okay r 0x0305 [] s (onGroup group (fun t => { t with kick := false, restart := true, overRun := 0 }) (started r s)))) ∧
    (∀ descriptor offset data, Admits (.cadStageDescriptor r descriptor offset data) s → descriptor < 64 → offset % 4 = 0 → offset + data.length ≤ 4096 → commitWaits s = false →
      exec (.cadStageDescriptor r descriptor offset data) s = .next
        (okay r 0x0306 [] s { started r s with
          cad.stageLoops := upd s.cad.stageLoops descriptor fun b => overlay b 4096 offset data })) ∧
    (∀ descriptor offset data, Admits (.cadStageDescriptor r descriptor offset data) s → 128 ≤ descriptor → descriptor < 144 → offset % 4 = 0 → offset + data.length ≤ 64 → commitWaits s = false →
      exec (.cadStageDescriptor r descriptor offset data) s = .next
        (okay r 0x0306 [] s { started r s with
          cad.stageGroups := upd s.cad.stageGroups (descriptor - 0x80) fun b => overlay b 64 offset data })) ∧
    (∀ group, Admits (.cadCommitGroup r group) s → group < 16 → cadVerdict (candidate s group) = none → (Machine.group s group).g = 0 → groupInTransfer s group = false → (Machine.group s group).commit = none →
      exec (.cadCommitGroup r group) s = .next
        (okay r 0x0307 (groupDigest (nth s.cad.stageGroups group) ((stagedLoops s group).map (·.2))) s (onGroup group (fun t => { t with commit := some (nth s.cad.stageGroups group, stagedLoops s group) }) (started r s))))

/-- What the Chainring commands that the request checks admit do (R190, R191, R130). Readings that the spec leaves open: log entries 13, 34. -/
def Obligations.ChainringCommandsRun : Prop :=
  ∀ (s : State) (r : Req),
    (∀ ring, Admits (.chrGetRing r ring) s → ring < 2 →
      exec (.chrGetRing r ring) s = .next
        (okay r 0x0401 (u8 (ringCode s ring) ++ u8 (if masters s then masterId s ring else (Machine.ring s ring).heard) ++ u16 s.chr.authGen ++ u32 (Machine.ring s ring).tickSeq ++ u8 (ringSlots s ring) ++
          u16 s.cfg.chain.tick ++ u32 (Machine.ring s ring).failed ++ u32 (Machine.ring s ring).breaks ++ u32 (Machine.ring s ring).foreign) s (started r s))) ∧
    (∀ position, Admits (.chrGetStage r position) s → posOk position = true →
      exec (.chrGetStage r position) s = .next
        (okay r 0x0402 (u8 (stageCode (stage s (posIndex position))) ++ u8 (stage s (posIndex position)).clean ++
          u32 (stage s (posIndex position)).total ++ u32 (age32 ((stage s (posIndex position)).since.getD 0xFFFFFFFF)) ++
          slice (stage s (posIndex position)).slot 0 16) s (started r s))) ∧
    (∀ ring, Admits (.chrClearCounters r ring) s → ring < 2 →
      exec (.chrClearCounters r ring) s = .next
        (okay r 0x0403 [] s (onRing ring (fun t => { t with failed := 0, breaks := 0, foreign := 0 }) (started r s))))

/-- What the commands of vehicle links and charging sessions that the request checks admit do (R218, R219, R232, R246, R247). Readings that the spec leaves open: log entries 11, 12, 24, 36. -/
def Obligations.OutletCommandsRun : Prop :=
  ∀ (s : State) (r : Req),
    (∀ slot, Admits (.outGetLink r slot) s → slotOk s slot = true →
      exec (.outGetLink r slot) s = .next
        (okay r 0x0501 (u8 (linkType s slot) ++ u8 (link s slot).drive ++ u8 (link s slot).pilot.value ++ i16 (link s slot).vPlus ++
          i16 (link s slot).vMinus ++ u8 (link s slot).prox.value ++ u16 (link s slot).proxValue ++ u8 (link s slot).slac ++ uFlag (link s slot).up ++
          u8 (link s slot).protocol ++ slice (link s slot).mac 0 6 ++ u8 (link s slot).atten) s (started r s))) ∧
    (∀ slot, Admits (.outGetLinkStats r slot) s → slotOk s slot = true →
      exec (.outGetLinkStats r slot) s = .next
        (okay r 0x0502 ((link s slot).stats.flatMap u32) s (started r s))) ∧
    (∀ slot, Admits (.outClearLinkStats r slot) s → slotOk s slot = true →
      exec (.outClearLinkStats r slot) s = .next
        (okay r 0x0503 [] s (onLink slot (fun l => { l with stats := List.replicate 8 0 }) (started r s)))) ∧
    (∀ slot, Admits (.outSetPilotTest r slot 255) s → localSlot s slot = true → inSession s slot = false →
      exec (.outSetPilotTest r slot 255) s = .next
        (okay r 0x0504 [] s (onLink slot (fun l => { l with test := none }) (started r s)))) ∧
    (∀ slot drive, Admits (.outSetPilotTest r slot drive) s → localSlot s slot = true → inSession s slot = false → drive < 4 → linkType s slot ≠ lkMcs →
      exec (.outSetPilotTest r slot drive) s = .next
        (okay r 0x0504 [] s (onLink slot (fun l => { l with test := some drive }) (started r s)))) ∧
    (∀ slot drive, Admits (.outSetPilotTest r slot drive) s → localSlot s slot = true → inSession s slot = false → drive = driveX1 ∨ drive = driveOff → linkType s slot = lkMcs →
      exec (.outSetPilotTest r slot drive) s = .next
        (okay r 0x0504 [] s (onLink slot (fun l => { l with test := some drive }) (started r s)))) ∧
    (∀ slot, Admits (.outGetSession r slot) s → slotOk s slot = true →
      exec (.outGetSession r slot) s = .next
        (okay r 0x0510 (u8 (ses s slot).state ++ u32 (nth s.nvOut.counter slot) ++ u8 (link s slot).protocol ++ u8 (ses s slot).method ++ u8 (ses s slot).cls ++
          u8 (ses s slot).mode ++ u8 (ses s slot).endFirst ++ u8 (ses s slot).endCode ++
          u8 ((if nth s.nvOut.weld slot then 1 else 0) + (if nth s.nvOut.unchecked slot then 2 else 0) +
            (if (ses s slot).avail = 1 then 4 else 0) + (if (ses s slot).forced then 8 else 0)) ++
          u64 (ses s slot).start ++ u8 (ses s slot).ident.length ++ (ses s slot).ident) s (started r s))) ∧
    (∀ slot decision cls validity ident, Admits (.outAuthorise r slot decision cls validity ident) s → localSlot s slot = true → decision ≤ 1 → (cls ≤ 7 ∨ cls = 255) → validity ≤ 3600 → 1 ≤ validity → ident.length ≤ 64 →
      exec (.outAuthorise r slot decision cls validity ident) s = .next
        (okay r 0x0511 [] s (onSes slot (fun x => { x with
          pre := some { accept := decision == 1, cls := cls, until_ := s.nv.opSeconds + validity, ident := ident } }) (started r s)))) ∧
    (∀ slot decision cls ident, Admits (.outAuthorise r slot decision cls 0 ident) s → localSlot s slot = true → decision ≤ 1 → (cls ≤ 7 ∨ cls = 255) → ident.length ≤ 64 → (ses s slot).state = 3 → (ses s slot).waiting = true →
      exec (.outAuthorise r slot decision cls 0 ident) s = .next
        (okay r 0x0511 [] s (decide2 slot (decision == 1) cls ident (started r s)))) ∧
    (∀ slot, Admits (.outStopSession r slot) s → localSlot s slot = true → inSession s slot = true →
      exec (.outStopSession r slot) s = .next
        (okay r 0x0512 [] s (onSes slot (fun x => { x with causes := x.causes ++ [0x02] }) (started r s)))) ∧
    (∀ slot, Admits (.outStopSession r slot) s → localSlot s slot = true → inSession s slot = false →
      exec (.outStopSession r slot) s = .next
        (okay r 0x0512 [] s (started r s))) ∧
    (∀ slot mode, Admits (.outSetAvailability r slot mode) s → localSlot s slot = true → mode ≤ 2 →
      exec (.outSetAvailability r slot mode) s = .next
        (okay r 0x0513 [] s (onSes slot (fun x => { x with avail := mode }) (started r s)))) ∧
    (∀ slot, Admits (.outClearWeld r slot) s → localSlot s slot = true → nth s.nvOut.weld slot = true → connected s slot = false →
      exec (.outClearWeld r slot) s = .next
        (okay r 0x0514 [] s { started r s with nvOut.weld := s.nvOut.weld.set slot false })) ∧
    (∀ slot, Admits (.outGetChecks r slot) s → slotOk s slot = true →
      exec (.outGetChecks r slot) s = .next
        (okay r 0x0515 (u8 (ses s slot).pre1.outcome ++ u16 (ses s slot).pre1.step1 ++ u16 (ses s slot).pre1.step2 ++
          u8 (ses s slot).post1.outcome ++ u16 (ses s slot).post1.step1 ++ u16 (ses s slot).post1.step2 ++
          u16 (ses s slot).vcc ++ u32 (ses s slot).iso ++ u8 (ses s slot).isoOutcome) s (started r s))) ∧
    (∀ slot, Admits (.outRenegotiate r slot) s → localSlot s slot = true → (ses s slot).state = 8 → renegotiates s slot = true → renegFree s slot = true →
      exec (.outRenegotiate r slot) s = .next
        (okay r 0x0516 [] s (raiseReneg slot (started r s))))

/-- What the heat commands that the request checks admit do (R264, R274). Readings that the spec leaves open: log entry 18. -/
def Obligations.HeatCommandsRun : Prop :=
  ∀ (s : State) (r : Req),
    (∀ kind index, Admits (.heatGetInput r kind index) s → inputOk kind index = true →
      exec (.heatGetInput r kind index) s = .next
        (okay r 0x0601 (u8 (inputAt s kind index).state ++ i32 (inputAt s kind index).value ++ i32 (inputAt s kind index).good ++
          i32 (inputAt s kind index).sub ++ i32 (inputRate s kind index) ++ u8 (inputAt s kind index).period ++ u32 (inputAt s kind index).failures) s (started r s))) ∧
    (∀ slot, Admits (.heatGetOutlet r slot) s → slotOk s slot = true →
      exec (.heatGetOutlet r slot) s = .next
        (okay r 0x0602 (u32 (nth s.heat.out slot).ceil ++ u32 (nth s.heat.out slot).target ++ u8 (nth s.heat.out slot).bind ++
          uFlag (nth s.heat.out slot).stop ++ i32 (nth s.heat.out slot).hot.value ++ i32 (nth s.heat.out slot).mean ++
          i32 (nth s.heat.out slot).loss ++ i32 (nth s.heat.out slot).removal) s (started r s))) ∧
    (∀ first count, Admits (.heatGetThresholds r first count) s → 1 ≤ count → first + count ≤ 64 →
      exec (.heatGetThresholds r first count) s = .next
        (okay r 0x0603 (((s.heat.thr.drop first).take count).flatMap fun t => u8 t.state ++ u8 t.run ++ u32 t.crossings) s (started r s))) ∧
    (∀ kind index, Admits (.heatAckSensor r kind index) s → inputOk kind index = true → (inputAt s kind index).state = 3 →
      exec (.heatAckSensor r kind index) s = .next
        (okay r 0x0604 [] s (onInput kind index (fun x => { x with ack := true }) (started r s)))) ∧
    (Admits (.heatGetDie r) s →
      exec (.heatGetDie r) s = .next
        (okay r 0x0605 ((s.heat.die.flatMap fun x => i16 x.value) ++ u8 (maskOf (indexes s.heat.die substituted)) ++ u8 s.heat.level ++
          u32 s.nvHeat.count ++ ((List.range 3).flatMap fun i => u64 (nth s.nvHeat.seconds i))) s (started r s)))

/-- What the metering commands on registers, points, parameters and wall time that the request checks admit do (R277, R289, R298, R306 to R308, R312). Readings that the spec leaves open: log entries 15, 17, 19. -/
def Obligations.MeteringCommandsRun : Prop :=
  ∀ (s : State) (r : Req),
    (∀ point, Admits (.mtrGetRegisters r point) s → pointArg point = true → holdsPoint s.sys.role s.sys.nodeStrap point = true →
      exec (.mtrGetRegisters r point) s = .next
        (okay r 0x0701 ((wholeRegs (mpoint s point).regs).flatMap u64 ++ u32 (mirror (nth (wholeRegs (mpoint s point).regs) 0)) ++
          u16 (mirrorEpoch (nth (wholeRegs (mpoint s point).regs) 0)) ++ u32 (mirror (nth (wholeRegs (mpoint s point).regs) 1)) ++
          u16 (mirrorEpoch (nth (wholeRegs (mpoint s point).regs) 1)) ++ u64 ((mtrWinner s.nvMtr.copies).getD {}).opSeconds ++
          u8 ((mtrWinner s.nvMtr.copies).getD {}).kind) s (started r s))) ∧
    (∀ point, Admits (.mtrGetPoint r point) s → pointArg point = true → holdsPoint s.sys.role s.sys.nodeStrap point = true →
      exec (.mtrGetPoint r point) s = .next
        (okay r 0x0702 (i32 (roundDiv (mpoint s point).last8.sum (8 * 65536000000)) ++
          ((pointChannels point).flatMap fun c => u8 (channelMode (mchan s c)) ++ i16 (mchan s c).temp) ++
          u32 (match (mpoint s point).cycle with | some c => 8000000 * 1048576 / max 1 c | none => 0) ++ u8 (mpoint s point).dir ++
          i16 (if 8 ≤ point then (meanConductor s (point - 8)).getD (10 * ptLcTfb (pointEntry s point)) else 0)) s (started r s))) ∧
    (∀ wall, Admits (.mtrSetWallTime r 0 wall) s → legalFull s = false → legalPlace s = true →
      exec (.mtrSetWallTime r 0 wall) s = .next
        (okay r 0x0706 [] s { started r s with mtr.step := some wall })) ∧
    (∀ wall, Admits (.mtrSetWallTime r 1 wall) s → (1000 * (wall - s.env.wall) - s.env.wallMs).natAbs ≤ 2000 →
      exec (.mtrSetWallTime r 1 wall) s = .next
        (okay r 0x0706 [] s (wallQuality true (raise evMtrTime (record 0x4702 srcMetrology (u8 0 ++ i32 (1000 * (wall - s.env.wall) - s.env.wallMs))
          { started r s with mtr.slew := 1000 * (wall - s.env.wall) - s.env.wallMs }))))) ∧
    (∀ kind index block, Admits (.mtrWriteParameters r kind index block) s → legalHeld s < 7936 → legalPlace s = true → blockOk kind index = true → (changesSlots s.nvMtr kind block && 0 < ringUsed s) = false →
      exec (.mtrWriteParameters r kind index block) s = .next
        (okay r 0x0707 [] s (raise evMtrParameters (recordLegal 0x1701 (u8 kind ++ u8 index ++ u32 ((s.nvMtr.counter + 1) % 2 ^ 32) ++
            (digest32 (blockAt s.nvMtr kind index)).take 16 ++ (digest32 (clearReserved kind block)).take 16)
          { started r s with nvMtr := { putBlock s.nvMtr kind index (clearReserved kind block) with
              isSealed := false, counter := (s.nvMtr.counter + 1) % 2 ^ 32 } })))) ∧
    (Admits (.mtrSealParameters r) s → legalFull s = false → legalPlace s = true → parametersOk s.nvMtr = true →
      exec (.mtrSealParameters r) s = .next
        (okay r 0x0708 (parameterDigest s.nvMtr ++ u32 s.nvMtr.counter) s (raise evMtrParameters (recordLegal 0x1702 (parameterDigest s.nvMtr ++ u32 s.nvMtr.counter)
          { started r s with nvMtr.isSealed := true, nvMtr.digest := parameterDigest s.nvMtr })))) ∧
    (Admits (.mtrGetLegalId r) s →
      exec (.mtrGetLegalId r) s = .next
        (okay r 0x0709 (slice (ascii "NDX-M") 0 8 ++ u8 (nth (fwInUse s).legalVersion 0) ++ u8 (nth (fwInUse s).legalVersion 1) ++
          u8 (nth (fwInUse s).legalVersion 2) ++ slice (fwInUse s).legalDigest 0 32 ++ slice s.nvMtr.digest 0 32 ++
          u32 s.nvMtr.counter ++ uFlag s.nvMtr.isSealed ++ u16 (legalHeld s)) s (started r s))) ∧
    (∀ kind index, Admits (.mtrReadParameters r kind index) s → blockOk kind index = true →
      exec (.mtrReadParameters r kind index) s = .next
        (okay r 0x070A (slice (blockAt s.nvMtr kind index) 0 (blockLength kind)) s (started r s)))

/-- What the Spoke-line commands that the request checks admit do (R353); the mean SNRs are free values. Readings that the spec leaves open: log entry 25. -/
def Obligations.SpokeCommandsRun : Prop :=
  ∀ (s : State) (r : Req),
    (Admits (.spkGetStatus r) s →
      exec (.spkGetStatus r) s = .next
        (okay r 0x0801 (u8 (if isMaster s then 1 else if isHub s then 2 else 0) ++ u8 (ownNode s) ++ u48 s.spk.period ++ u32 (bpUs s) ++
          u8 ((if beaconCurrent s then 1 else 0) + (if s.spk.freeRun then 2 else 0)) ++ u16 (activeCarriers s) ++
          i16 (match s.spk.phase with | some p => p | none => 0x7FFF) ++ u16 (s.spk.swStart - s.spk.cfEnd) ++ u16 (bpUs s - s.spk.swStart)) s (started r s))) ∧
    (Admits (.spkGetNodes r) s →
      exec (.spkGetNodes r) s = .next
        (okay r 0x0802 (u8 s.spk.nodes.length ++ s.spk.nodes.flatMap fun n =>
          u8 n.node ++ u8 n.network ++ u8 n.state ++ u8 n.post ++ u32 (if n.heard then age32 (n.silent - 1) else 0xFFFFFFFF)) s (started r s))) ∧
    (∀ peer, Admits (.spkGetLink r peer) s → (s.spk.links.any fun l => l.peer == peer) = true →
      exec (.spkGetLink r peer) s = .next
        (okay r 0x0803 (u8 ((spkLink s peer).rx.getD {}).ident ++ u8 ((spkLink s peer).rx.getD {}).rate ++ u8 ((spkLink s peer).rx.getD {}).span ++
          ((List.range 17).flatMap fun g => match groupSnr s (spkLink s peer) g with | some v => u8 v | none => slice (fresh s 17) g 1) ++ u32 (phyRate s (spkLink s peer).rx) ++ (spkLink s peer).stats.flatMap u32) s (drawn (started r s)))) ∧
    (∀ peer, Admits (.spkClearStats r peer) s → (s.spk.links.any fun l => l.peer == peer) = true → peer ≠ 255 →
      exec (.spkClearStats r peer) s = .next
        (okay r 0x0804 [] s { started r s with
          spk.links := s.spk.links.map fun l => if l.peer == peer then { l with stats := List.replicate 8 0 } else l })) ∧
    (Admits (.spkClearStats r 255) s →
      exec (.spkClearStats r 255) s = .next
        (okay r 0x0804 [] s { started r s with spk.links := s.spk.links.map fun l => { l with stats := List.replicate 8 0 } }))

/-- What the commands of the safety functions and of safe transport that the request checks admit do (R373, R378, R379, R385, R389, R392, R393, R404). Readings that the spec leaves open: log entry 20. -/
def Obligations.SafetyCommandsRun : Prop :=
  ∀ (s : State) (r : Req),
    (Admits (.safGetStatus r) s →
      exec (.safGetStatus r) s = .next
        (okay r 0x0901 (uFlag (safeRunning s) ++ u32 (instMask s fun j => (inst s j).permit) ++ u32 (instMask s (instFaulted s)) ++
          ((List.range 6).flatMap fun n => u8 (pairState s n)) ++ u32 s.saf.compareFails ++ u64 s.saf.tick) s (started r s))) ∧
    (∀ index, Admits (.safGetInstance r index) s → index < 32 →
      exec (.safGetInstance r index) s = .next
        (okay r 0x0902 (u8 (inKind (instCfg s index)) ++ u8 (instState s index) ++ u8 (inst s index).cause ++
          u32 (if inKind (instCfg s index) = 0 then 0 else reactionUs s index) ++ u32 (inst s index).stops) s (started r s))) ∧
    (∀ input, Admits (.safGetInput r input) s → input < 16 →
      exec (.safGetInput r input) s = .next
        (okay r 0x0903 (uFlag (sinput s input).a.raw ++ uFlag (sinput s input).b.raw ++ uFlag (sinput s input).a.value ++
          uFlag (sinput s input).b.value ++ u8 (sinput s input).fault ++ u16 (age16 (sinput s input).lastDiff) ++ u32 (sinput s input).cross) s (started r s))) ∧
    (∀ pair, Admits (.safGetPair r pair) s → pair < 6 →
      exec (.safGetPair r pair) s = .next
        (okay r 0x0904 (u8 (pairState s pair) ++ uFlag (pairOf s pair).request ++ u16 (pairOf s pair).vHigh ++ u16 (pairOf s pair).vLow ++
          u16 (pairOf s pair).current ++ u64 (pairOf s pair).tested ++ u8 (pairOf s pair).fault) s (started r s))) ∧
    (∀ mask part, Admits (.safReset r mask part) s → safeAwaiting s = false → resetMisnamed s mask = false → part ≤ 1 → (part = 1 → partSource s = 254) →
      exec (.safReset r mask part) s = .next
        (okay r 0x0905 [] s (commandReset mask part (started r s)))) ∧
    (∀ pair, Admits (.safSetOutput r pair 1) s → kicked s = false → safeAwaiting s = false → pair < 6 → prMode (pairCfg s pair) = 2 → permitMissing s pair = false →
      exec (.safSetOutput r pair 1) s = .next
        (okay r 0x0906 [] s (requestPair pair true (started r s)))) ∧
    (∀ pair, Admits (.safSetOutput r pair 0) s → pair < 6 → prMode (pairCfg s pair) = 2 →
      exec (.safSetOutput r pair 0) s = .next
        (okay r 0x0906 [] s (requestPair pair false (started r s)))) ∧
    (∀ index, Admits (.safDoorLock r index 1) s → safeAwaiting s = false → index < 32 → locks (instCfg s index) = true →
      exec (.safDoorLock r index 1) s = .next
        (okay r 0x0907 [] s (driveLock index true (started r s)))) ∧
    (∀ index, Admits (.safDoorLock r index 0) s → safeAwaiting s = false → index < 32 → locks (instCfg s index) = true →
      exec (.safDoorLock r index 0) s = .next
        (okay r 0x0907 [] s (onInst index (fun x => { x with unlocking := true }) (fallPermit index 0 (started r s))))) ∧
    (∀ conn, Admits (.safGetLink r conn) s → conn < 8 →
      exec (.safGetLink r conn) s = .next
        (okay r 0x0910 (u8 (connCode s conn) ++ u8 (Machine.conn s conn).fault ++ u16 ((Machine.conn s conn).cycle.getD 0) ++ u32 (Machine.conn s conn).seq ++
          u32 (Machine.conn s conn).sig ++ msSince s (Machine.conn s conn).spoke ++ msSince s (Machine.conn s conn).eth ++
          (Machine.conn s conn).counts.flatMap u32) s (started r s)))

/-- What the safety configuration commands that the request checks admit do (R407, R408, R410, R411, R413, R414). Readings that the spec leaves open: log entry 20. -/
def Obligations.SafetyConfigurationCommandsRun : Prop :=
  ∀ (s : State) (r : Req),
    (Admits (.safCfgGet r) s →
      exec (.safCfgGet r) s = .next
        (okay r 0x0911 (u8 (if (safeHeld s).isNone then 0 else if safeAwaiting s then 1 else 2) ++
          u32 (match safeHeld s with | some t => setSignature t | none => 0) ++ u32 (safeGeneration s) ++
          uFlag s.saf.edit.isSome ++ u8 s.nvSaf.fails ++ u32 (match s.nvSaf.lockUntil with | some t => t - s.nv.opSeconds | none => 0)) s (started r s))) ∧
    (∀ copy kind index (set : SafeSet), Admits (.safCfgRead r copy kind index) s → index < (blockShape kind).1 → copySet s copy = some set →
      exec (.safCfgRead r copy kind index) s = .next
        (okay r 0x0912 (blockOf set kind index) s (started r s))) ∧
    (∀ password, Admits (.safCfgOpen r password) s → s.nvSaf.lockUntil = none → s.nvSaf.password.isSome = true → passwordLength password = true → s.saf.edit = none → passwordRight s password = true →
      exec (.safCfgOpen r password) s = .next
        (okay r 0x0913 [] s (raise evSafCfgEdit { rightPassword (started r s) with saf.edit := some { ch := r.ch, handle := r.handle, since := s.nv.opSeconds, staging := safeSet s } }))) ∧
    (∀ kind index block, Admits (.safCfgWrite r kind index block) s → editing s r = true → index < (blockShape kind).1 →
      exec (.safCfgWrite r kind index block) s = .next
        (okay r 0x0914 [] s { started r s with
          saf.edit := s.saf.edit.map fun e => { e with since := s.nv.opSeconds, staging := setBlock e.staging kind index block } })) ∧
    (Admits (.safCfgCommit r) s → editing s r = true → safeSetOk s (stagingOf s) = true → safeCost (stagingOf s) ≤ 35000 → (s.saf.pairs.any (·.on)) = false →
      exec (.safCfgCommit r) s = .next
        (okay r 0x0915 (commitSet r (stagingOf s) (started r s)).payload s ((commitSet r (stagingOf s) (started r s)).state))) ∧
    (Admits (.safCfgClose r) s → editing s r = true →
      exec (.safCfgClose r) s = .next
        (okay r 0x0916 [] s (raise evSafCfgEdit { started r s with saf.edit := none }))) ∧
    (∀ signature password, Admits (.safCfgAck r signature password) s → s.nvSaf.lockUntil = none → s.nvSaf.password.isSome = true → safeAwaiting s = true → setSignature (safeSet s) = signature → passwordLength password = true → passwordRight s password = true →
      exec (.safCfgAck r signature password) s = .next
        (okay r 0x0917 [] s (goneKick 0x0303 (raise evSafCfgAck (record 0x2912 srcSafety (u8 1 ++ u32 signature)
          (writeCopy (safeSet s) true (rightPassword (started r s)))))))) ∧
    (∀ new, Admits (.safCfgSetPassword r [] new) s → s.nvSaf.lockUntil = none → passwordLength new = true → s.nvSaf.password = none → lifecycle s = lcIntegration →
      exec (.safCfgSetPassword r [] new) s = .next
        (okay r 0x0918 [] s (storePassword new (started r s)))) ∧
    (∀ old new, Admits (.safCfgSetPassword r old new) s → s.nvSaf.lockUntil = none → passwordLength new = true → passwordLength old = true → old ≠ [] → passwordRight s old = true →
      exec (.safCfgSetPassword r old new) s = .next
        (okay r 0x0918 [] s (storePassword new (rightPassword (started r s))))) ∧
    (∀ first count, Admits (.safCfgGetLog r first count) s → first < 32 → 1 ≤ count → count ≤ 32 →
      exec (.safCfgGetLog r first count) s = .next
        (okay r 0x0919 (((s.nvSaf.log.drop first).take count).flatten) s (started r s)))

/-- What the load-switch commands that the request checks admit do (R429, R432 to R434). Readings that the spec leaves open: log entry 21. -/
def Obligations.LoadCommandsRun : Prop :=
  ∀ (s : State) (r : Req),
    (∀ channel, Admits (.ldcGetChannel r channel) s → channel < 24 →
      exec (.ldcGetChannel r channel) s = .next
        (okay r 0x0A01 (u8 (ldMode (loadCfg s channel)) ++ uFlag (loadOwned s channel) ++ uFlag (load s channel).request ++ u8 (loadState s channel) ++
          u8 (load s channel).fault ++ u8 (load s channel).report ++ uFlag (load s channel).latch ++ u8 (load s channel).left ++
          u16 (if ldMode (loadCfg s channel) = 2 then genDuty s (ldGen (loadCfg s channel)) else 0) ++
          u16 ((load s channel).means.headD 0) ++ i16 (load s channel).temp ++ u32 (load s channel).faults) s (started r s))) ∧
    (∀ channel, Admits (.ldcSetChannel r channel 1) s → kicked s = false → loadOwned s channel = false → channel < 24 → loadUsed s channel = true →
      exec (.ldcSetChannel r channel 1) s = .next
        (okay r 0x0A02 [] s (requestLoad channel true (started r s)))) ∧
    (∀ channel, Admits (.ldcSetChannel r channel 0) s → loadOwned s channel = false → channel < 24 →
      exec (.ldcSetChannel r channel 0) s = .next
        (okay r 0x0A02 [] s (requestLoad channel false (started r s)))) ∧
    (∀ generator duty, Admits (.ldcSetDuty r generator duty) s → (duty = 0 ∨ kicked s = false) → generator < 8 → duty ≤ 1024 → gnEnabled (genCfg s generator) = true → genGroup s generator = none →
      exec (.ldcSetDuty r generator duty) s = .next
        (okay r 0x0A03 [] s (newPulses generator { started r s with ldc.duty := s.ldc.duty.set generator duty }))) ∧
    (∀ mask, Admits (.ldcClearFault r mask) s → mask < 2 ^ 24 → (∀ c ∈ maskList mask 24, loadOwned s c = false) → (∀ c ∈ maskList mask 24, (load s c).latch = false) →
      exec (.ldcClearFault r mask) s = .next
        (okay r 0x0A04 [] s ((maskList mask 24).foldl (fun s c => clearLoad c s) (started r s)))) ∧
    (Admits (.ldcGetPackage r) s →
      exec (.ldcGetPackage r) s = .next
        (okay r 0x0A05 (u32 (packageCurrent s) ++ u32 ((s.ldc.chans.map fun l => l.means.headD 0).sum) ++ u32 (measuredWatts s) ++
          u16 s.ldc.vload ++ uFlag s.ldc.tripped ++ u8 (s.ldc.chans.filter fun l => l.waiting.isSome).length) s (started r s)))

/-- What the buffer-stack commands that the request checks admit do (R439, R454, R456, R457). Readings that the spec leaves open: log entry 22. -/
def Obligations.StackCommandsRun : Prop :=
  ∀ (s : State) (r : Req),
    (Admits (.stkGetStatus r) s →
      exec (.stkGetStatus r) s = .next
        (okay r 0x0B01 ((s.stk.chains.flatMap fun h => u8 h.state ++ u8 h.counter ++ uFlag (!h.loop.value) ++ u8 h.break_ ++ u16 h.sweep ++ u32 h.partials) ++
          ([1, 2, 3, 4].flatMap fun k => uFlag (stackString s k).service ++ u16 (stringSoc (stringOf s k) (stackString s k)) ++
            u16 (stackString s k).iDis ++ u16 (stackString s k).iChg) ++
          u32 s.stk.dis ++ u32 s.stk.chg) s (started r s))) ∧
    (∀ chain position, Admits (.stkGetCompanion r chain position) s → chain < 2 → 1 ≤ position → position ≤ chainLen s chain →
      exec (.stkGetCompanion r chain position) s = .next
        (okay r 0x0B02 ((comp s chain position).slot ++
          u32 (match (comp s chain position).at_ with | some e => age32 (s.alc.epoch - e) | none => 4294967295) ++
          u8 ((if (comp s chain position).stale then 1 else 0) + (if (comp s chain position).fresh then 2 else 0) +
            (if (comp s chain position).replaced then 4 else 0)) ++
          u48 ((serialOf s chain position).getD 0) ++ uLE 3 (comp s chain position).balance) s (started r s))) ∧
    (∀ string soc, Admits (.stkSetSoc r string soc) s → (stringCfg s string).isSome = true → soc ≤ 1000 →
      exec (.stkSetSoc r string soc) s = .next
        (okay r 0x0B03 [] s (onString string (fun y => { y with charge := soc * stringFull (stringOf s string) / 1000 }) (started r s)))) ∧
    (∀ chain position, Admits (.stkClearFault r chain position) s → chain < 2 → 1 ≤ chainLen s chain → position ≤ chainLen s chain → (Machine.chain s chain).state ≠ 2 → (Machine.chain s chain).state ≠ 3 →
      exec (.stkClearFault r chain position) s = .next
        (okay r 0x0B04 [] s (sendChain chain 0x07 position false [] (started r s))))

/-- What the key commands that the request checks admit do (R461, R465, R467, R468, R478, R479); a new key is a free value. Readings that the spec leaves open: log entries 4, 5, 26. -/
def Obligations.KeyCommandsRun : Prop :=
  ∀ (s : State) (r : Req),
    (∀ slot (w : KeyCopy), Admits (.keyGetSlot r slot) s → slot < 256 → winner s slot = some w →
      exec (.keyGetSlot r slot) s = .next
        (okay r 0x0C01 (uFlag false ++ u32 (if copyGood slot (nth s.slots slot).a then (nth s.slots slot).a.generation else 0xFFFFFFFF) ++
          u32 (if copyGood slot (nth s.slots slot).b then (nth s.slots slot).b.generation else 0xFFFFFFFF) ++ (copyHead w ++ publicDigest w)) s (started r s))) ∧
    (∀ slot, Admits (.keyGetSlot r slot) s → slot < 256 → winner s slot = none →
      exec (.keyGetSlot r slot) s = .next
        (okay r 0x0C01 (uFlag true ++ u32 (if copyGood slot (nth s.slots slot).a then (nth s.slots slot).a.generation else 0xFFFFFFFF) ++
          u32 (if copyGood slot (nth s.slots slot).b then (nth s.slots slot).b.generation else 0xFFFFFFFF) ++ List.replicate 96 0) s (started r s))) ∧
    (∀ slot attr label, Admits (.keyGenerate r slot attr label) s → 8 ≤ slot → slot < 256 → writeDenied s slot attr.usage = false → attrOk 0 attr = true → attrFields attr = true → writeBusy s slot = false → attr.alg ≠ 0x20 →
      exec (.keyGenerate r slot attr label) s = .next
        (okay r 0x0C02 [] s (installKey slot (newKey attr label (Config.freshKey attr.alg s.free) (0x10 ≤ attr.alg) false) (drawn (started r s))))) ∧
    (∀ slot attr label, Admits (.keyGenerate r slot attr label) s → 8 ≤ slot → slot < 256 → writeDenied s slot attr.usage = false → attrOk 0 attr = true → attrFields attr = true → writeBusy s slot = false → attr.alg = 0x20 →
      exec (.keyGenerate r slot attr label) s = .next
        (accepted r 0x0C02 60 (.write slot (newKey attr label (Config.freshKey attr.alg s.free) (0x10 ≤ attr.alg) false)) s { drawn (started r s) with keys.busy := s.keys.busy ++ [slot] })) ∧
    (∀ slot attr label data, Admits (.keyImport r slot attr label 0 1 data) s → 8 ≤ slot → slot < 256 → writeDenied s slot attr.usage = false → attrOk 1 attr = true → attrFields attr = true → writeBusy s slot = false → data.length ≤ 4096 → importLen attr.alg (importClear (started r s) r attr.alg data).length = true →
      exec (.keyImport r slot attr label 0 1 data) s = .next
        (okay r 0x0C03 [] s (installKey slot (newKey attr label (importClear (started r s) r attr.alg data) false false) (putImport r.ch slot none (started r s))))) ∧
    (∀ slot attr label offset data, Admits (.keyImport r slot attr label offset 0 data) s → 8 ≤ slot → slot < 256 → writeDenied s slot attr.usage = false → attrOk 1 attr = true → attrFields attr = true → writeBusy s slot = false → (if offset = 0 then [] else importSoFar s r.ch slot).length = offset → offset + data.length ≤ 4096 →
      exec (.keyImport r slot attr label offset 0 data) s = .next
        (okay r 0x0C03 [] s (putImport r.ch slot (some ((if offset = 0 then [] else importSoFar s r.ch slot) ++ data)) (started r s)))) ∧
    (∀ parent child attr label (p : KeyCopy), Admits (.keyDerive r parent child attr label) s → 8 ≤ child → child < 256 → parent ≠ child → invocation s parent (fun k => k.usage == useDerive && k.alg == 0x03) byKeyEngine true = none → winner s parent = some p → childOk s p attr = true → writeDenied s child attr.usage = false → attrOk 2 attr = true → attrFields attr = true → writeBusy s child = false → attr.alg ≠ 0x20 →
      exec (.keyDerive r parent child attr label) s = .next
        (okay r 0x0C04 [] s (installKey child { newKey attr label (formMaterial attr.alg (childSeed p child attr.alg label)) (0x10 ≤ attr.alg) true with
            parent := parent, parentEpoch := p.epoch } (started r s)))) ∧
    (∀ slot (w : KeyCopy), Admits (.keyRevoke r slot) s → 8 ≤ slot → slot < 256 → winner s slot = some w → w.generation < 0xFFFFFFFE → w.state = 1 → writeBusy s slot = false →
      exec (.keyRevoke r slot) s = .next
        (okay r 0x0C05 [] s (revokeSlot slot (started r s)))) ∧
    (∀ slot, Admits (.keyErase r slot) s → 8 ≤ slot → slot < 256 → writeBusy s slot = false →
      exec (.keyErase r slot) s = .next
        (okay r 0x0C06 [] s (eraseSlot slot (started r s)))) ∧
    (∀ slot (k : KeyCopy), Admits (.keyExport r slot) s → slot < 256 → winner s slot = some k → k.state = 1 → 0x10 ≤ k.alg →
      exec (.keyExport r slot) s = .next
        (okay r 0x0C07 (publicPartOf k) s (started r s))) ∧
    (∀ slot (k : KeyCopy) (key : Bytes), Admits (.keyExport r slot) s → slot < 256 → winner s slot = some k → k.state = 1 → k.alg < 0x10 → keyExportable k = true → (k.world = 1 → r.world = 1) → authKey s r = some key →
      exec (.keyExport r slot) s = .next
        (okay r 0x0C07 (Config.wrap key k.material) s (started r s))) ∧
    (∀ slot digest (k : KeyCopy), Admits (.keySign r slot digest) s → invocation s slot (fun k => k.usage == 0x0E && algSigns k.alg && keyPrivate k) r.ch (r.world == 1) = none → winner s slot = some k → 1 ≤ digest.length → digest.length ≤ 64 →
      exec (.keySign r slot digest) s = .next
        (accepted r 0x0C08 20 (.sign k.alg k.material digest) s (started r s))) ∧
    (∀ nonce (k : KeyCopy), Admits (.keyAttest r nonce) s → winner s 1 = some k → k.state = 1 →
      exec (.keyAttest r nonce) s = .next
        (accepted r 0x0C09 60 (.attest (slice nonce 0 32)) s (started r s))) ∧
    (∀ which offset, Admits (.keyGetCertificate r which offset) s → which ≤ 1 → offset ≤ (Config.certificate which).length →
      exec (.keyGetCertificate r which offset) s = .next
        (okay r 0x0C0A (u16 (Config.certificate which).length ++ ((Config.certificate which).drop offset).take 4000) s (started r s)))

/-- What the recorder commands that the request checks admit do (R491 to R494, R497). Readings that the spec leaves open: log entry 27. -/
def Obligations.RecorderCommandsRun : Prop :=
  ∀ (s : State) (r : Req),
    (Admits (.recGetInfo r) s →
      exec (.recGetInfo r) s = .next
        (okay r 0x0D01 (u64 s.nvRec.nextSeq ++ u64 s.nv.opSeconds ++ u32 s.nv.powerCycles ++ u16 s.recd.intake.length ++
          [1, 2, 3, 4].flatMap (partBytes s) ++ u32 s.nvRec.overflow) s (started r s))) ∧
    (∀ part start limit count (within : List Record), Admits (.recRead r part start limit count) s → 1 ≤ part → part ≤ 4 → 1 ≤ count → count ≤ 62 → within = (partRecords s part).filter (fun x => start ≤ x.pidx && x.seq ≤ limit) →
      exec (.recRead r part start limit count) s = .next
        (okay r 0x0D02 (u8 ((if start < max (Machine.part s part).oldest (Machine.part s part).floor then 1 else 0) +
            (if (within.take count).length = within.length then 2 else 0)) ++
          u64 (max (Machine.part s part).oldest (Machine.part s part).floor) ++
          u8 (within.take count).length ++ List.replicate 6 0 ++ (within.take count).flatMap recordBytes) s (started r s))) ∧
    (Admits (.recGetLimits r) s →
      exec (.recGetLimits r) s = .next
        (okay r 0x0D03 (u8 s.cfg.rateMax ++ u8 s.cfg.limits.length ++ s.cfg.limits.flatMap fun e => slice e 0 8) s (started r s))) ∧
    (Admits (.recGetChallenge r) s →
      exec (.recGetChallenge r) s = .next
        (okay r 0x0D04 (fresh s 32) s (drawn { started r s with recd.nonce := some (fresh s 32) }))) ∧
    (∀ part limit kind sig (x : Nat × Bytes), Admits (.recClear r part limit kind sig) s → kind ≤ 1 → 1 ≤ part → part ≤ 4 → clearAuthority (started r s) r part limit kind sig = some x → (part = 1 → x.1 = 3) → clearState s part = true → limit = (Machine.part s part).newest → s.recd.clear = none →
      exec (.recClear r part limit kind sig) s = .next
        (accepted r 0x0D05 10000 (.clear) s { started r s with
            recd.nonce := if kind = 1 then none else s.recd.nonce
            recd.clear := some { part := part, limit := limit, kind := kind, keyDigest := slice (digest32 x.2) 0 8 } })) ∧
    (∀ note, Admits (.recWriteNote r note) s → hasPlace 4 s = true →
      exec (.recWriteNote r note) s = .next
        (okay r 0x0D06 [] s (record 0x4D10 srcHost (slice note 0 22) (started r s))))

/-- What the commands of the tandem pair and the peloton that the request checks admit do (R505, R519, R520). Readings that the spec leaves open: log entry 28. -/
def Obligations.PairCommandsRun : Prop :=
  ∀ (s : State) (r : Req),
    (Admits (.tdmGetStatus r) s →
      exec (.tdmGetStatus r) s = .next
        (okay r 0x0E01 (u8 s.tdm.state.code ++ u8 s.tdm.partner ++ u16 s.chr.authGen ++ u32 s.tdm.eligible ++
          u32 (match s.tdm.shadowAge with | some a => age32 (1000 * a) | none => 0xFFFFFFFF) ++ u32 s.tdm.takeovers ++
          u8 s.tdm.fenceCause ++ uFlag s.tdm.digestMatch ++ u64 s.tdm.lastTakeover) s (started r s))) ∧
    (Admits (.tdmSwitchOver r) s → s.tdm.state = .active → s.tdm.switchPending = false → s.tdm.switchSent = false →
      exec (.tdmSwitchOver r) s = .next
        (okay r 0x0E02 [] s { started r s with tdm.switchPending := true })) ∧
    (Admits (.tdmGetPeloton r) s →
      exec (.tdmGetPeloton r) s = .next
        (okay r 0x0E03 (u8 s.sys.nodeStrap ++ [0, 1, 2, 3].flatMap (memberBytes s) ++ i32 s.plt.g) s (started r s)))

/-- What an access to the direct register window does while it answers (R10, R44 to R46, R51 to R53, R55, R72). Readings that the spec leaves open: log entries 30, 31. -/
def Obligations.RegisterWindowRuns : Prop :=
  ∀ s : State,
    (∀ instruction data, exec (.qspiUnknownInstruction instruction data) s = .next s) ∧
    (∀ ch (value : Word), windowAnswers s = true → ch < 4 → prodAccepted (chan s ch) (value.toNat % 64) = true →
      exec (.chnReqProdWrite ch value) s = .next (onChan ch (fun c => { c with reqProd := value.toNat % 64 }) s)) ∧
    (∀ ch (value : Word), windowAnswers s = true → ch < 4 → prodAccepted (chan s ch) (value.toNat % 64) = false →
      exec (.chnReqProdWrite ch value) s = .next (raise evMbxFraming (count ch statFraming (winErr 3 s)))) ∧
    (∀ ch (value : Word), windowAnswers s = true → ch < 4 → consAccepted (chan s ch) (value.toNat % 64) = true →
      exec (.chnRspConsWrite ch value) s = .next (onChan ch (fun c => { c with rspCons := value.toNat % 64 }) s)) ∧
    (∀ ch (value : Word), windowAnswers s = true → ch < 4 → consAccepted (chan s ch) (value.toNat % 64) = false →
      exec (.chnRspConsWrite ch value) s = .next (raise evMbxFraming (count ch statFraming (winErr 3 s)))) ∧
    (∀ ch, windowAnswers s = true → ch < 4 →
      exec (.chnCtrlReset ch) s = .next (raise evMbxChannelReset (count ch statReset (endEditOf ch none
        (onChan ch blankChannel { s with mbx.orphans := s.mbx.orphans ++ (chan s ch).running }))))) ∧
    (∀ ch, windowAnswers s = true → ch < 4 → exec (.chnCtrlEnable ch true) s = .next (onChan ch (fun c => { c with enable := true }) s)) ∧
    (∀ ch, windowAnswers s = true → ch < 4 →
      exec (.chnCtrlEnable ch false) s = .next (resetChannel ch (onChan ch (fun c => { c with enable := false }) s))) ∧
    (∀ (value set : Word), windowAnswers s = true →
      exec (.winErrClear value set) s = .next { s with win.err := (s.win.err &&& ~~~value) ||| (set &&& 0x1F) }) ∧
    (∀ m (value set : Word), windowAnswers s = true → m < 4 →
      exec (.evPendClear m value set) s = .next ((List.range 32).foldl (fun s b => raiseIf (set.getLsbD b) (32 * m + b) s)
        { s with win.pend := s.win.pend &&& ~~~((value &&& ~~~set).zeroExtend 128 <<< (32 * m)) })) ∧
    (∀ (value : Word), windowAnswers s = true → exec (.bellCtrlWrite value) s = .next { s with win.pulse := value.truncate 4 }) ∧
    (∀ address (data : Bytes) reg, windowAnswers s = true → address < 0x1000 → address % 4 = 0 → data.length = 4 → regAt address = some reg →
      exec (.registerWrite address data) s = .next (writeReg reg (BitVec.ofNat 32 (leNat data)) s)) ∧
    (∀ address (data : Bytes), windowAnswers s = true → address < 0x1000 → regAt (address / 4 * 4) = none → data.length = 1 →
      exec (.registerWrite address data) s = .next (winErr 1 (winErr 0 s))) ∧
    (∀ address count, windowAnswers s = true → address < 0x1000 → regAt (address / 4 * 4) = none → count = 1 →
      exec (.erroneousWindowRead address count) s = .next (winErr 1 (winErr 0 { s with win.readData := [0] })))

/-- What reading a request, its end and the channel connections do (R54, R57, R58, R63, R65, R66). Readings that the spec leaves open: log entries 30, 31. -/
def Obligations.RequestReadingRuns : Prop :=
  ∀ s : State,
    (∀ ch f (c : State → Res), nextFrame s = some (ch, f) → magicOk f = true → crcOk f = true → g16 f.head 8 ≤ 4064 → opInService (consume ch s) (frameOp f) = true → commandOf (frameOp f) (frameReq (consume ch s) ch f) f.payload = some c →
      exec .requestRead s = c (consume ch s)) ∧
    (∀ ch f, nextFrame s = some (ch, f) → magicOk f = true → crcOk f = true → 4064 < g16 f.head 8 →
      exec .requestRead s = .next (badLength (frameOp f) (frameReq (consume ch s) ch f) (consume ch s))) ∧
    (∀ ch f, nextFrame s = some (ch, f) → magicOk f = false → (chan s ch).binding = 0 →
      exec .requestBadMagic s = .next (raise evMbxFraming (count ch statFraming (count ch statFrames (consume ch s))))) ∧
    (∀ ch f, nextFrame s = some (ch, f) → magicOk f = true → crcOk f = false →
      exec .requestBadCrc s = .next (sendFrame ch (responseFrame (frameReq (consume ch s) ch f) (frameOp f) 9 stBadCrc none [])
        (count ch statCrc (count ch statFrames (consume ch s))))) ∧
    (∀ ch f, nextFrame s = some (ch, f) → magicOk f = true → crcOk f = true → g16 f.head 8 ≤ 4064 → opInService s (frameOp f) = false → serves (consume ch s) ch = true → (tagOf (chan (consume ch s) ch) (g8 f.head 4 % 32)).used = false → (tagOf (chan (consume ch s) ch) (g8 f.head 4 % 32)).kept = none →
      exec .undefinedOpcodeRequest s = .next (refuse { op := frameOp f, defined := false } (frameReq (consume ch s) ch f) stBadOpcode (consume ch s))) ∧
    (∀ ch f rest, (chan s ch).held = f :: rest → rspFull (chan s ch) = false → (chan s ch).binding = 0 →
      exec (.responseWrite ch) s = .next (raise (evMbxRsp + ch) (onChan ch (fun c => { c with held := rest, rspProd := (c.rspProd + 1) % 64 })
        { s with mbx.ring := memWrites s.mbx.ring (rspBase ch + (chan s ch).rspProd % 32 * 4096) f }))) ∧
    (∀ ch tag w p, orphanAt s ch tag = none → runningAt s ch tag = some w → finishWork w s = some p →
      exec (.commandCompletion ch tag) s = .next (finish w.req w.opcode p.status (authKey p.state w.req) p.payload
        (onChan w.req.ch (fun c => { c with running := c.running.filter fun v => v.req.tag != w.req.tag }) p.state))) ∧
    (∀ ch tag w, orphanAt s ch tag = none → runningAt s ch tag = some w →
      exec (.commandTimeout ch tag) s = .next (settle w stTimeout [] (abandon w.work s))) ∧
    (∀ ch conn, connectionAllowed s ch conn = true →
      exec (.mbxConnectionOpen ch conn) s = .next (raise evMbxLink (onChan ch (fun c => { c with
        connected := true, plain := conn.tls.isNone, tlsSlot := conn.tls.bind fun t => serverSlot s t.accepts }) s))) ∧
    (∀ ch frame, connectedOn s ch = true → magicOk (streamFrame frame) = true → g16 frame 8 ≤ 4064 → (chan s ch).enable = true →
      exec (.mbxStreamFrame ch frame) s = .next (onChan ch (fun c => { c with streamIn := c.streamIn ++ [frame] }) s)) ∧
    (∀ ch, connectedOn s ch = true →
      exec (.mbxKeepaliveExpiry ch) s = .next (raise evMbxLink (resetChannel ch (onChan ch (fun c => { c with connected := false, plain := false, tlsSlot := none }) s)))) ∧
    (∀ ch, connectedOn s ch = true →
      exec (.mbxConnectionClosed ch) s = .next (raise evMbxLink (resetChannel ch (onChan ch (fun c => { c with connected := false, plain := false, tlsSlot := none }) s))))

/-- What each reset of a part out of reset leaves: the volatile state as State.reset has it, MRAM, NOR, keys and supplies kept (R34, R77, R79, R81, R96, R271, R358). Readings that the spec leaves open: log entries 8, 10, 31. -/
def Obligations.ResetsRun : Prop :=
  ∀ s : State,
    (s.sys.phase ≠ .held → s.sys.phase ≠ .heatHold →
      exec .resetNAssert s = .next { State.reset with
          sys := { State.reset.sys with
            resetCause := 0x02, pfwLow := s.sys.pfwLow, io33 := s.sys.io33, rtcLost := s.sys.rtcLost, rtcNoted := s.sys.rtcNoted }
          nv := s.nv, nvRec := s.nvRec, nvHub := s.nvHub, nvOut := { s.nvOut with
            unchecked := s.nvOut.unchecked.zipIdx.map fun p => p.1 || cutClosed (nth s.ses p.2) }, nvHeat := s.nvHeat, nvMtr := s.nvMtr
          nvSaf := s.nvSaf, nvStk := s.nvStk, slots := s.slots, env := { s.env with resetN := false }, free := s.free, pending := s.pending }) ∧
    (s.sys.phase ≠ .held → s.sys.phase ≠ .heatHold →
      exec .coreUndervoltageReset s = .next { State.reset with
          sys := { State.reset.sys with
            resetCause := 0x03, pfwLow := s.sys.pfwLow, io33 := s.sys.io33, rtcLost := s.sys.rtcLost, rtcNoted := s.sys.rtcNoted }
          nv := s.nv, nvRec := s.nvRec, nvHub := s.nvHub, nvOut := { s.nvOut with
            unchecked := s.nvOut.unchecked.zipIdx.map fun p => p.1 || cutClosed (nth s.ses p.2) }, nvHeat := s.nvHeat, nvMtr := s.nvMtr
          nvSaf := s.nvSaf, nvStk := s.nvStk, slots := s.slots, env := { s.env with rails := false }, free := s.free, pending := s.pending }) ∧
    (∀ rail, s.sys.phase ≠ .held → s.sys.phase ≠ .heatHold → rail ≠ 0 →
      exec (.railFaultReset rail) s = .next { State.reset with
          sys := { State.reset.sys with
            resetCause := 0x04, pfwLow := s.sys.pfwLow, io33 := s.sys.io33, rtcLost := s.sys.rtcLost, rtcNoted := s.sys.rtcNoted }
          nv := s.nv, nvRec := s.nvRec, nvHub := s.nvHub, nvOut := { s.nvOut with
            unchecked := s.nvOut.unchecked.zipIdx.map fun p => p.1 || cutClosed (nth s.ses p.2) }, nvHeat := s.nvHeat, nvMtr := s.nvMtr
          nvSaf := s.nvSaf, nvStk := s.nvStk, slots := s.slots, env := { s.env with rails := false, vddio := s.env.vddio && rail != 1 }, free := s.free, pending := s.pending }) ∧
    (s.sys.phase ≠ .held → s.sys.phase ≠ .heatHold → s.nv.causes.contains 0x0304 = false →
      exec (.railFaultReset 0) s = .next { State.reset with
          sys := { State.reset.sys with
            resetCause := 0x04, pfwLow := s.sys.pfwLow, io33 := s.sys.io33, rtcLost := s.sys.rtcLost, rtcNoted := s.sys.rtcNoted }
          nv := { s.nv with causes := s.nv.causes ++ [0x0304] }, nvRec := s.nvRec, nvHub := s.nvHub, nvOut := { s.nvOut with
            unchecked := s.nvOut.unchecked.zipIdx.map fun p => p.1 || cutClosed (nth s.ses p.2) }, nvHeat := s.nvHeat, nvMtr := s.nvMtr
          nvSaf := s.nvSaf, nvStk := s.nvStk, slots := s.slots, env := { s.env with rails := false }, free := s.free, pending := s.pending }) ∧
    (s.sys.phase ≠ .held → s.sys.phase ≠ .heatHold →
      exec .housekeepingWatchdogReset s = .next { State.reset with
          sys := { State.reset.sys with
            resetCause := 0x05, pfwLow := s.sys.pfwLow, io33 := s.sys.io33, rtcLost := s.sys.rtcLost, rtcNoted := s.sys.rtcNoted }
          nv := s.nv, nvRec := s.nvRec, nvHub := s.nvHub, nvOut := { s.nvOut with
            unchecked := s.nvOut.unchecked.zipIdx.map fun p => p.1 || cutClosed (nth s.ses p.2) }, nvHeat := s.nvHeat, nvMtr := s.nvMtr
          nvSaf := s.nvSaf, nvStk := s.nvStk, slots := s.slots, env := s.env, free := s.free, pending := s.pending }) ∧
    (s.sys.phase ≠ .held → s.sys.phase ≠ .heatHold → s.sys.resetDue = true →
      exec .commandReset s = .next { State.reset with
          sys := { State.reset.sys with
            resetCause := 0x06, pfwLow := s.sys.pfwLow, io33 := s.sys.io33, rtcLost := s.sys.rtcLost, rtcNoted := s.sys.rtcNoted }
          nv := s.nv, nvRec := s.nvRec, nvHub := s.nvHub, nvOut := { s.nvOut with
            unchecked := s.nvOut.unchecked.zipIdx.map fun p => p.1 || cutClosed (nth s.ses p.2) }, nvHeat := s.nvHeat, nvMtr := s.nvMtr
          nvSaf := s.nvSaf, nvStk := s.nvStk, slots := s.slots, env := s.env, free := s.free, pending := s.pending }) ∧
    (s.sys.phase = .held →
      exec .resetNAssert s = .next { State.reset with
          sys := { State.reset.sys with
            resetCause := min 0x02 s.sys.resetCause, pfwLow := s.sys.pfwLow, io33 := s.sys.io33, rtcLost := s.sys.rtcLost, rtcNoted := s.sys.rtcNoted }
          nv := s.nv, nvRec := s.nvRec, nvHub := s.nvHub, nvOut := { s.nvOut with
            unchecked := s.nvOut.unchecked.zipIdx.map fun p => p.1 || cutClosed (nth s.ses p.2) }, nvHeat := s.nvHeat, nvMtr := s.nvMtr
          nvSaf := s.nvSaf, nvStk := s.nvStk, slots := s.slots, env := { s.env with resetN := false }, free := s.free, pending := s.pending }) ∧
    (s.sys.phase = .heatHold → exec .resetNAssert s = .next { s with env.resetN := false }) ∧
    (up s = true → s.heat.shutdown = true →
      ∃ t, exec .dieThermalShutdown s = .next t ∧ t.sys.phase = .heatHold ∧ t.sys.resetCause = 0x07 ∧
        t.nvHeat.count = (s.nvHeat.count + 1) % 2 ^ 32 ∧ t.nvHeat.record = s.heat.die.map (·.value) ∧
        t.nvHeat.seconds = (s.nv.opSeconds :: s.nvHeat.seconds).take 3 ∧ t.sys.kicks = [] ∧ t.sys.live = false ∧
        t.saf = State.reset.saf ∧ t.ldc = State.reset.ldc ∧ t.nvMtr = s.nvMtr ∧ t.slots = s.slots) ∧
    (∀ p t, s.sys.lcPending = some p → t = meterCommit 3 (enterKick 0x0601 (commitDraft (draft 0x3101 srcA0
        (u8 (lifecycle s) ++ u8 p.target ++ u8 p.authority ++ u8 1) s) s)) → ¬(lifecycle s = lcProvisioned ∧ p.target = lcIntegration) →
      exec .lifecycleTransition s = .next (resetPart 0x08 (wipeKeys { t with
        nv.lc := putLifecycle p.target t.nv.lc, nv.lcOpen := none, nv.lcEvent := true })))

/-- What the steps of a boot do, from the release of a reset to the live mailbox (R11, R15, R47, R48, R80 to R90, R529). Readings that the spec leaves open: log entries 2, 30, 31. -/
def Obligations.BootRuns : Prop :=
  ∀ s : State,
    (∀ role node heldMs, s.sys.phase = .held → s.env.resetN = false → s.env.rails = true → s.nv.strapLast = none →
      exec (.resetNRelease role node heldMs) s = .next { s with
          sys.phase := .wipe, sys.roleStrap := role % 8, sys.nodeStrap := node % 8, sys.heldMs := min (heldMs) 4294967295
          sys.heldValid := s.env.vbat, env.heldMs := none, env.resetN := true, nv.powerCycles := (s.nv.powerCycles + 1) % 2 ^ 32
          nv.strapLast := some (role % 8 + 8 * (node % 8)) }) ∧
    (∀ role node heldMs old, s.sys.phase = .held → s.env.resetN = false → s.env.rails = true → s.nv.strapLast = some old → old ≠ role % 8 + 8 * (node % 8) →
      exec (.resetNRelease role node heldMs) s = .next (record 0x4102 srcBoot (u8 old ++ u8 (role % 8 + 8 * (node % 8)))
        { s with
          sys.phase := .wipe, sys.roleStrap := role % 8, sys.nodeStrap := node % 8, sys.heldMs := min (heldMs) 4294967295
          sys.heldValid := s.env.vbat, env.heldMs := none, env.resetN := true, nv.powerCycles := (s.nv.powerCycles + 1) % 2 ^ 32
          nv.strapLast := some (role % 8 + 8 * (node % 8)) })) ∧
    (∀ role node heldMs, s.sys.phase = .held → s.env.resetN = false → s.env.rails = false →
      exec (.resetNRelease role node heldMs) s = .next { s with env.resetN := true, env.heldMs := some (min heldMs 4294967295) }) ∧
    (∀ role node vddioMv, s.sys.phase = .held → s.env.resetN = true → s.env.heldMs = none → s.nv.strapLast = none →
      exec (.powerOnResetRelease role node vddioMv true) s = .next (drawn { s with
          env.rails := true, env.vddio := true, env.heldMs := none, sys.resetCause := 1
          sys.phase := .wipe, sys.io33 := decide (2500 ≤ vddioMv), sys.roleStrap := role % 8, sys.nodeStrap := node % 8, sys.heldMs := min (Config.freshNat s.free 4294967296) 4294967295
          sys.heldValid := s.env.vbat, nv.powerCycles := (s.nv.powerCycles + 1) % 2 ^ 32
          nv.strapLast := some (role % 8 + 8 * (node % 8)) })) ∧
    (∀ role node vddioMv held, s.sys.phase = .held → s.env.resetN = true → s.env.heldMs = some held → s.nv.strapLast = none →
      exec (.powerOnResetRelease role node vddioMv false) s = .next { s with
          env.rails := true, env.vddio := true, env.heldMs := none
          sys.phase := .wipe, sys.io33 := decide (2500 ≤ vddioMv), sys.roleStrap := role % 8, sys.nodeStrap := node % 8, sys.heldMs := min held 4294967295
          sys.heldValid := s.env.vbat, nv.powerCycles := (s.nv.powerCycles + 1) % 2 ^ 32
          nv.strapLast := some (role % 8 + 8 * (node % 8)) }) ∧
    (∀ role node vddioMv, s.sys.phase = .held → s.env.resetN = false →
      exec (.powerOnResetRelease role node vddioMv false) s = .next { s with
          env.rails := true, env.vddio := true, sys.io33 := decide (2500 ≤ vddioMv) }) ∧
    (∀ role node, s.sys.phase = .heatHold → 3 ≤ s.nvHeat.coolRun → s.env.resetN = true → s.env.rails = true → s.env.heldMs = none → s.nv.strapLast = none →
      exec (.shutdownHoldEnd role node) s = .next (drawn { s with
          sys.phase := .wipe, sys.roleStrap := role % 8, sys.nodeStrap := node % 8, sys.heldMs := min (Config.freshNat s.free 4294967296) 4294967295
          env.heldMs := none, sys.heldValid := s.env.vbat, nv.powerCycles := (s.nv.powerCycles + 1) % 2 ^ 32
          nv.strapLast := some (role % 8 + 8 * (node % 8)) })) ∧
    (s.sys.phase = .wipe → exec (.wipeComplete true) s = .next { s with sys.phase := .verify }) ∧
    (s.sys.phase = .wipe →
      exec (.wipeComplete false) s = .next (raise evSysLive { s with sys.phase := .failed, sys.live := true, sys.idrev := idrevOf 0 0 })) ∧
    (∀ t (x : State), s.sys.phase = .verify → selectFw (noteOpenTransition (discardTorn (wipeKeys (resolveSlots s)))) = (some t, x) →
      exec .imagesVerified s = .next (imagesSelected t)) ∧
    (∀ t, s.sys.phase = .verify → selectFw (noteOpenTransition (discardTorn (wipeKeys (resolveSlots s)))) = (none, t) →
      exec .imagesVerified s = .next (raise evSysLive { t with sys.phase := .failed, sys.live := true, sys.idrev := idrevOf 0 0 })) ∧
    (∀ result t, s.sys.phase = .selfTest → t = bootCauses result (startRole (startHeat { interruptAll (wipeKeys s) with sys.phase := .running })) →
      exec (.selfTestComplete result) s = .next (raiseIf t.nv.lcEvent evSysLifecycle (raise evSysLive { t with
          sys.idrev := idrevOf (fwInUse t).ifMajor (fwInUse t).ifMinor, sys.live := true, nv.lcEvent := false })))

/-- What the supply, clock, firewall and memory steps do (R33, R34, R36, R39 to R41, R75, R87, R89, R99, R298, R483). Readings that the spec leaves open: log entries 30, 31, 32. -/
def Obligations.SupplyAndFaultStepsRun : Prop :=
  ∀ s : State,
    (up s = true → exec .pfwNAssert s = .next (powerFailCommits (sendNotice (enterKick 0x0501 { s with sys.pfwLow := true })))) ∧
    (up s = false → outOfReset s = true → exec .pfwNAssert s = .next { s with sys.pfwLow := true, sys.pfwFell := true }) ∧
    (
      exec .pfwCauseGone s = .next { s with
          sys.pfwLow := false
          sys.kicks := s.sys.kicks.map fun c => if c.code == 0x0501 then { c with gone := true } else c }) ∧
    (∀ cause, hasKick s cause = true → causeCleared s cause = true → cause ≠ 0x0301 →
      exec (.kickstandCauseGone cause) s = .next (goneKick cause s)) ∧
    (hasKick s 0x0301 = true → 4000 ≤ s.saf.compareOk →
      exec (.kickstandCauseGone 0x0301) s = .next { goneKick 0x0301 s with saf.feedStop := false }) ∧
    (outOfReset s = true → s.sys.belowSupply = false →
      exec (.supplyBelowGuaranteed true) s = .next (record 0x4105 srcHousekeeping [] (raise evSysSupply { s with sys.belowSupply := true }))) ∧
    (outOfReset s = true → s.sys.belowSupply = true → exec (.supplyBelowGuaranteed true) s = .next s) ∧
    (outOfReset s = true → exec (.supplyBelowGuaranteed false) s = .next { s with sys.belowSupply := false }) ∧
    (outOfReset s = true → exec .referenceClockFault s = .next (enterKick 0x0201 (record 0x4106 srcHousekeeping (u8 0) s))) ∧
    (s.sys.rtcLost = false → outOfReset s = true →
      exec .rtcCrystalLost s = .next (wallQuality false (record 0x4106 srcHousekeeping (u8 1) { s with sys.rtcLost := true, sys.rtcNoted := true }))) ∧
    (s.sys.rtcLost = false → outOfReset s = false → exec .rtcCrystalLost s = .next { s with sys.rtcLost := true, env.wallGood := false }) ∧
    (outOfReset s = true → exec .vbatAbsent s = .next (wallQuality false { s with env.vbat := false })) ∧
    (∀ engine address write, outOfReset s = true → firewallRefuses engine address write = true → (4 ≤ engine && engine ≤ 6) = false →
      exec (.firewallViolation engine address write) s = .next (record 0x3103 srcHousekeeping (u8 engine ++ u32 address) (raise evSysFirewall { s with
          sys.refusals := s.sys.refusals + 1, sys.restarts := upd s.sys.restarts engine fun n => n + 1 }))) ∧
    (∀ engine address write, outOfReset s = true → firewallRefuses engine address write = true → 4 ≤ engine → engine ≤ 6 →
      exec (.firewallViolation engine address write) s = .next (enterKick 0x0202 (record 0x3103 srcHousekeeping (u8 engine ++ u32 address) (raise evSysFirewall { s with
          sys.refusals := s.sys.refusals + 1, sys.restarts := upd s.sys.restarts engine fun n => n + 1 })))) ∧
    (∀ engine, outOfReset s = true → (4 ≤ engine && engine ≤ 6) = false →
      exec (.sramUncorrectableError engine) s = .next (record 0x4107 srcHousekeeping (u8 0 ++ u8 engine) (raise evSysMemory { s with
          sys.restarts := upd s.sys.restarts engine fun n => n + 1 }))) ∧
    (∀ engine, outOfReset s = true → 4 ≤ engine → engine ≤ 6 →
      exec (.sramUncorrectableError engine) s = .next (enterKick 0x0202 (record 0x4107 srcHousekeeping (u8 0 ++ u8 engine) (raise evSysMemory { s with
          sys.restarts := upd s.sys.restarts engine fun n => n + 1 })))) ∧
    (∀ sector, outOfReset s = true → exec (.norReadError sector false) s = .next { s with sys.norRewritten := s.sys.norRewritten ++ [sector] }) ∧
    (∀ sector, outOfReset s = true → s.nv.badSectors.contains sector = false → recorderSector sector = false →
      exec (.norReadError sector true) s = .next (record 0x4107 srcHousekeeping (u8 1 ++ u32 sector)
        (raise evSysMemory { s with nv.badSectors := s.nv.badSectors ++ [sector] }))) ∧
    (∀ corrected, outOfReset s = true →
      exec (.norScrub corrected) s = .next { s with
        sys.norScrubbed := some s.nv.opSeconds, sys.norRewritten := s.sys.norRewritten ++ (corrected.filter fun x => 4 ≤ x.2).map (·.1) })

/-- What the epoch boundary and the Derailleur steps of its own do (R107, R109, R110, R112, R133, R134). Readings that the spec leaves open: log entries 14, 30, 33. -/
def Obligations.DerailleurStepsRun : Prop :=
  ∀ s : State,
    (∀ written, up s = true →
      exec (.epochBoundary written) s = .next (pelotonBoundary (shadowBoundary (recorderEpoch (hubBoundary written (applyCommits (ceilings (deliverMeter
        { passAuthority s with alc.epoch := ((passAuthority s).alc.epoch + 1) % 2 ^ 64, spk.eth := [] })))))))) ∧
    (10 ≤ s.alc.lateRun →
      exec .alcLateZeroCeilings s = .next { s with alc.grants := s.alc.grants.map fun g => { g with p := 0, i := 0 }, alc.bufferOut := 0 }) ∧
    (∀ input outlet, 
      exec (.alcInputStale input outlet) s = .next (raiseIf ((staleNow s).any fun i => !s.alc.stale.contains i) evAlcInputStale { s with alc.stale := staleNow s })) ∧
    (∀ h, s.alc.host = some h → h.2.2 ≤ s.alc.epoch → exec .alcSiteLimitExpiry s = .next (raise evAlcSiteLimit { s with alc.host := none })) ∧
    (∀ h, s.alc.host = some h → s.alc.epoch < h.2.2 → exec .alcSiteLimitExpiry s = .next s) ∧
    (∀ outlet, releaseDue s outlet = true → kicked s = false →
      exec (.stageReleaseDelay outlet) s = .next (planned (release outlet) s)) ∧
    (∀ outlet, releaseDue s outlet = true → kicked s = true → exec (.stageReleaseDelay outlet) s = .next s) ∧
    (∀ position, (assignOf s (posIndex position)).phase = .opening →
      exec (.matrixConfirmTimeout position) s = .next (abandonMove (posIndex position) s)) ∧
    (∀ position, (assignOf s (posIndex position)).phase = .closing →
      exec (.matrixConfirmTimeout position) s = .next (abandonMove (posIndex position) s))

/-- What the steps of the Cadence engine and the Chainring do (R142, R159, R163, R164, R177, R187 to R190). Readings that the spec leaves open: log entries 13, 34, 35. -/
def Obligations.ControlStepsRun : Prop :=
  ∀ s : State,
    (∀ group x, up s = true → working s = true → group < 16 → groupUsed (Machine.group s group).desc = true → x = tickBegins group (onGroup group (fun t => { t with overRun := 0 }) s) → (Machine.group x group).kick = true →
      exec (.controlTick group) s = .next (followSplit group (splitNow (tickModes group x) group) (tickModes group x))) ∧
    (∀ group x y, up s = true → working s = true → group < 16 → groupUsed (Machine.group s group).desc = true → x = tickBegins group (onGroup group (fun t => { t with overRun := 0 }) s) → (Machine.group x group).kick = false → y = tickModes group (tickRestart group x) → gSink (Machine.group y group).desc ≠ 3 →
      exec (.controlTick group) s = .next (tickSelect group y)) ∧
    (∀ group x y, up s = true → working s = true → group < 16 → groupUsed (Machine.group s group).desc = true → x = tickBegins group (onGroup group (fun t => { t with overRun := 0 }) s) → (Machine.group x group).kick = false → y = tickModes group (tickRestart group x) → gSink (Machine.group y group).desc = 3 →
      exec (.controlTick group) s = .next (tickObserver group y)) ∧
    (∀ group (completed : List Nat) x y, up s = true → working s = true → group < 16 → groupUsed (Machine.group s group).desc = true → (Machine.group s group).kick = false →
      x = setLate (lateGroup group) (onGroup group (fun t => { t with overruns := (t.overruns + 1) % 2 ^ 32, overRun := t.overRun + 1 })
        (holdOver group (tickRestart group (tickBegins group s)))) →
      y = (groupLoops x group).foldl (fun s i => if completed.contains i then s else setFlags i flOverrun s) x →
      exec (.groupOverrun group completed) s = .next (if 2 ≤ (Machine.group y group).overRun then kickGroup group y else y)) ∧
    (∀ group, group < 16 → holdDue (Machine.group s group) = true → exec (.zeroHoldComplete group) s = .next (completeHold group s)) ∧
    (∀ ring line, up s = true → ring < 2 → ringEnabled s ring = true → masters s = true → (Machine.ring s ring).running = true → (Machine.ring s ring).off = false → (Machine.ring s ring).frame = [] →
      exec (.chainringFrameReturn ring line) s = .next (settleTimer (launch ring s))) ∧
    (∀ ring line head, up s = true → ring < 2 → ringEnabled s ring = true → masters s = true → (Machine.ring s ring).running = true → (Machine.ring s ring).off = false → (Machine.ring s ring).frame ≠ [] → ringHead (ringSlots s ring) line = some head → ownHead s ring head = true →
      exec (.chainringFrameReturn ring line) s = .next (settleTimer (judgeSlots (ringSlots s ring) (Machine.ring s ring).tickSeq line (ringPositions s ring) none
        (launch ring (raiseIf (Machine.ring s ring).broken evChrRingRestored (onRing ring (fun t => { t with failRun := 0, broken := false }) s)))))) ∧
    (∀ ring line, up s = true → ring < 2 → ringEnabled s ring = true → masters s = true → (Machine.ring s ring).running = true → (Machine.ring s ring).off = false → (Machine.ring s ring).frame ≠ [] → ringHead (ringSlots s ring) line = none →
      exec (.chainringFrameReturn ring line) s = .next (settleTimer (judgeSlots (ringSlots s ring) (Machine.ring s ring).tickSeq line (ringPositions s ring) none
        (launch ring (settleBroken ring (onRing ring (fun t => { t with failRun := t.failRun + 1, failed := (t.failed + 1) % 2 ^ 32 }) s)))))) ∧
    (∀ ring line head, up s = true → ring < 2 → ringEnabled s ring = true → masters s = true → (Machine.ring s ring).running = true → (Machine.ring s ring).off = false → (Machine.ring s ring).frame ≠ [] → ringHead (ringSlots s ring) line = some head → ownHead s ring head = false →
      exec (.chainringFrameReturn ring line) s = .next (settleTimer (foreignMaster ring head s))) ∧
    (∀ ring line head, up s = true → ring < 2 → ringEnabled s ring = true → masters s = false → ringHead (ringSlots s ring) line = some head →
      exec (.chainringFrameReturn ring line) s = .next (listenSlots (ringSlots s ring) (hdSeq head) line (ringPositions s ring) (listenHead ring head s))) ∧
    (∀ position, stageDueLost (stage s (posIndex position)) = true → exec (.stageLost position) s = .next (loseStage (posIndex position) s)) ∧
    (∀ position, stageDuePresent (stage s (posIndex position)) = true →
      exec (.stagePresent position) s = .next (gainStage (posIndex position) s)) ∧
    (∀ ring, exec (.ringBroken ring) s = .next (settleBroken ring s))

/-- What the steps of the vehicle links do (R198 to R203, R205, R208 to R210, R212, R213). Readings that the spec leaves open: log entries 11, 24, 36. -/
def Obligations.VehicleLinkStepsRun : Prop :=
  ∀ s : State,
    (∀ slot (vPlus vMinus : Int) pps raw x y, up s = true → localSlot s slot = true → slot ≠ 2 → linkType s slot ≠ lkMcs → x = sampleProx slot pps s →
      linkType x slot = linkType s slot → (link x slot).drive ≠ driveF → (link x slot).drive ≠ driveOff → raw = pilotRaw (link x slot).drive vPlus vMinus →
      y = onLink slot (fun l => { l with vPlus := vPlus, vMinus := if (link x slot).drive = driveX2 then vMinus else 0 }) x →
      exec (.pilotPeriodEnd slot vPlus vMinus pps) s = .next (countSlacInit slot (nextDrive slot (settlePilot slot (onLink slot (fun l => { l with pilot := countRaw raw l.pilot })
        (if raw = 9 then linkCount slot lsDiode y else if raw = 6 ∨ raw = 8 then linkCount slot lsInvalid y else y)))))) ∧
    (∀ slot (vPlus vMinus : Int) pps x, up s = true → localSlot s slot = true → slot ≠ 2 → x = sampleProx slot pps s → (link x slot).drive = driveF ∨ (link x slot).drive = driveOff →
      exec (.pilotPeriodEnd slot vPlus vMinus pps) s = .next (countSlacInit slot (nextDrive slot (settleMatch slot (onLink slot (fun l => { l with pilot := { raw := 7, run := 0, value := 7 } })
        (onLink slot (fun l => { l with vPlus := vPlus
                                        vMinus := if (link x slot).drive = driveX2 && !(linkType x slot == lkMcs) then vMinus else 0 }) x)))))) ∧
    (∀ (vPlus vMinus : Int) pps, up s = true → localSlot s 2 = true →
      exec (.pilotPeriodEnd 2 vPlus vMinus pps) s = .next (nextDrive 2 (settlePilot 2 (onLink 2 (fun l => { l with pilot := countRaw (s.gpio / 256 % 8) l.pilot }) s)))) ∧
    (∀ slot, up s = true → localSlot s slot = true → exec (.pilotStateConfirmed slot) s = .next (settlePilot slot s)) ∧
    (∀ slot, up s = true → localSlot s slot = true → linkFilter s slot ≤ (link s slot).prox.run → (link s slot).prox.value ≠ (link s slot).prox.raw →
      exec (.proximityClassConfirmed slot) s = .next (confirmProx slot (link s slot).prox.raw s)) ∧
    (∀ slot, up s = true → localSlot s slot = true → (link s slot).prox.value = (link s slot).prox.raw →
      exec (.proximityClassConfirmed slot) s = .next s) ∧
    (up s = true → s.sys.role = 6 → localSlot s 2 = true → linkFilter s 2 ≤ (link s 2).pilot.run → (link s 2).pilot.value ≠ (link s 2).pilot.raw →
      exec .outletCCodeConfirmed s = .next (confirmPilot 2 (link s 2).pilot.raw s)) ∧
    (∀ slot mac runId, up s = true → mayMatch s slot = true → charOf (linkCount slot lsFrames s) slot runId = none → (link (linkCount slot lsFrames s) slot).chars.length < 4 →
      exec (.cmSlacParamReq slot mac runId) s = .next (answer slot (.slacParam runId mac)
        (onLink slot (fun l => { l with chars := l.chars ++ [{ run := runId, mac := mac }], slac := 1 }) (linkCount slot lsFrames s)))) ∧
    (∀ slot runId (sounds : List (List Nat)), up s = true → mayMatch s slot = true → sounds.flatten ≠ [] → (charOf s slot runId).isSome = true →
      exec (.slacSoundsReceived slot runId sounds) s = .next (answer slot (.attenChar runId (groupMeans sounds)) (onLink slot (fun l => { l with
          chars := l.chars.map fun c => if c.run == runId then { c with atten := some (sounds.flatten.sum, sounds.flatten.length) } else c })
        (linkCount slot lsFrames s)))) ∧
    (∀ slot, up s = true → mayMatch s slot = true → exec (.cmValidate slot) s = .next (answer slot .validateNotRequired (linkCount slot lsFrames s))) ∧
    (∀ slot mac runId a, up s = true → linkType s slot = lkCcs → matchAtten (linkCount slot lsFrames s) slot runId = some a →
      exec (.cmSlacMatchReq slot mac runId) s = .next (linkUp slot (answer slot (.slacMatch runId (fresh (linkCount slot lsFrames s) 16)) (raise evOutSlac (linkCount slot lsMatches (onLink slot (fun l => { l with
          slac := 2, chars := l.chars.filter (·.run == runId), mac := slice mac 0 6, atten := (roundDiv a.1 a.2).toNat, nmk := fresh (linkCount slot lsFrames s) 16 })
        (drawn (linkCount slot lsFrames s)))))))) ∧
    (∀ slot mac runId, up s = true → linkType s slot = lkCcs → matchAtten (linkCount slot lsFrames s) slot runId = none →
      exec (.cmSlacMatchReq slot mac runId) s = .next (record (unstatedCode 5 3) srcPilot (u8 slot ++ slice mac 0 6) (raise evOutSlac (linkCount slot lsRefusals
        (onLink slot (fun l => { l with slac := if l.slac = 2 then 2 else 3 }) (linkCount slot lsFrames s)))))) ∧
    (∀ slot, up s = true → linkType s slot = lkMcs → (link s slot).prox.value = 1 →
      exec (.t1sFrameReceived slot .valid) s = .next (linkUp slot (linkCount slot lsFrames s))) ∧
    (∀ slot, up s = true → linkType s slot = lkMcs →
      exec (.t1sFrameReceived slot .receiveError) s = .next (linkCount slot lsErrors s) ∧
      exec (.t1sFrameReceived slot .collision) s = .next (linkCount slot lsCollisions s) ∧
      exec (.t1sFrameReceived slot .jabber) s = .next (onLink slot (fun l => { l with jabber := (l.jabber + 1) % 2 ^ 32 }) s) ∧
      exec (.t1sFrameReceived slot .selfCheckFailed) s = .next (linkFault slot s)) ∧
    (∀ slot, up s = true → linkType s slot = lkMcs → exec (.t1sLinkTimeout slot) s = .next (linkDown slot s)) ∧
    (∀ gpio level x y, up s = true → gpio < 16 → x = { s with gpio := if level then s.gpio ||| 2 ^ gpio else s.gpio &&& (0xFFFF - 2 ^ gpio) } → y = raiseIf (bit s.gpio gpio != level && !(bridgedOn x gpio).isEmpty) evOutBridge x →
      exec (.bridgeGpioChange gpio level) s = .next ((bridgedOn y gpio).foldl (fun s k => if level then linkUp k s else linkDown k s) y)) ∧
    (∀ slot, up s = true → linkType s slot = lkCcs → exec (.slacTimerExpiry slot) s = .next (raise evOutSlac s))

/-- What the steps of the vehicle protocol and of authorisation do (R214, R215, R221, R224, R227, R228, R232, R234, R236 to R238, R240, R244). Readings that the spec leaves open: log entries 24, 36. -/
def Obligations.SessionProtocolStepsRun : Prop :=
  ∀ s : State,
    (∀ slot (protocolError : Bool) x y z, up s = true → localSlot s slot = true → x = (if firstSlot s slot then settleHub { s with grantAge := s.grantAge.map (· + 1) } else s) → y = endCauses slot (stepCauses x slot protocolError) (settleContacts slot (stepInputs slot x)) → z = settleIdle slot (settleStopped slot (followSafety slot (settleWant slot (settleOpen slot (settleImd slot (countImd slot y)))))) →
      exec (.sessionSequencerStep slot protocolError) s = .next (sendRequest slot (onLink slot (fun l => { l with driveNext := driveFor z slot }) z))) ∧
    (∀ slot vid x, up s = true → localSlot s slot = true → 2 ≤ (ses s slot).state → (ses s slot).state ≤ 4 → (link s slot).up = true → vehicleTraffic s slot vid = true → (link s slot).port = 0 →
      x = onLink slot (fun l => { l with port := 49152 + Config.freshNat s.free 16384 % 16384 }) (drawn s) →
      exec (.sdpRequest slot vid) s = .next (answer slot (.sdp (linkLocal (outletMac s slot)) (link x slot).port) x)) ∧
    (∀ slot vid, up s = true → localSlot s slot = true → 2 ≤ (ses s slot).state → (ses s slot).state ≤ 4 → (link s slot).up = true → vehicleTraffic s slot vid = true → (link s slot).port ≠ 0 →
      exec (.sdpRequest slot vid) s = .next (answer slot (.sdp (linkLocal (outletMac s slot)) (link s slot).port) s)) ∧
    (∀ slot (offers : List Nat) p, up s = true → localSlot s slot = true → (ses s slot).state = 2 → (link s slot).up = true → offers.find? (protocolOk s slot) = some p →
      exec (.supportedAppProtocolReq slot offers) s = .next (answer slot (.protocol p) (onLink slot (fun l => { l with protocol := p }) s))) ∧
    (∀ slot (offers : List Nat), up s = true → localSlot s slot = true → (ses s slot).state = 2 → (link s slot).up = true → offers.find? (protocolOk s slot) = none →
      exec (.supportedAppProtocolReq slot offers) s = .next (answer slot .failure s)) ∧
    (∀ slot keySlot hello, up s = true → localSlot s slot = true → (ses s slot).state = 2 → (link s slot).up = true → keySlot < 256 → invocation s keySlot (fun k => k.usage == useTls && tlsFits hello k.alg) byApplication true = none →
      exec (.tlsHandshakeComplete slot keySlot hello) s = .next (onLink slot (fun l => { l with tls := true, tlsVersion := hello.version, tlsSlot := keySlot }) s)) ∧
    (∀ slot method ident chain, up s = true → localSlot s slot = true → (link s slot).protocol ≠ 0 → (ses s slot).state = 3 →
      exec (.authorizationReq slot method ident chain) s = .next (answer slot .ongoing s)) ∧
    (∀ slot method ident chain, up s = true → localSlot s slot = true → (ses s slot).state = 2 → (link s slot).protocol ≠ 0 → methodAllowed s slot method chain = true → preAuth s slot = none →
      exec (.authorizationReq slot method ident chain) s = .next (answer slot .ongoing (raise evSesAuthRequest (onSes slot (fun x => { x with waiting := true }) (enterAuthorising slot method ident chain s))))) ∧
    (∀ slot method ident chain p, up s = true → localSlot s slot = true → (ses s slot).state = 2 → (link s slot).protocol ≠ 0 → methodAllowed s slot method chain = true → preAuth s slot = some p →
      exec (.authorizationReq slot method ident chain) s = .next (decide2 slot p.accept p.cls p.ident (enterAuthorising slot method ident chain s))) ∧
    (∀ slot method ident chain, up s = true → localSlot s slot = true → (ses s slot).state = 2 → (link s slot).protocol ≠ 0 → methodAllowed s slot method chain = false →
      exec (.authorizationReq slot method ident chain) s = .next (endCause slot 0x03 (answer slot .failure (enterAuthorising slot method ident chain s)))) ∧
    (∀ slot, up s = true → localSlot s slot = true → (ses s slot).state = 3 →
      exec (.authTimeoutExpiry slot) s = .next (decide2 slot false 255 [] s)) ∧
    (∀ slot, up s = true → localSlot s slot = true → preAuth s slot = none →
      exec (.authValidityExpiry slot) s = .next (onSes slot (fun x => { x with pre := none }) s)) ∧
    (∀ slot vMax, up s = true → localSlot s slot = true → (ses s slot).state = 4 →
      exec (.cableCheckReq slot vMax) s = .next (answer slot (.cableCheck false) (startWeld slot (onSes slot (fun x => { x with
          state := 5, mode := 1, isoDone := false, pre1 := {}, loop := some { (x.loop.getD noLoop) with vMax := vMax } }) s)))) ∧
    (∀ slot vMax, up s = true → localSlot s slot = true → (ses s slot).state = 5 ∨ (ses s slot).state = 6 →
      exec (.cableCheckReq slot vMax) s = .next (answer slot (.cableCheck ((ses s slot).state == 6 && (ses s slot).isoDone)) s)) ∧
    (∀ slot target, up s = true → localSlot s slot = true → ((ses s slot).state = 6 ∧ (ses s slot).isoDone = true) ∨ (ses s slot).state = 7 →
      exec (.prechargeReq slot target) s = .next (answer slot (.precharge (supplyVolts s slot)) (onSes slot (fun x => { x with
          state := 7, mode := 3, vTarget := target, near := x.near && x.state == 7 }) s))) ∧
    (∀ slot discharge, up s = true → localSlot s slot = true → (ses s slot).state = 7 → (discharge = true → mayExport s slot = true) →
      exec (.powerDeliveryStartReq slot discharge) s = .next (answer slot .accepted (raise evSesState (onSes slot (fun x => { x with state := 8, mode := if discharge then 5 else 4 }) s)))) ∧
    (∀ slot, up s = true → localSlot s slot = true → (ses s slot).state = 7 → mayExport s slot = false →
      exec (.powerDeliveryStartReq slot true) s = .next (answer slot .outsideLimits s)) ∧
    (∀ slot, up s = true → localSlot s slot = true → exec (.powerDeliveryStopReq slot) s = .next (endCause slot 0x01 s)) ∧
    (∀ slot exporting x, up s = true → localSlot s slot = true → mayExport s slot = true → (ses s slot).mode ≠ (if exporting then 5 else 4) → (ses s slot).state = 8 → x = raise evSesState (onSes slot (fun x => { x with state := 9, mode := if exporting then 5 else 4 }) s) →
      exec (.directionChangeReq slot exporting) s = .next (answer slot (loopAnswer x slot) x)) ∧
    (∀ slot exporting x, up s = true → localSlot s slot = true → mayExport s slot = true → (ses s slot).mode ≠ (if exporting then 5 else 4) → (ses s slot).state = 9 → x = onSes slot (fun x => { x with mode := if exporting then 5 else 4 }) s →
      exec (.directionChangeReq slot exporting) s = .next (answer slot (loopAnswer x slot) x)) ∧
    (∀ slot exporting, up s = true → localSlot s slot = true → mayExport s slot = false → (ses s slot).mode ≠ (if exporting then 5 else 4) → (ses s slot).state = 8 ∨ (ses s slot).state = 9 →
      exec (.directionChangeReq slot exporting) s = .next (answer slot .outsideLimits s)) ∧
    (∀ slot, up s = true → localSlot s slot = true → (link s slot).up = true → exec (.weldingDetectionReq slot) s = .next (answer slot (.weldingDetection (vehicleVolts s slot)) s)) ∧
    (∀ slot schedule, up s = true → localSlot s slot = true → 4 ≤ (ses s slot).state → (ses s slot).state ≤ 9 →
      exec (.vehicleRenegotiationReq slot schedule) s = .next (answer slot .renegotiation (raise evSesRenegotiation (onSes slot (fun x => { x with
        schedule := if schedule.isEmpty then x.schedule else schedule }) s)))) ∧
    (∀ grant, up s = true → exec (.grantReceived grant) s = .next (receiveGrant grant s)) ∧
    (∀ slot request, up s = true → localSlot s slot = true → (ses s slot).state = 8 ∨ (ses s slot).state = 9 →
      exec (.vehicleLoopRequest slot request) s = .next (answer slot (loopAnswer s slot) (onSes slot (fun x => { x with loop := some request }) s))) ∧
    (∀ slot service (dynamic : Bool) limits schedule, up s = true → localSlot s slot = true → (ses s slot).state = 4 → serviceOffered s slot service = true →
      exec (.vehicleNegotiationRequest slot service dynamic limits schedule) s = .next (answer slot (.limits (supplyLimits s slot)) (onSes slot (fun x => { x with
        bpt := service == .dcBpt || service == .dcAcdpBpt, dynamic := (link s slot).protocol == 3 && dynamic
        loop := some limits, schedule := schedule }) s))) ∧
    (∀ slot service (dynamic : Bool) limits schedule, up s = true → localSlot s slot = true → (ses s slot).state = 4 → serviceOffered s slot service = false →
      exec (.vehicleNegotiationRequest slot service dynamic limits schedule) s = .next (answer slot .failure s))

/-- What the steps of contactors, checks, stops and time-outs do (R230 to R234, R237 to R239, R243). Readings that the spec leaves open: log entry 24. -/
def Obligations.SessionPowerPathStepsRun : Prop :=
  ∀ s : State,
    (∀ slot, up s = true → localSlot s slot = true → mirrorShows s slot = true → exec (.contactorConfirmed slot) s = .next (contactConfirmed slot s)) ∧
    (∀ slot, up s = true → localSlot s slot = true → (ses s slot).confirmed = false → commandOld s slot = true → seMirror (sesCfg s slot) = 255 →
      exec (.contactorConfirmTimeout slot) s = .next (contactConfirmed slot s)) ∧
    (∀ slot, up s = true → localSlot s slot = true → (ses s slot).confirmed = false → commandOld s slot = true → seMirror (sesCfg s slot) ≠ 255 → (ses s slot).state = 11 →
      exec (.contactorConfirmTimeout slot) s = .next (toEnded slot (raise evSesEnd (notify slot 0x0A (onSes slot (takeCode 0x0A) (command2 slot false false s)))))) ∧
    (∀ slot, up s = true → localSlot s slot = true → (ses s slot).confirmed = false → commandOld s slot = true → seMirror (sesCfg s slot) ≠ 255 → (ses s slot).state ≠ 11 →
      exec (.contactorConfirmTimeout slot) s = .next (endCause slot 0x0A (command2 slot false false s))) ∧
    (∀ slot, up s = true → localSlot s slot = true → (ses s slot).state = 5 ∨ (ses s slot).state = 11 →
      exec (.weldTestStepRead slot) s = .next (weldRead slot s)) ∧
    (∀ slot, up s = true → localSlot s slot = true → (ses s slot).state = 11 → granting s slot = false →
      exec (.postcheckGrantTimeout slot) s = .next (toEnded slot (openAtOnce slot (deferCheck slot s)))) ∧
    (∀ slot kohm, up s = true → localSlot s slot = true → (ses s slot).state = 6 → (ses s slot).isoDone = false → (ses s slot).imdLow = some kohm → seImdSettle (sesCfg s slot) ≤ (ses s slot).imdMs → 500 * (ses s slot).vcc ≤ kohm * 10000 →
      exec (.imdSettleComplete slot) s = .next (onSes slot (fun x => { x with iso := kohm, isoDone := true, isoOutcome := 0 }) s)) ∧
    (∀ slot kohm, up s = true → localSlot s slot = true → (ses s slot).state = 6 → (ses s slot).isoDone = false → (ses s slot).imdLow = some kohm → seImdSettle (sesCfg s slot) ≤ (ses s slot).imdMs → kohm * 10000 < 500 * (ses s slot).vcc → 100 * (ses s slot).vcc ≤ kohm * 10000 →
      exec (.imdSettleComplete slot) s = .next (raise evSesCableCheck (record (unstatedCode 5 2) srcPilot (u8 slot ++ u16 (ses s slot).vcc ++ u32 kohm)
        (onSes slot (fun x => { x with iso := kohm, isoDone := true, isoOutcome := 1 }) s)))) ∧
    (∀ slot kohm, up s = true → localSlot s slot = true → (ses s slot).state = 6 → (ses s slot).isoDone = false → (ses s slot).imdLow = some kohm → seImdSettle (sesCfg s slot) ≤ (ses s slot).imdMs → kohm * 10000 < 100 * (ses s slot).vcc →
      exec (.imdSettleComplete slot) s = .next (endCause slot 0x07 (raise evSesCableCheck
        (onSes slot (fun x => { x with iso := kohm, isoDone := false, isoOutcome := 2 }) s)))) ∧
    (∀ slot, up s = true → localSlot s slot = true → (ses s slot).state = 5 ∨ ((ses s slot).state = 6 ∧ (ses s slot).isoDone = false) →
      exec (.cableCheckMaxExpiry slot) s = .next (endCause slot 0x07 (raise evSesCableCheck (onSes slot (fun x => { x with isoOutcome := 3 }) s)))) ∧
    (∀ slot, up s = true → localSlot s slot = true → (ses s slot).state = 7 → (ses s slot).near = false →
      exec (.prechargeTimeout slot) s = .next (endCause slot 0x08 s)) ∧
    (∀ slot, up s = true → localSlot s slot = true → renegotiates s slot = true → offSchedule s slot = true → renegFree s slot = true → (ses s slot).state = 8 →
      exec (.renegHoldExpiry slot) s = .next (raiseReneg slot s)) ∧
    (∀ slot, up s = true → localSlot s slot = true → renegotiates s slot = true → offSchedule s slot = true → renegFree s slot = true → (ses s slot).state = 9 →
      exec (.renegHoldExpiry slot) s = .next (onSes slot (fun x => { x with renegDue := true }) s)) ∧
    (∀ slot, up s = true → localSlot s slot = true → exec (.outletCurrentAtOpen slot) s = .next (settleOpen slot s)) ∧
    (∀ slot, up s = true → localSlot s slot = true → stopUnderCurrent s slot .orderly = true →
      exec (.endTimeoutExpiry slot) s = .next (openInWindow slot (forcedOpen slot s))) ∧
    (∀ slot, up s = true → localSlot s slot = true → stopUnderCurrent s slot .urgent = true →
      exec (.urgentStop100msExpiry slot) s = .next (openAtOnce slot (forcedOpen slot s))) ∧
    (up s = true → exec .hubLost s = .next (settleHub s))

/-- What the heat steps do (R252, R253, R255, R263, R266 to R268, R270, R271). Readings that the spec leaves open: log entry 18. -/
def Obligations.HeatStepsRun : Prop :=
  ∀ s : State,
    (∀ temps freqs due x y, up s = true → due = (inputsUsed s).filter (fun k => k.1 != 2 && inputDue s k.1 k.2) → x = due.foldl (fun s k => keepHist k.1 k.2 s) (convertInputs temps freqs due s) → y = ((thresholds x).filter (fun t => due.contains (thInput (thCfg x t)))).foldl (fun s t => evalThreshold t s) x →
      exec (.heatSamplePoint temps freqs) s = .next (keepFailed (settleStops (due.foldl (fun s k => if k.1 = 1 then s else settlePeriod k.1 k.2 s) y)))) ∧
    (∀ index, exec (.thresholdCrossed index) s = .next (settleStops (crossThreshold index s))) ∧
    (∀ index, exec (.thresholdRearmed index) s = .next (settleStops (rearmThreshold index s))) ∧
    (∀ kind index, exec (.sensorRecovered kind index) s = .next (recoverInput kind index s)) ∧
    (∀ readings x thr level hot, up s = true → x = (List.range 8).foldl (fun s i => takeReading 2 i (nth readings i)
        (dieReading (nth s.heat.die i).last (nth s.heat.die i).period (nth readings i)) s) s → thr = (x.heat.throttle.zip dieLevels).map (fun t => throttleStep x.cfg.dieHyst (junction x) t.2 t.1) → level = ((thr.zipIdx.filter (fun t => t.1.state == 2)).map (fun t => t.2 + 1)).foldl max 0 → hot = (x.heat.hotRun.zip x.heat.die).map (fun y => if 13500 ≤ y.2.value then y.1 + 1 else 0) →
      exec (.dieSample readings) s = .next (keepFailed (settleDiePeriod (raiseIf (level != x.heat.level) evHeatThrottle { x with
          heat.throttle := thr, heat.level := level, heat.hotRun := hot
          heat.shutdown := x.heat.shutdown || hot.any (3 ≤ ·) })))) ∧
    (∀ readings (value : Nat → Int), s.sys.phase = .heatHold → (∀ i < 8, dieFailed s i = false) → (∀ i < 8, dieReading (nth s.nvHeat.prev i) 10 (nth readings i) = some (value i)) → (∀ i < 8, value i < 10000) →
      ∃ t, exec (.shutdownSupervisorReading readings) s = .next t ∧ t.nvHeat.coolRun = s.nvHeat.coolRun + 1 ∧
        t.nvHeat.prev = (List.range 8).map (fun i => match nth readings i with | some r => some r | none => nth s.nvHeat.prev i)) ∧
    (∀ readings (value : Nat → Int) i, s.sys.phase = .heatHold → i < 8 → dieFailed s i = false → dieReading (nth s.nvHeat.prev i) 10 (nth readings i) = some (value i) → 10000 ≤ value i →
      ∃ t, exec (.shutdownSupervisorReading readings) s = .next t ∧ t.nvHeat.coolRun = 0 ∧
        t.nvHeat.prev = (List.range 8).map (fun i => match nth readings i with | some r => some r | none => nth s.nvHeat.prev i))

/-- What the metering steps do (R279, R280, R286, R290, R297, R298, R304, R485). Readings that the spec leaves open: log entries 16, 17. -/
def Obligations.MeteringStepsRun : Prop :=
  ∀ s : State,
    (∀ bits, s.mtr.running = true →
      exec (.meteringSample bits) s = .next ([1, 2, 3, 4].foldl integrateString ([0, 1, 2].foldl (fun s k => countLow k s) (meterSample bits s)))) ∧
    (∀ channel, up s = true → channelOwned s channel = true → (mchan s channel).faulted = false → exec (.meterChannelFaulted channel) s = .next (settleChannel channel s)) ∧
    (∀ channel, up s = true → channelOwned s channel = true → (mchan s channel).faulted = true → exec (.meterChannelValid channel) s = .next (settleChannel channel s)) ∧
    (∀ point, up s = true → pointOn s point = true → exec (.directionEstablished point) s = .next (settleDirection point s)) ∧
    (∀ corrected, outOfReset s = true →
      exec (.operatingSecond corrected) s = .next (settleEdit (settleLockout (meterCommit 0 (tickWall { s with
        nv.opSeconds := s.nv.opSeconds + 1, sys.corrected := s.sys.corrected + corrected }))))) ∧
    (∀ point, up s = true → intervalDue s point = true → exec (.intervalClose point) s = .next (closeInterval point 0 0 s)) ∧
    (up s = true → exec .wallTimeStepEffect s = .next (stepWall s)) ∧
    (∀ output, up s = true → ownsPulses s = true → output < 2 → (nth s.mtr.pulses output).high = false → 0 < (nth s.mtr.pulses output).waiting →
      exec (.testPulseStart output) s = .next { s with mtr.pulses := upd s.mtr.pulses output fun u =>
          { u with high := true, waiting := u.waiting - 1, width := pulseWidth s output } }) ∧
    (∀ output, up s = true →
      exec (.testPulseEnd output) s = .next { s with mtr.pulses := upd s.mtr.pulses output fun u => { u with high := false } })

/-- What the Spoke-line steps of zero crossings, beacons and slots do (R316, R317, R327, R328, R331 to R333, R341, R344, R346, R348 to R350). Readings that the spec leaves open: log entry 25. -/
def Obligations.SpokeTimingStepsRun : Prop :=
  ∀ s : State,
    (∀ time width, up s = true → onSpoke s = true → 100 ≤ width → isMaster s = true → exec (.zxEdge time width) s = .next (masterEdge time s)) ∧
    (∀ time width, up s = true → onSpoke s = true → 100 ≤ width → isMaster s = false → beaconCurrent s = true →
      exec (.zxEdge time width) s = .next { s with spk.phase := some (localPhase s time) }) ∧
    (∀ time width, width < 100 → exec (.zxEdge time width) s = .next s) ∧
    (up s = true → isMaster s = true → exec .zxFreeRun s = .next (freeRunNow { s with spk.zxBad := max 3 s.spk.zxBad, spk.zxGood := 0 })) ∧
    (up s = true → isMaster s = true → s.spk.freeRun = true → 8 ≤ s.spk.zxGood → 100 < (localPhase s (s.spk.edges.headD 0)).natAbs →
      exec .zxResync s = .next { s with spk.origin := ((s.spk.origin : Int) + clampI (-100) 100 (localPhase s (s.spk.edges.headD 0))).toNat }) ∧
    (∀ x, up s = true → isMaster s = true → s.spk.freeRun = true → 8 ≤ s.spk.zxGood → (localPhase s (s.spk.edges.headD 0)).natAbs ≤ 100 → x = { s with spk.origin := ((s.spk.origin : Int) + clampI (-100) 100 (localPhase s (s.spk.edges.headD 0))).toNat } →
      exec .zxResync s = .next (raise evSpkZx { x with
          spk.freeRun := false
          spk.odd := (4 * ((x.spk.edges.headD 0 : Int) - (x.spk.origin : Nat)) + (bpUs s : Nat)) / (2 * (bpUs s : Nat)) % 2 == 1 })) ∧
    (∀ x y, up s = true → isMaster s = true → s.env.vline = true → x = (if s.spk.freeRun then startPeriod (s.spk.origin + bpUs s) s else s) → y = sendClear 1 255 2 (beaconBody x) x →
      exec .beaconTransmit s = .next { y with
          spk.answers := y.spk.answers.drop 4, spk.takeover := false, spk.nodes := y.spk.nodes.map fun n => { n with new := false } }) ∧
    (∀ time bytes b, up s = true → onSpoke s = true → s.env.vline = true → beaconSealed s bytes = true → b = beaconOf bytes → isMaster s = true → b.network = s.cfg.spoke.network → newer 16 b.authGen s.chr.authGen = true →
      exec (.beaconReceived time bytes) s = .next (takeBeacon time b (raise evSpkForeign { s with spk.silenced := true, spk.master := some (b.src, b.authGen) }))) ∧
    (∀ time bytes b, up s = true → onSpoke s = true → s.env.vline = true → beaconSealed s bytes = true → b = beaconOf bytes → isMaster s = true → b.network ≠ s.cfg.spoke.network →
      exec (.beaconReceived time bytes) s = .next (raise evSpkForeign s)) ∧
    (∀ time bytes b, up s = true → onSpoke s = true → s.env.vline = true → beaconSealed s bytes = true → b = beaconOf bytes → isMaster s = false → s.spk.master = none → beaconNewer s b = true →
      exec (.beaconReceived time bytes) s = .next (takeBeacon time b s)) ∧
    (∀ time bytes b m, up s = true → onSpoke s = true → s.env.vline = true → beaconSealed s bytes = true → b = beaconOf bytes → isMaster s = false → s.spk.master = some m → m.1 / 8 = b.src / 8 → beaconNewer s b = true →
      exec (.beaconReceived time bytes) s = .next (takeBeacon time b s)) ∧
    (∀ time bytes b m, up s = true → onSpoke s = true → s.env.vline = true → beaconSealed s bytes = true → b = beaconOf bytes → isMaster s = false → s.spk.master = some m → m.1 / 8 ≠ b.src / 8 →
      exec (.beaconReceived time bytes) s = .next (raise evSpkForeign s)) ∧
    (∀ m, up s = true → onSpoke s = true → isMaster s = false → beaconCurrent s = true → s.spk.master = some m →
      exec .beaconLost s = .next (raise evSpkBeaconLost { spkCount m.1 lsBeacons s.cfg.spoke.missMax s with
          spk.missed := some s.cfg.spoke.missMax, spk.joined := false, spk.phase := none })) ∧
    (∀ x, up s = true → onSpoke s = true → isJoined s = true → isHub s = true → x = sendSlot 2 255 3 (grantBlock s ++ safeBlock s 151) s →
      exec .slotTransmit s = .next (if safeDue s = [] then x else { x with saf.frame := [] })) ∧
    (∀ x, up s = true → onSpoke s = true → isJoined s = true → isHub s = false → x = sendSlot 3 255 1 (requestBlock s ++ safeBlock s 39) s →
      exec .slotTransmit s = .next (if safeDue s = [] then x else { x with saf.frame := [] })) ∧
    (∀ (slot : SlotMsg) text, up s = true → onSpoke s = true → s.env.vline = true → slotSealed s slot = true → hdNet slot.head = s.cfg.spoke.network → hdKind slot.head = 2 → text = crypt s slot.period 0 slot.head slot.text → wordFresh (spkLink s (hdSrc slot.head)) (slot.period, hdIdx slot.head) 0 = true →
      exec (.slotReceived slot) s = .next ((safeFrames (text.drop 192)).foldl (fun s f => receiveCopy 0 f true s)
        (takeRecords (hdSrc slot.head) true text (heardNode (hdSrc slot.head) true (onSpkLink (hdSrc slot.head) (keepWord (slot.period, hdIdx slot.head) 0) s))))) ∧
    (∀ (slot : SlotMsg) text, up s = true → onSpoke s = true → s.env.vline = true → slotSealed s slot = true → hdNet slot.head = s.cfg.spoke.network → hdKind slot.head ≠ 2 → text = crypt s slot.period 0 slot.head slot.text → wordFresh (spkLink s (hdSrc slot.head)) (slot.period, hdIdx slot.head) 0 = true →
      exec (.slotReceived slot) s = .next ((safeFrames (text.drop 64)).foldl (fun s f => receiveCopy 0 f true s)
        (takeRecords (hdSrc slot.head) false text (heardNode (hdSrc slot.head) true (onSpkLink (hdSrc slot.head) (keepWord (slot.period, hdIdx slot.head) 0) s))))) ∧
    (∀ (slot : SlotMsg), up s = true → onSpoke s = true → s.env.vline = true → slotSealed s slot = true → hdNet slot.head = s.cfg.spoke.network → wordFresh (spkLink s (hdSrc slot.head)) (slot.period, hdIdx slot.head) 0 = false →
      exec (.slotReceived slot) s = .next s) ∧
    (∀ node, up s = true → isHub s = true → exec (.nodeSilent node) s = .next (settleNode node s)) ∧
    (∀ post, up s = true → isHub s = true → exec (.postLost post) s = .next (settlePost post s)) ∧
    (∀ post, up s = true → isHub s = true → 1 ≤ post →
      exec (.powerFailNotice post) s = .next (raise evSpkNotice (losePost post { s with
          spk.nodes := s.spk.nodes.map fun n => if n.post == post && n.network == s.cfg.spoke.network then { n with state := 2 } else n }))) ∧
    (∀ inRange, up s = true → onSpoke s = true → inRange ≠ s.env.vline →
      exec (.vlineRangeChange inRange) s = .next (raise evSpkBeaconLost { s with env.vline := inRange })) ∧
    (∀ inRange, inRange = s.env.vline → exec (.vlineRangeChange inRange) s = .next s)

/-- What the Spoke-line steps of data, tone maps, joining, windows and bridging do (R321, R326, R335 to R339, R344, R346, R351, R352). Readings that the spec leaves open: log entry 25. -/
def Obligations.SpokeDataStepsRun : Prop :=
  ∀ s : State,
    (∀ (m : Access), up s = true → onSpoke s = true → s.env.vline = true → beaconCurrent s = true → contender s = none →
      exec (.contentionAccess m) s = .next s) ∧
    (∀ (m : Access) l p x, up s = true → onSpoke s = true → s.env.vline = true → beaconCurrent s = true → contender s = some (l, p) → symbolsLeft s l m.time ≠ 0 → x = (if sendsPr0 p || (sendsPr1 p && !m.pr0) then sendPriority p s else s) → defers p m = true →
      exec (.contentionAccess m) s = .next x) ∧
    (∀ (m : Access) l p x, up s = true → onSpoke s = true → s.env.vline = true → beaconCurrent s = true → contender s = some (l, p) → symbolsLeft s l m.time ≠ 0 → x = (if sendsPr0 p || (sendsPr1 p && !m.pr0) then sendPriority p s else s) → defers p m = false → m.idle < backoffNow s l p →
      exec (.contentionAccess m) s = .next (drawn { x with spk.backoff := some (backoffNow s l p - m.idle) })) ∧
    (∀ (m : Access) l p x, up s = true → onSpoke s = true → s.env.vline = true → beaconCurrent s = true → contender s = some (l, p) → symbolsLeft s l m.time ≠ 0 → x = (if sendsPr0 p || (sendsPr1 p && !m.pr0) then sendPriority p s else s) → defers p m = false → backoffNow s l p ≤ m.idle →
      exec (.contentionAccess m) s = .next (sendFitting l p (symbolsLeft s l m.time - backoffNow s l p) (drawn { x with spk.backoff := some (backoffNow s l p - m.idle) }))) ∧
    (∀ burst words good x, up s = true → onSpoke s = true → s.env.vline = true → hdDst burst.head = spkSrc s → hdDst burst.head ≠ 255 →
      words = burst.words.zipIdx.map (fun x => (openWord s burst x.2 x.1, x.2)) → good = words.map (fun x => x.1.isSome) →
      x = settleMap (hdSrc burst.head) (words.foldl (arriveWord burst) (countBurst burst (good.filter (!·)).length s)) →
      exec (.dataBurstReceived burst) s = .next (sendClear 6 (hdSrc burst.head) 1 (u16 (hdIdx burst.head) ++ ackBitmap good) x)) ∧
    (∀ burst words, up s = true → onSpoke s = true → s.env.vline = true → hdDst burst.head = 255 →
      words = burst.words.zipIdx.map (fun x => (openWord s burst x.2 x.1, x.2)) →
      exec (.dataBurstReceived burst) s = .next (settleMap (hdSrc burst.head) (words.foldl (arriveWord burst)
        (countBurst burst ((words.map fun x => x.1.isSome).filter (!·)).length s)))) ∧
    (∀ (ack : Bytes), up s = true → onSpoke s = true → ackSealed s ack = true → (spkLink s (hdSrc ack)).sent ≠ [] → (∀ x ∈ (spkLink s (hdSrc ack)).sent, x.1 = g16 ack 8) →
      exec (.acknowledgementReceived ack) s = .next (onSpkLink (hdSrc ack) (fun l => { resend s.cfg.spoke.retryMax
        (((spkLink s (hdSrc ack)).sent.zipIdx.filter fun x => !bit (g8 ack (10 + x.2 / 8)) (x.2 % 8)).map (·.1)) l with cw := 0 }) s)) ∧
    (∀ peer, up s = true → onSpoke s = true → (spkLink s peer).sent ≠ [] →
      exec (.acknowledgementMissing peer) s = .next (onSpkLink peer (fun l => { resend s.cfg.spoke.retryMax l.sent l with
        cw := min 64 (2 * (if l.cw = 0 then initialCw l.prio else l.cw)) }) s)) ∧
    (∀ peer m, up s = true → onSpoke s = true → beaconCurrent s = true → mapDue (spkLink s peer) = true → m = chosenMap s (spkLink s peer) →
      exec (.toneMapUpdate peer) s = .next (raiseIf (mapChanged (spkLink s peer).rx m.rate m.span) evSpkTonemap
        (queueFrame peer 1 macToneMap (u8 m.ident ++ u8 m.rate ++ u8 m.span ++ u8 m.backoff ++ m.carriers)
          (onSpkLink peer (fun l => { l with bad := 0, mapUs := 0, rx := some m }) (drawn (drawn s)))))) ∧
    (∀ peer, up s = true → onSpoke s = true → beaconCurrent s = false → exec (.toneMapUpdate peer) s = .next s) ∧
    (∀ peer ident rate span backoff carriers, up s = true → onSpoke s = true →
      exec (.toneMapReceived peer ident rate span backoff carriers) s = .next (raiseIf (mapChanged (spkLink s peer).tx rate span) evSpkTonemap (onSpkLink peer (fun l => { l with
          tx := some { ident := ident, rate := rate, span := span, backoff := backoff, carriers := slice carriers 0 525 } }) s))) ∧
    (∀ requests, up s = true → isHub s = true →
      exec (.joinRequest requests) s = .next (decideJoins (requests.foldl takeJoin s))) ∧
    (∀ hub decisions, up s = true → isMaster s = true → exec (.joinDecision hub decisions) s = .next (decisions.foldl (takeDecision hub) s)) ∧
    (up s = true → onSpoke s = true → exec .switchingWindowOpen s = .next (windowContacts (windowMatrix { s with spk.window := true }))) ∧
    (up s = true → s.sys.role = 2 → beaconCurrent s = false → exec .noBeacon60s s = .next { s with spk.noWindows := true }) ∧
    (∀ (slot : SlotMsg), up s = true → onSpoke s = true → slotSealed s slot = true → hdNet slot.head = s.cfg.spoke.network → (spkLink s (hdSrc slot.head)).ethLast = none →
      exec (.islandEth0Frame slot) s = .next (takeIsland slot.head (crypt s slot.period 0 slot.head slot.text) (heardNode (hdSrc slot.head) false
        (onSpkLink (hdSrc slot.head) (fun l => { l with ethLast := some (slot.period, hdIdx slot.head) }) s)))) ∧
    (∀ (slot : SlotMsg) q, up s = true → onSpoke s = true → slotSealed s slot = true → hdNet slot.head = s.cfg.spoke.network → (spkLink s (hdSrc slot.head)).ethLast = some q → pairBelow q (slot.period, hdIdx slot.head) = true →
      exec (.islandEth0Frame slot) s = .next (takeIsland slot.head (crypt s slot.period 0 slot.head slot.text) (heardNode (hdSrc slot.head) false
        (onSpkLink (hdSrc slot.head) (fun l => { l with ethLast := some (slot.period, hdIdx slot.head) }) s)))) ∧
    (∀ (slot : SlotMsg) q, up s = true → onSpoke s = true → slotSealed s slot = true → hdNet slot.head = s.cfg.spoke.network → (spkLink s (hdSrc slot.head)).ethLast = some q → pairBelow q (slot.period, hdIdx slot.head) = false →
      exec (.islandEth0Frame slot) s = .next s) ∧
    (∀ vid etherType data, up s = true → onSpoke s = true → vid = s.cfg.spoke.bridgeVid → s.cfg.spoke.bridgeVid ≠ 0 → etherType ≠ 0x88B5 → etherType ≠ 0x88B6 →
      exec (.bridgedEthernetFrame true vid etherType data) s = .next (queueFrame 255 0 macBridged (u16 etherType ++ data) s)) ∧
    (∀ vid etherType data, up s = true → onSpoke s = true → vid = s.cfg.spoke.bridgeVid → s.cfg.spoke.bridgeVid ≠ 0 → etherType ≠ 0x88B5 → etherType ≠ 0x88B6 →
      exec (.bridgedEthernetFrame false vid etherType data) s = .next { s with spk.eth := s.spk.eth ++ [{ vid := vid, etherType := etherType, payload := data }] })

/-- What the steps of the safety functions do (R355 to R358, R361 to R363, R373, R374, R377, R378, R383, R385 to R388, R398, R527). Readings that the spec leaves open: log entry 20. -/
def Obligations.SafetyStepsRun : Prop :=
  ∀ s : State,
    (∀ s0 s1 loops sense vsout, up s = true → exec (.safetyTick s0 s1 loops sense vsout) s = .next (safetyTick s0 s1 loops sense vsout s)) ∧
    (∀ core x, up s = true → core < 2 → x = setLate (lateSafety core) { s with saf.tick := s.saf.tick + 1, saf.missed := (upd s.saf.missed core (· + 1)).set (1 - core) 0 } → x.saf.differ = false → nth x.saf.missed core < 2 →
      exec (.safetyEdgeMissed core) s = .next (feedLoads [1 - core] x)) ∧
    (∀ core x, up s = true → core < 2 → x = setLate (lateSafety core) { s with saf.tick := s.saf.tick + 1, saf.missed := (upd s.saf.missed core (· + 1)).set (1 - core) 0 } → x.saf.differ = true ∨ 2 ≤ nth x.saf.missed core →
      exec (.safetyEdgeMissed core) s = .next (feedLoads [1 - core] (compareFailed x))) ∧
    (up s = true → exec .vddSafeOutOfRange s = .next (enterKick 0x0304 (raise evSafCompare s))) ∧
    (∀ tp samples, up s = true → nth s.saf.tp tp = true → exec (.testSample tp samples) s = .next ((List.range 16).foldl (testInput tp samples) s)) ∧
    (∀ input, up s = true → exec (.discrepancyLate input) s = .next (settleDiscrepancy input s.saf.tick s)) ∧
    (∀ input, up s = true → exec (.resetInputPress input) s = .next (settlePress s input)) ∧
    (∀ index, up s = true → safeRunning s = true → exec (.twoHandLate index) s = .next (settleHands index s)) ∧
    (∀ index, up s = true → safeRunning s = true → (inst s index).mute.isSome = true →
      exec (.muteMaxExpiry index) s = .next (settleMuting index s)) ∧
    (∀ index, up s = true → safeRunning s = true → followLate s index = true →
      exec (.lockFeedbackTimeout index) s = .next (lockFaultAt index s)) ∧
    (∀ index, up s = true → safeRunning s = true → unlockDue s index = true →
      exec (.unlockDelayExpiry index) s = .next (driveLock index false s)) ∧
    (∀ pair, up s = true → (pairOf s pair).on = true → ((pairDemands s pair).any (demandDue s.saf.tick)) = true →
      exec (.maxRampExpiry pair) s = .next (launchPair (evalPair s pair) pair)) ∧
    (∀ pair vHigh vLow vsout, up s = true → darkDue s pair = true → (pairOf s pair).lowSide = true → vsout ≤ vLow + 50 →
      exec (.darkTest pair vHigh vLow vsout) s = .next { s with
          saf.darkTick := some s.saf.tick
          saf.pairs := upd s.saf.pairs pair fun p => { p with lowSide := !p.lowSide, tested := s.nv.opSeconds, darkTick := some s.saf.tick } }) ∧
    (∀ pair vHigh vLow vsout, up s = true → darkDue s pair = true → (pairOf s pair).lowSide = true → vLow + 50 < vsout →
      exec (.darkTest pair vHigh vLow vsout) s = .next (pairFault pair 2 { s with
          saf.darkTick := some s.saf.tick
          saf.pairs := upd s.saf.pairs pair fun p => { p with lowSide := !p.lowSide, tested := s.nv.opSeconds, darkTick := some s.saf.tick } })) ∧
    (∀ pair vHigh vLow vsout, up s = true → darkDue s pair = true → (pairOf s pair).lowSide = false → vHigh ≤ 50 →
      exec (.darkTest pair vHigh vLow vsout) s = .next { s with
          saf.darkTick := some s.saf.tick
          saf.pairs := upd s.saf.pairs pair fun p => { p with lowSide := !p.lowSide, tested := s.nv.opSeconds, darkTick := some s.saf.tick } }) ∧
    (∀ pair vHigh vLow vsout, up s = true → darkDue s pair = true → (pairOf s pair).lowSide = false → 50 < vHigh →
      exec (.darkTest pair vHigh vLow vsout) s = .next (pairFault pair 2 { s with
          saf.darkTick := some s.saf.tick
          saf.pairs := upd s.saf.pairs pair fun p => { p with lowSide := !p.lowSide, tested := s.nv.opSeconds, darkTick := some s.saf.tick } })) ∧
    (∀ pair, up s = true → (pairOf s pair).on = true → exec (.pairOvercurrent pair) s = .next (pairFault pair 3 s)) ∧
    (up s = true → s.env.vsout = true →
      exec (.vsoutRangeChange false) s = .next (raise evSafPairFault { s with
          env.vsout := false
          saf.pairs := s.saf.pairs.map fun p => { p with on := false, next := false, light := false } })) ∧
    (up s = true → s.env.vsout = false → exec (.vsoutRangeChange true) s = .next (raise evSafPairFault { s with env.vsout := true })) ∧
    (up s = true → exec .safetyFramePoint s = .next (periodicFrame s))

/-- What the steps of safe transport and of safety configuration do (R400 to R404, R407, R408). Readings that the spec leaves open: log entry 20. -/
def Obligations.SafeTransportStepsRun : Prop :=
  ∀ s : State,
    (∀ frame tag, up s = true → exec (.safetyCopyReceived 0 frame tag) s = .next (receiveCopy 0 frame true s)) ∧
    (∀ path frame (tag : Bytes), up s = true → path ≠ 0 → exec (.safetyCopyReceived path frame tag) s =
      .next (receiveCopy path frame (networkKey s bySafety != [] && tag == safetyTag s frame) s)) ∧
    (∀ conn, connOn s conn = true → exec (.skewWindowClose conn) s = .next (settleSkew conn s.saf.tick s)) ∧
    (∀ conn, connOn s conn = true → (Machine.conn s conn).watch.isSome = true →
      exec (.transportWatchdogExpiry conn) s = .next (settleWatch conn s.saf.tick s)) ∧
    (∀ conn, connOn s conn = true → exec (.degradedHoldExpiry conn) s = .next (settleHold conn s.saf.tick s)) ∧
    (∀ conn, connOn s conn = true → exec (.transportFaultClear conn) s = .next (settleClear conn s.saf.tick s)) ∧
    (∀ e, s.saf.edit = some e → e.since + 600 ≤ s.nv.opSeconds → exec .editSessionTimeout s = .next (raise evSafCfgEdit { s with saf.edit := none })) ∧
    (∀ t, s.nvSaf.lockUntil = some t → t ≤ s.nv.opSeconds →
      exec .passwordLockoutEnd s = .next (raise evSafCfgLockout { s with nvSaf.lockUntil := none, nvSaf.fails := 0 }))

/-- What the load-switch steps do (R75, R421 to R431). Readings that the spec leaves open: log entry 21. -/
def Obligations.LoadStepsRun : Prop :=
  ∀ s : State,
    (∀ vload readings x, up s = true → x = (List.range 24).foldl (evalLoad readings) { s with ldc.vload := vload } →
      exec (.ldcDiagnosticEval vload readings) s = .next ((waitingLoads x).foldl (fun s c => tryAdmit c s) x)) ∧
    (∀ channel, up s = true → (load s channel).on = true → exec (.ldcShortToGround channel) s = .next (loadFault channel 0 s)) ∧
    (∀ channel, up s = true → loadUsed s channel = true → (load s channel).on = true ∨ (load s channel).latch = false →
      exec (.ldcOvertemperature channel) s = .next (loadFault channel 1 s)) ∧
    (∀ channel, up s = true → exec (.ldcLatchClear channel) s = .next (settleLatch channel s)) ∧
    (∀ channel, up s = true → exec (.ldcRetryDelayExpiry channel) s = .next (settleRetry channel s)) ∧
    (∀ channel, up s = true → exec (.ldcRetryReload channel) s = .next (settleReload channel s)) ∧
    (∀ channel, up s = true → exec (.ldcSwitchOnAdmitted channel) s = .next (tryAdmit channel s)) ∧
    (∀ core, up s = true → exec (.loadWatchdogTrip core) s = .next (tripLoads core s)) ∧
    (∀ openUs closeUs, up s = true → s.ldc.tripped = true → 4000 ≤ s.ldc.fed → 4000 ≤ openUs → openUs < 4500 → closeUs ≤ 250 →
      exec (.loadWatchdogTest openUs closeUs) s = .next (raise evLdcWatchdog (record 0x2A01 srcSafety (u8 1 ++ u8 0) { s with ldc.tripped := false }))) ∧
    (∀ openUs closeUs, up s = true → s.ldc.tripped = true → 4000 ≤ s.ldc.fed → openUs < 4000 ∨ 4500 ≤ openUs ∨ 250 < closeUs →
      exec (.loadWatchdogTest openUs closeUs) s = .next (raise evLdcWatchdog (record 0x2A01 srcSafety (u8 2 ++ u8 0) { s with ldc.tripped := true }))) ∧
    (up s = true → s.env.vload = false →
      exec (.vloadRangeChange true) s = .next ((List.range 24).foldl (fun s c => askOn c s)
        (raise evLdcSupply (record 0x4A03 srcHousekeeping (uFlag true) { s with env.vload := true })))) ∧
    (up s = true → s.env.vload = true →
      exec (.vloadRangeChange false) s = .next (loadsOff (raise evLdcSupply (record 0x4A03 srcHousekeeping (uFlag false) { s with env.vload := false }))))

/-- What the buffer-stack steps do (R440, R441, R444, R448, R449). Readings that the spec leaves open: log entry 22. -/
def Obligations.StackStepsRun : Prop :=
  ∀ s : State,
    (up s = true → ownsStack s = true → (s.stk.chains.any fun h => h.reading.isSome) = false →
      exec .stackSweep s = .next ([0, 1].foldl startSweep s)) ∧
    (∀ chain frame, up s = true → shadowing s = false → ownsStack s = true → readAllOwn s chain frame = true → (Machine.chain s chain).reading = some false →
      exec (.readAllReturn chain true frame) s = .next (finishSweep chain (noteBlanks chain (frameSlots frame) (wholeAgain chain ((frameSlots frame).foldl (takeSlot chain) s))))) ∧
    (∀ chain frame, up s = true → shadowing s = false → ownsStack s = true → readAllOwn s chain frame = true → (Machine.chain s chain).reading = some false →
      exec (.readAllReturn chain false frame) s = .next (goPartial chain ((frameSlots frame).foldl (takeSlot chain) s))) ∧
    (∀ chain atB frame, up s = true → shadowing s = false → ownsStack s = true → readAllOwn s chain frame = true → (Machine.chain s chain).reading = some true →
      exec (.readAllReturn chain atB frame) s = .next (endReread chain ((frameSlots frame).foldl (takeSlot chain) s))) ∧
    (∀ chain atB frame, up s = true → shadowing s = true →
      exec (.readAllReturn chain atB frame) s = .next ((frameSlots frame).foldl (keepSlot chain) s)) ∧
    (∀ chain, up s = true → ownsStack s = true → (Machine.chain s chain).reading = some false →
      exec (.readAllTimeout chain) s = .next (goPartial chain s)) ∧
    (∀ chain, up s = true → ownsStack s = true → (Machine.chain s chain).reading = some true →
      exec (.readAllTimeout chain) s = .next (endReread chain s)) ∧
    (∀ chain counter companions, up s = true → ownsStack s = true → chainLen s chain ≠ 0 → (Machine.chain s chain).enumDue = true →
      exec (.enumerateReturn chain counter true companions) s = .next (breakFound chain counter (onChain chain (fun h => { h with counter := counter, tries := 0, enumDue := false }) s))) ∧
    (∀ chain counter companions, up s = true → ownsStack s = true → chainLen s chain ≠ 0 → (Machine.chain s chain).enumDue = true → counter = chainLen s chain →
      exec (.enumerateReturn chain counter false companions) s = .next (enumerated chain companions s)) ∧
    (∀ chain counter companions, up s = true → ownsStack s = true → chainLen s chain ≠ 0 → (Machine.chain s chain).enumDue = true → counter ≠ chainLen s chain →
      exec (.enumerateReturn chain counter false companions) s = .next (miscounted chain counter s)) ∧
    (∀ chain, up s = true → ownsStack s = true → chainLen s chain ≠ 0 → (Machine.chain s chain).enumDue = true → 1 ≤ (Machine.chain s chain).tries →
      exec (.enumerationRetry chain) s = .next (sendEnumerate chain s)) ∧
    (∀ chain, up s = true → ownsStack s = true → chainLen s chain ≠ 0 → (Machine.chain s chain).state = 4 →
      exec (.enumerationRetry chain) s = .next (sendEnumerate chain s)) ∧
    (up s = true → ownsStack s = true → exec .balanceCycle s = .next ([1, 2, 3, 4].foldl balanceString s)) ∧
    (∀ chain, up s = true → (Machine.chain s chain).permit = true → (Machine.chain s chain).loop.value = false →
      exec (.faultLoopOpen chain) s = .next (settleService (settleLoop chain s))) ∧
    (∀ chain, up s = true → (Machine.chain s chain).permit = false → exec (.faultLoopPermitReturn chain) s = .next (settleLoop chain s))

/-- What the recorder steps do (R489, R491, R493). Readings that the spec leaves open: log entries 27, 32. -/
def Obligations.RecorderStepsRun : Prop :=
  ∀ s : State,
    (∀ count, 
      exec (.norRecordCopy count) s = .next { s with
          nvRec.area := s.nvRec.area.drop count
          nvRec.parts := s.nvRec.parts.zipIdx.map fun x => { x.1 with
            nor := x.1.nor ++ (s.nvRec.area.take count).filter fun r => partOf r.code == x.2 + 1 && x.1.oldest ≤ r.pidx } }) ∧
    (∀ code, (s.recd.windows.any fun w => w.code == code && w.start + w.length ≤ s.nv.opSeconds) = true →
      exec (.rateLimitWindowEnd code) s = .next (closeWindow code s)) ∧
    (up s = true → exec .recordClearEffect s = .next (settleClearRec s))

/-- What the steps of the tandem pair and the peloton do (R499 to R505, R508, R509, R514, R518, R520). Readings that the spec leaves open: log entry 28. -/
def Obligations.PairStepsRun : Prop :=
  ∀ s : State,
    (paired s = true → s.tdm.heartbeat = true → exec .heartbeatAbsent s = .next (raise evTdmPartnerLost { s with tdm.heartbeat := false })) ∧
    (mayClaim s = true → exec .authorityClaim s = .next (claim s)) ∧
    (s.tdm.guardRuns = true → s.tdm.authI = false → exec (.claimGuardEnd false) s = .next (gain s)) ∧
    (∀ partnerHigh, s.tdm.guardRuns = true → partnerHigh = true ∨ s.tdm.authI = true → s.sys.role = 5 →
      exec (.claimGuardEnd partnerHigh) s = .next (fence 1 s)) ∧
    (∀ partnerHigh, s.tdm.guardRuns = true → partnerHigh = true ∨ s.tdm.authI = true → s.sys.role ≠ 5 →
      exec (.claimGuardEnd partnerHigh) s = .next { s with tdm.guardRuns := false, tdm.authI := true }) ∧
    (mayClaim s = true → s.sys.live = true → s.tdm.state = .syncing → exec .bootClaimWaitEnd s = .next (claim s)) ∧
    (paired s = true → holds s = true → exec .authorityTimerExpiry s = .next (lowerAuth s)) ∧
    (∀ x, paired s = true → s.tdm.authO = false → s.tdm.state = .standby → x = { s with tdm.authI := false, tdm.heartbeat := true } →
      exec (.partnerAuthLost true) s = .next (fence 2 x)) ∧
    (∀ x, paired s = true → s.tdm.authO = false → s.tdm.state = .standby → x = raiseIf s.tdm.heartbeat evTdmPartnerLost { s with tdm.authI := false, tdm.heartbeat := false } → mayClaim x = true →
      exec (.partnerAuthLost false) s = .next (claim x)) ∧
    (∀ heartbeat x, paired s = true → s.tdm.authO = true → s.tdm.guardRuns = false → holds s = false → x = raiseIf (s.tdm.heartbeat && !heartbeat) evTdmPartnerLost { s with tdm.authI := false, tdm.heartbeat := heartbeat } →
      exec (.partnerAuthLost heartbeat) s = .next (gain x)) ∧
    (paired s = true → exec .partnerClaimSeen s = .next { s with tdm.authI := true }) ∧
    (paired s = true → s.tdm.state = .fenced →
      exec .fenceResolved s = .next (raise evTdmFenced (tdmSync (goneKick 0x0603 { s with
          tdm.fenceCause := 0, tdm.heartbeat := s.tdm.heartbeat || s.tdm.fenceCause != 3
          tdm.authI := s.tdm.authI || s.tdm.fenceCause != 3, chr.rings := s.chr.rings.map fun r => { r with off := false } })))) ∧
    (∀ frame, up s = true → shadows s = true → shadowGood s frame = true → exec (.shadowFrameReceived frame) s = .next (takeShadow frame s)) ∧
    (∀ frame, up s = true → shadows s = true → shadowGood s frame = false → frame.crcOk = false →
      exec (.shadowFrameReceived frame) s = .next { s with tdm.eligible := 0, tdm.heartbeat := true }) ∧
    (∀ frame, up s = true → shadows s = true → shadowGood s frame = false → frame.crcOk = true →
      exec (.shadowFrameReceived frame) s = .next (raise evTdmMismatch { s with tdm.eligible := 0, tdm.heartbeat := true, tdm.digestMatch := false })) ∧
    (up s = true → paired s = true → s.tdm.state = .standby → exec .shadowFramesMissing s = .next (raise evTdmPartnerLost (tdmSync s))) ∧
    (up s = true → paired s = true → s.tdm.state = .active →
      exec .shadowFramesMissing s = .next (raise evTdmPartnerLost (tdmEnter .alone { s with tdm.partner := 3, tdm.switchPending := false }))) ∧
    (∀ rules groups loops authGen period, up s = true → shadows s = true →
      exec (.bulkTransferReceived rules groups loops authGen period) s = .next (takeService (fullTable 256 32 rules) groups loops { s with
        nvHub.authGen := max s.nvHub.authGen authGen, nvHub.period := max s.nvHub.period period
        alc.staging := fullTable 256 32 rules, tdm.bulk := true, tdm.eligible := 0 })) ∧
    (up s = true → paired s = true → s.tdm.state = .alone → exec .standbyEligible s = .next (tdmEnter .active { s with tdm.partner := 2 })) ∧
    (up s = true → paired s = true → s.tdm.state ≠ .alone → exec .standbyEligible s = .next (settleEligible s)) ∧
    (paired s = true → holds s = true → s.tdm.switchSent = true → exec .switchOverBoundary s = .next (lowerAuth s)) ∧
    (∀ slot frame, up s = true → s.sys.role = 6 → slot < 4 → slot ≠ s.sys.nodeStrap → pfGood slot frame = true →
      exec (.pelotonFrame slot frame) s = .next (takeMember slot frame s)) ∧
    (∀ slot frame, up s = true → s.sys.role = 6 → slot < 4 → slot ≠ s.sys.nodeStrap → pfGood slot frame = false →
      exec (.pelotonFrame slot frame) s = .next (onMember slot (fun x => { x with good := 0 }) s)) ∧
    (∀ member, up s = true → s.sys.role = 6 → member ≠ s.sys.nodeStrap → (Machine.member s member).state = 1 →
      exec (.pelotonMemberLost member) s = .next (memberChanges member 2 s)) ∧
    (up s = true → s.sys.role = 6 → s.sys.nodeStrap ≠ 0 → s.plt.syncLost = false →
      exec .pltSyncLost s = .next (raise evPltSync { s with plt.syncLost := true, plt.gridValid := false }))

/-- What the metering commands on records that the request checks admit do (R293, R294, R313). Readings that the spec leaves open: log entries 17, 19. -/
def Obligations.MeteringRecordsRun : Prop :=
  ∀ (s : State) (r : Req),
    (∀ mseq (x : MRec), Admits (.mtrGetRecord r mseq) s → mseqHeld s mseq = true → recordOf s mseq = some x → x.bad = false →
      exec (.mtrGetRecord r mseq) s = .next
        (okay r 0x0703 (u8 (if x.mseq = mseq then 1 else 3) ++ recBytes x) s (started r s))) ∧
    (∀ mseq (x : MRec), Admits (.mtrGetRecord r mseq) s → mseqHeld s mseq = true → recordOf s mseq = some x → x.bad = true →
      exec (.mtrGetRecord r mseq) s = .next
        (okay r 0x0703 (u8 2 ++ recBytes x) s (recordLegal 0x1706 (u64 x.mseq) (started r s)))) ∧
    (∀ mseq format offset (x : MRec), Admits (.mtrRenderRecord r mseq format offset) s → renderKeys s format = none → format < 2 → mseqHeld s mseq = true → recordOf s mseq = some x → nth s.mtr.rendered r.ch = none →
      exec (.mtrRenderRecord r mseq format offset) s = .next
        (accepted r 0x0704 40 (.render x mseq format offset) s (started r s))) ∧
    (∀ mseq format offset (x : Bytes), Admits (.mtrRenderRecord r mseq format offset) s → renderKeys s format = none → format < 2 → mseqHeld s mseq = true → nth s.mtr.rendered r.ch = some (mseq, format, x) → offset ≤ x.length →
      exec (.mtrRenderRecord r mseq format offset) s = .next
        (okay r 0x0704 (u32 x.length ++ (x.drop offset).take 4000) s (started r s))) ∧
    (∀ mseq format offset (x : MRec) m f (b : Bytes), Admits (.mtrRenderRecord r mseq format offset) s → renderKeys s format = none → format < 2 → mseqHeld s mseq = true → recordOf s mseq = some x → nth s.mtr.rendered r.ch = some (m, f, b) → m ≠ mseq ∨ f ≠ format →
      exec (.mtrRenderRecord r mseq format offset) s = .next
        (accepted r 0x0704 40 (.render x mseq format offset) s (started r s))) ∧
    (∀ mseq, Admits (.mtrAckRecords r mseq) s → s.nvMtr.tail ≤ mseq → mseq < s.nvMtr.head →
      exec (.mtrAckRecords r mseq) s = .next
        (okay r 0x0705 [] s (ackRecords mseq (started r s))))
end

