-- ==== Sys2Proof/Laws/Mailbox.lean ====
section
/-!
SUPPORT. What the shared operations of the mailbox can do: starting a command changes the mailbox alone, the request checks of
R64 admit or refuse, and a command that is admitted runs its body and answers.
-/
namespace Sys2Proof.Machine

/-! ### Starting a command -/

theorem onChan_mbx (ch : Nat) (f : Channel → Channel) (s : State) : onChan ch f s = { s with mbx := (onChan ch f s).mbx } := rfl

/-- Starting a command changes nothing outside the mailbox. -/
theorem started_mbx (r : Req) (s : State) : started r s = { s with mbx := (started r s).mbx } := by
  unfold started noteCred; split <;> rfl

theorem started_exists (r : Req) (s : State) : ∃ m : Mbx, started r s = { s with mbx := m } := ⟨_, started_mbx r s⟩

/-! ### Channels -/

theorem upd_length {α : Type} (l : List α) (i : Nat) (f : α → α) : (upd l i f).length = l.length := by
  unfold upd; simp

theorem upd_getD {α : Type} (l : List α) (i j : Nat) (f : α → α) (d : α) :
    (upd l i f).getD j d = if i = j ∧ j < l.length then f (l.getD j d) else l.getD j d := by
  unfold upd; simp only [List.getD_eq_getElem?_getD, List.getElem?_modify]
  by_cases h : i = j
  · subst h; by_cases h2 : i < l.length
    · simp [h2]
    · simp [h2]
  · simp [h]

theorem chan_onChan (ch c : Nat) (f : Channel → Channel) (s : State) :
    chan (onChan ch f s) c = if ch = c ∧ c < s.mbx.channels.length then f (chan s c) else chan s c := by
  unfold chan onChan; exact upd_getD _ _ _ _ _

theorem onChan_length (ch : Nat) (f : Channel → Channel) (s : State) :
    (onChan ch f s).mbx.channels.length = s.mbx.channels.length := upd_length _ _ _

/-- A change of a channel that keeps its credentials keeps what a request's handle names. -/
theorem credOf_onChan_creds (ch : Nat) (f : Channel → Channel) (s : State) (r : Req)
    (h : ∀ c, (f c).creds = c.creds) : credOf (onChan ch f s) r = credOf s r := by
  unfold credOf; rw [chan_onChan]; split
  · rw [h]
  · rfl

theorem passCred_find (handle seq h : Nat) (l : List Cred) :
    ((passCred handle seq l).find? fun c => c.handle == h).map (·.key) = (l.find? fun c => c.handle == h).map (·.key) := by
  induction l with
  | nil => rfl
  | cons d l ih =>
    have hd : passCred handle seq (d :: l) =
        (if d.handle == handle then { d with last := some seq, fails := 0 } else d) :: passCred handle seq l := rfl
    rw [hd, List.find?_cons, List.find?_cons]
    have hh : (if d.handle == handle then { d with last := some seq, fails := 0 } else d : Cred).handle = d.handle := by
      split <;> rfl
    rw [hh]; split
    · simp only [Option.map_some]; split <;> rfl
    · exact ih

theorem credOf_noteCred_key (r : Req) (s : State) :
    (credOf (noteCred r false s) r).map (·.key) = (credOf s r).map (·.key) := by
  unfold noteCred; split
  · rfl
  · unfold credOf; rw [if_neg (by simp), chan_onChan]; split
    · exact passCred_find _ _ _ _
    · rfl

/-- Starting a command leaves the session key of its request. -/
theorem authKey_started (r : Req) (s : State) : authKey (started r s) r = authKey s r := by
  have h : (credOf (started r s) r).map (·.key) = (credOf s r).map (·.key) := by
    unfold started; rw [credOf_noteCred_key]; unfold onTag count
    refine congrArg _ (Eq.trans (credOf_onChan_creds _ _ _ _ ?_) (credOf_onChan_creds _ _ _ _ ?_)) <;> exact fun _ => rfl
  have h2 : (credOf (started r s) r).isSome = (credOf s r).isSome := by
    have := congrArg Option.isSome h; simpa using this
  unfold authKey authentic; rw [h2, h]

/-! ### The request checks (R64) -/

/-- A request that the checks admit starts its command. -/
theorem gate_admitted {k : Cmd} {r : Req} {s : State} (h : admitted k r s = true) : gate k r s = .go (started r s) := by
  unfold admitted at h; simp only [Bool.and_eq_true, Bool.not_eq_true'] at h
  obtain ⟨⟨⟨⟨h1, h2⟩, h3⟩, h4⟩, h5⟩ := h
  unfold gate; rw [h1, h2]; simp only [Bool.not_true, Bool.and_false, Bool.false_eq_true, ↓reduceIte, h3]
  have hv : verdict k r s = none := by simpa using h5
  rw [hv]; split
  · rename_i q f e; rw [e] at h4; simp only [Bool.not_eq_true'] at h4; rw [h4]; rfl
  · rfl

/-- An admitted command runs its body and delivers its answer. -/
theorem command_admitted {k : Cmd} {r : Req} {s : State} (body : State → Reply) (h : admitted k r s = true) :
    command k r body s = .next (deliver k r (authKey s r) (body (started r s))) := by
  unfold command; rw [gate_admitted h]; simp only [authKey_started]

/-- An admitted command whose body answers ST_OK. -/
theorem command_okay {k : Cmd} {r : Req} {s t : State} {p : Bytes} {body : State → Reply} (h : admitted k r s = true)
    (hb : body (started r s) = ⟨t, stOk, p⟩) : command k r body s = .next (okay r k.op p s t) := by
  rw [command_admitted body h, hb]; rfl

/-- An admitted command whose body answers a final status that is no internal error. -/
theorem command_answered {k : Cmd} {r : Req} {s t : State} {p : Bytes} {st : Nat} {body : State → Reply}
    (h : admitted k r s = true) (hb : body (started r s) = ⟨t, st, p⟩) (h1 : st ≠ stAccepted) (h2 : st ≠ stInternal) :
    command k r body s = .next (answered r k.op st p s t) := by
  rw [command_admitted body h, hb]; unfold deliver; rw [if_neg h1]; simp only [if_neg h2]; rfl

/-- An admitted command that is accepted. -/
theorem command_accepted {k : Cmd} {r : Req} {s t : State} {b : Nat} {w : Work} {body : State → Reply}
    (h : admitted k r s = true) (hb : body (started r s) = accept k r b w t) :
    command k r body s = .next (accepted r k.op b w s t) := by
  rw [command_admitted body h, hb]; rfl

/-- A command whose first failing check is `st`. -/
theorem checked_stop {l : List (Bool × Nat)} {st : Nat} (s : State) (f : State → Reply) (h : firstOf l = some st) :
    checked l s f = .no s st := by unfold checked; rw [h]

/-- A command none of whose checks fails. -/
theorem checked_go {l : List (Bool × Nat)} (s : State) (f : State → Reply) (h : firstOf l = none) :
    checked l s f = f s := by unfold checked; rw [h]

theorem firstOf_cons_false (st : Nat) (l : List (Bool × Nat)) : firstOf ((false, st) :: l) = firstOf l := rfl

theorem firstOf_cons_true (st : Nat) (l : List (Bool × Nat)) : firstOf ((true, st) :: l) = some st := rfl

end Sys2Proof.Machine
end

