-- ==== Sys2Proof/Laws/Memory.lean ====
section
/-!
SUPPORT. The byte memory: every write keeps the canonical form, a byte written reads back, and every other byte stays.
-/
namespace Sys2Proof.Machine

theorem memWrite_mem {m : Mem} {a : Nat} {b : Byte} {c : Nat × Byte} (h : c ∈ memWrite m a b) : c ∈ m ∨ c.1 = a ∧ c.2 ≠ 0 := by
  induction m with
  | nil => unfold memWrite at h; split at h <;> simp_all
  | cons x m ih =>
    obtain ⟨k, v⟩ := x
    unfold memWrite at h
    split at h
    · split at h
      · exact .inl h
      · rcases List.mem_cons.1 h with rfl | h
        · exact .inr ⟨rfl, by assumption⟩
        · exact .inl h
    · split at h
      · split at h
        · exact .inl (List.mem_cons_of_mem _ h)
        · rcases List.mem_cons.1 h with rfl | h
          · exact .inr ⟨rfl, by assumption⟩
          · exact .inl (List.mem_cons_of_mem _ h)
      · rcases List.mem_cons.1 h with rfl | h
        · exact .inl List.mem_cons_self
        · exact (ih h).imp_left (List.mem_cons_of_mem _)

/-- The canonical form, of a memory with a first entry. -/
theorem Memory.wf_cons {k : Nat} {v : Byte} {m : Mem} :
    Memory.wf ((k, v) :: m) ↔ (∀ c ∈ m, k < c.1) ∧ v ≠ 0 ∧ Memory.wf m := by
  simp only [Memory.wf, List.map_cons, List.pairwise_cons, List.mem_map, List.mem_cons, forall_eq_or_imp,
    forall_exists_index, and_imp, forall_apply_eq_imp_iff₂]
  exact ⟨fun ⟨⟨a, b⟩, c, d⟩ => ⟨a, c, b, d⟩, fun ⟨a, c, b, d⟩ => ⟨⟨a, b⟩, c, d⟩⟩

/-- A write keeps the canonical form. -/
theorem memWrite_wf {m : Mem} (a : Nat) (b : Byte) (h : Memory.wf m) : Memory.wf (memWrite m a b) := by
  induction m with
  | nil => unfold memWrite; split <;> simp_all [Memory.wf]
  | cons x m ih =>
    obtain ⟨k, v⟩ := x
    have hc := Memory.wf_cons.1 h
    unfold memWrite
    split
    · split
      · exact h
      · refine Memory.wf_cons.2 ⟨?_, by assumption, h⟩
        intro c hm
        rcases List.mem_cons.1 hm with rfl | hm
        · assumption
        · exact Nat.lt_trans (by assumption) (hc.1 c hm)
    · split
      · split
        · exact hc.2.2
        · exact Memory.wf_cons.2 ⟨fun c hm => by have := hc.1 c hm; omega, by assumption, hc.2.2⟩
      · refine Memory.wf_cons.2 ⟨fun c hm => ?_, hc.2.1, ih hc.2.2⟩
        rcases memWrite_mem hm with hm | hm
        · exact hc.1 c hm
        · omega

/-- Writing a byte string keeps the canonical form. -/
theorem memWrites_wf {m : Mem} (a : Nat) (b : Bytes) (h : Memory.wf m) : Memory.wf (memWrites m a b) := by
  induction b generalizing m a with
  | nil => exact h
  | cons x b ih => exact ih _ (memWrite_wf a x h)

/-- An address below every entry reads as 0. -/
theorem memRead_below {m : Mem} {a : Nat} (h : ∀ c ∈ m, a < c.1) : memRead m a = 0 := by
  induction m with
  | nil => rfl
  | cons x m ih =>
    obtain ⟨k, v⟩ := x
    have := h (k, v) List.mem_cons_self
    unfold memRead
    rw [if_neg (by simp only at this; omega)]
    exact ih fun c hc => h c (List.mem_cons_of_mem _ hc)

/-- What a byte reads as after a write: the byte written at its address, elsewhere what was there. -/
theorem memRead_memWrite {m : Mem} (a c : Nat) (b : Byte) (h : Memory.wf m) :
    memRead (memWrite m a b) c = if c = a then b else memRead m c := by
  induction m with
  | nil =>
    unfold memWrite
    split
    · split <;> simp_all [memRead]
    · simp only [memRead]; split <;> split <;> simp_all
  | cons x m ih =>
    obtain ⟨k, v⟩ := x
    have hc := Memory.wf_cons.1 h
    unfold memWrite
    split
    · rename_i hlt
      have hb : memRead ((k, v) :: m) a = 0 := memRead_below fun d hd => by
        rcases List.mem_cons.1 hd with rfl | hd
        · exact hlt
        · exact Nat.lt_trans hlt (hc.1 d hd)
      split
      · rename_i hz; split
        · rename_i e; rw [e, hb, hz]
        · rfl
      · rw [memRead]; split <;> split <;> first | rfl | omega
    · split
      · rename_i _ e
        split
        · rename_i hz; split
          · rename_i e2; rw [e2, hz]; exact memRead_below fun d hd => by have := hc.1 d hd; omega
          · rename_i n e2; rw [memRead, if_neg (fun hk => n (by omega))]
        · rw [memRead, memRead, ← e]
          by_cases e2 : c = a
          · rw [if_pos e2, if_pos e2.symm]
          · rw [if_neg e2, if_neg (Ne.symm e2), if_neg (Ne.symm e2)]
      · rw [memRead, ih hc.2.2, memRead]
        split <;> split <;> first | rfl | omega

/-- What a byte reads as after writing a byte string: its byte inside the string, elsewhere what was there. -/
theorem memRead_memWrites {m : Mem} (a c : Nat) (b : Bytes) (h : Memory.wf m) :
    memRead (memWrites m a b) c = if a ≤ c ∧ c < a + b.length then b.getD (c - a) 0 else memRead m c := by
  induction b generalizing m a with
  | nil => simp only [memWrites, List.length_nil]; rw [if_neg (by omega)]
  | cons x b ih =>
    rw [memWrites, ih _ (memWrite_wf a x h), memRead_memWrite _ _ _ h, List.length_cons]
    by_cases h1 : a + 1 ≤ c ∧ c < a + 1 + b.length
    · rw [if_pos h1, if_pos (by omega), show c - a = (c - (a + 1)) + 1 by omega, List.getD_cons_succ]
    · rw [if_neg h1]
      by_cases h2 : c = a
      · subst h2; rw [if_pos rfl, if_pos (by omega), Nat.sub_self, List.getD_cons_zero]
      · rw [if_neg h2, if_neg (by omega)]

theorem memReads_length (m : Mem) (a n : Nat) : (memReads m a n).length = n := by
  induction n generalizing a with
  | zero => rfl
  | succ n ih => rw [memReads, List.length_cons, ih]

end Sys2Proof.Machine
end

