-- ==== Sys2Proof/Laws/Keep.lean ====
section
/-!
SUPPORT. What every operation keeps: the waiting commands and the sound state. Inv is State.sound with the queue fixed; its
Kickstand clause can be left open while an operation is half way through the entry into Kickstand.
-/
namespace Sys2Proof.Machine

/-- Where a run began: the queue that is left, and what no later state falls behind. -/
structure Base where
  queue : List Instr
  fwMin : Nat
  legalMin : Nat
  opSeconds : Nat
  nextSeq : Nat
  legal : List Record

/-- The state is sound, but for the Kickstand clause where `b` is false, and has the queue of `q` and all that `q` has. -/
structure Inv (b : Bool) (q : Base) (s : State) : Prop where
  pend : s.pending = q.queue
  ring : Memory.wf s.mbx.ring
  fw : ∀ x ∈ s.nv.fw, Memory.wf x.raw
  cfg : ∀ x ∈ s.nv.cfg, Memory.wf x.raw
  chans : s.mbx.channels.length = 4
  tags : ∀ c ∈ s.mbx.channels, c.tags.length = 32
  slots : s.slots.length = 256
  off : b = true → s.kickOff
  fwMin : q.fwMin ≤ s.nv.fwMin
  legalMin : q.legalMin ≤ s.nv.legalMin
  opSeconds : q.opSeconds ≤ s.nv.opSeconds
  nextSeq : q.nextSeq ≤ s.nvRec.nextSeq
  legal : ∀ x ∈ q.legal, s.holdsLegal x
  parts : s.partsOk

/-- Every next state an answer can give keeps the invariant. -/
def Sat (b : Bool) (q : Base) (r : Res) : Prop := ∀ t, r = .next t → Inv b q t

/-- A reply whose state keeps the invariant. -/
def RInv (b : Bool) (q : Base) (p : Reply) : Prop := Inv b q p.state

/-- What a state is a base of. -/
def State.base (s : State) (queue : List Instr) : Base :=
  ⟨queue, s.nv.fwMin, s.nv.legalMin, s.nv.opSeconds, s.nvRec.nextSeq, s.legalRecords⟩

theorem Inv.sound {q : Base} {s : State} (h : Inv true q s) : s.sound :=
  ⟨⟨h.ring, h.fw, h.cfg⟩, ⟨h.chans, h.tags⟩, h.slots, h.off rfl, h.parts⟩

theorem Inv.upTo {s t : State} {l : List Instr} (h : Inv true (s.base l) t) : s.upTo t :=
  ⟨h.fwMin, h.legalMin, h.opSeconds, h.nextSeq, h.legal⟩

/-- A sound state, whatever its queue becomes. -/
theorem inv_of_sound {s : State} (l : List Instr) (h : s.sound) : Inv true (s.base l) { s with pending := l } :=
  ⟨rfl, h.1.1, h.1.2.1, h.1.2.2, h.2.1.1, h.2.1.2, h.2.2.1, fun _ => h.2.2.2.1, Nat.le_refl _, Nat.le_refl _, Nat.le_refl _,
    Nat.le_refl _, fun _ h => .inl h, h.2.2.2.2⟩

theorem Inv.weak {b : Bool} {q : Base} {s : State} (h : Inv b q s) : Inv false q s :=
  { h with off := fun e => nomatch e }

/-- Inv of a state by the parts of it that Inv speaks of. -/
def Core (b : Bool) (q : Base) (p : List Instr) (ring : Mem) (chans : List Channel) (fw : List FwSlot) (cfg : List CfgSlot) (slots : List KeySlot) (kicks : List KickCause) (pairs : List Pair) (loads : List Load) (n1 : Nat) (n2 : Nat) (n3 : Nat) (n4 : Nat) (parts : List Part) (area : List Record) : Prop :=
  p = q.queue ∧ Memory.wf ring ∧ (∀ x ∈ fw, Memory.wf x.raw) ∧ (∀ x ∈ cfg, Memory.wf x.raw) ∧ chans.length = 4 ∧
    (∀ c ∈ chans, c.tags.length = 32) ∧ slots.length = 256 ∧
    (b = true → (!kicks.isEmpty) = true → (∀ x ∈ pairs, x.on = false) ∧ ∀ x ∈ loads, x.on = false) ∧
    q.fwMin ≤ n1 ∧ q.legalMin ≤ n2 ∧ q.opSeconds ≤ n3 ∧ q.nextSeq ≤ n4 ∧
    (∀ x ∈ q.legal, x ∈ legalOf parts area ∨ x.pidx < (nth parts 0).floor) ∧ parts.length = 4 ∧ (nth parts 0).oldest = 0

theorem Inv.core {b : Bool} {q : Base} {s : State} (h : Inv b q s) :
    Core b q s.pending s.mbx.ring s.mbx.channels s.nv.fw s.nv.cfg s.slots s.sys.kicks s.saf.pairs s.ldc.chans s.nv.fwMin s.nv.legalMin s.nv.opSeconds s.nvRec.nextSeq s.nvRec.parts s.nvRec.area :=
  ⟨h.1, h.2, h.3, h.4, h.5, h.6, h.7, h.8, h.9, h.10, h.11, h.12, h.13, h.14⟩

/-- Inv of a state that is written out. -/
theorem inv_mk {b : Bool} {q : Base} {sys : Sys} {win : Win} {mbx : Mbx} {keys : Keys} {recd : Recorder} {cfg : ConfigImage} {alc : Alc} {cad : Cadence} {chr : Chainring} {links : List Link} {ses : List Session} {grantAge : Option Nat} {gpio : Nat} {heat : Heat} {spk : Spoke} {mtr : Mtr} {saf : Saf} {ldc : Ldc} {stk : Stk} {tdm : Tdm} {plt : Peloton} {nv : SysNv} {nvRec : RecNv} {nvHub : HubNv} {nvOut : OutletNv} {nvHeat : HeatNv} {nvMtr : MtrNv} {nvSaf : SafNv} {nvStk : StkNv} {slots : List KeySlot} {env : Env} {free : Nat} {pending : List Instr} :
    Inv b q ⟨sys, win, mbx, keys, recd, cfg, alc, cad, chr, links, ses, grantAge, gpio, heat, spk, mtr, saf, ldc, stk, tdm, plt, nv, nvRec, nvHub, nvOut, nvHeat, nvMtr, nvSaf, nvStk, slots, env, free, pending⟩ =
      Core b q pending mbx.ring mbx.channels nv.fw nv.cfg slots sys.kicks saf.pairs ldc.chans nv.fwMin nv.legalMin nv.opSeconds nvRec.nextSeq nvRec.parts nvRec.area :=
  propext ⟨fun h => h.core, fun ⟨a1, a2, a3, a4, a5, a6, a7, a8, a9, b1, b2, b3, b4, b5⟩ =>
    ⟨a1, a2, a3, a4, a5, a6, a7, a8, a9, b1, b2, b3, b4, b5⟩⟩

/-! ### Combinators -/

theorem ite_keeps {b : Bool} {q : Base} {c : Prop} [Decidable c] {s t : State} (h : Inv b q s) (h2 : Inv b q t) :
    Inv b q (if c then s else t) := by split <;> assumption

theorem foldl_keeps {b : Bool} {q : Base} {α : Type} {l : List α} {f : State → α → State} {s : State} (h : Inv b q s)
    (hf : ∀ (s : State) (a : α), Inv b q s → Inv b q (f s a)) : Inv b q (l.foldl f s) := by
  induction l generalizing s with
  | nil => exact h
  | cons a l ih => exact ih (hf s a h)

theorem next_keeps {b : Bool} {q : Base} {s : State} (h : Inv b q s) : Sat b q (.next s) := by
  intro t e; cases e; exact h

theorem reply_mk {b : Bool} {q : Base} {s : State} {st : Nat} {p : Bytes} : RInv b q ⟨s, st, p⟩ = Inv b q s := rfl

theorem mem_upd {α : Type} {l : List α} {i : Nat} {f : α → α} {x : α} (h : x ∈ upd l i f) : x ∈ l ∨ ∃ y ∈ l, x = f y := by
  unfold upd at h
  obtain ⟨j, hj⟩ := List.getElem?_of_mem h
  rw [List.getElem?_modify] at hj
  cases e : l[j]? with
  | none => rw [e] at hj; simp at hj
  | some y =>
    rw [e] at hj
    have hm : y ∈ l := List.mem_of_getElem? e
    simp only [Option.map_eq_map, Option.map_some, Option.some.injEq] at hj
    split at hj
    · exact .inr ⟨y, hm, hj.symm⟩
    · exact .inl (hj ▸ hm)

/-- A property that a change of one element keeps holds of every element after it. -/
theorem all_upd {α : Type} {P : α → Prop} {l : List α} {i : Nat} {f : α → α} (h : ∀ x ∈ l, P x) (hf : ∀ x, P x → P (f x)) :
    ∀ x ∈ upd l i f, P x := by
  intro x hx
  rcases mem_upd hx with hx | ⟨y, hy, rfl⟩
  · exact h x hx
  · exact hf y (h y hy)

theorem all_map {α β : Type} {P : α → Prop} {Q : β → Prop} {l : List α} {f : α → β} (h : ∀ x ∈ l, P x)
    (hf : ∀ x, P x → Q (f x)) : ∀ x ∈ l.map f, Q x := by
  intro x hx
  obtain ⟨y, hy, rfl⟩ := List.mem_map.1 hx
  exact hf y (h y hy)

/-! ### The recorder -/

theorem part0_upd {P : Part → Prop} {l : List Part} {n : Nat} {f : Part → Part} (h : P (nth l 0))
    (hf : n = 0 → P (nth l 0) → P (f (nth l 0))) : P (nth (upd l n f) 0) := by
  unfold nth at *; rw [upd_getD]; split
  · rename_i e; exact hf e.1 h
  · exact h

/-- A partition may change where the LEGAL partition keeps its records in NOR and its floor. -/
theorem parts_upd {b : Bool} {q : Base} {n : Nat} {f : Part → Part} {s : State} (h : Inv b q s)
    (hf : n = 0 → ∀ p, (f p).nor = p.nor ∧ (f p).floor = p.floor ∧ (f p).oldest = p.oldest) :
    Core b q s.pending s.mbx.ring s.mbx.channels s.nv.fw s.nv.cfg s.slots s.sys.kicks s.saf.pairs s.ldc.chans
      s.nv.fwMin s.nv.legalMin s.nv.opSeconds s.nvRec.nextSeq (upd s.nvRec.parts n f) s.nvRec.area :=
  ⟨h.1, h.2, h.3, h.4, h.5, h.6, h.7, h.8, h.9, h.10, h.11, h.12, fun x hx => by
    have hl := h.13 x hx
    unfold State.holdsLegal State.legalRecords legalOf at hl
    unfold legalOf
    exact part0_upd (P := fun p => x ∈ p.nor ++ s.nvRec.area.filter (fun x => partOf x.code == 1) ∨ x.pidx < p.floor) hl
      fun e hp => by rw [(hf e _).1, (hf e _).2.1]; exact hp,
    (upd_length _ _ _).trans h.14.1, part0_upd (P := fun p => p.oldest = 0) h.14.2 fun e hp => (hf e _).2.2.trans hp⟩

/-- Records may be added to the commit area. -/
theorem area_app {b : Bool} {q : Base} {l : List Record} {n : Nat} {s : State} (h : Inv b q s) (hn : s.nvRec.nextSeq ≤ n) :
    Core b q s.pending s.mbx.ring s.mbx.channels s.nv.fw s.nv.cfg s.slots s.sys.kicks s.saf.pairs s.ldc.chans
      s.nv.fwMin s.nv.legalMin s.nv.opSeconds n s.nvRec.parts (s.nvRec.area ++ l) :=
  ⟨h.1, h.2, h.3, h.4, h.5, h.6, h.7, h.8, h.9, h.10, h.11, Nat.le_trans h.12 hn, fun x hx => by
    have hl := h.13 x hx
    unfold State.holdsLegal State.legalRecords legalOf at hl
    unfold legalOf
    simp only [List.filter_append, List.mem_append] at *
    rcases hl with (hl | hl) | hl
    · exact .inl (.inl hl)
    · exact .inl (.inr (.inl hl))
    · exact .inr hl, h.14⟩

/-- The operating seconds may rise. -/
theorem seconds_up {b : Bool} {q : Base} {n : Nat} {s : State} (h : Inv b q s) (hn : s.nv.opSeconds ≤ n) :
    Core b q s.pending s.mbx.ring s.mbx.channels s.nv.fw s.nv.cfg s.slots s.sys.kicks s.saf.pairs s.ldc.chans
      s.nv.fwMin s.nv.legalMin n s.nvRec.nextSeq s.nvRec.parts s.nvRec.area :=
  ⟨h.1, h.2, h.3, h.4, h.5, h.6, h.7, h.8, h.9, h.10, Nat.le_trans h.11 hn, h.12, h.13, h.14⟩

end Sys2Proof.Machine
end

