-- ==== Sys2Proof/Laws/KeepShared.lean ====
section
/-!
SUPPORT. Keeping the sound state and the queue (Laws/Keep.lean): the flags, records, mailbox answers, metering commits and Kickstand.
-/
namespace Sys2Proof.Machine

theorem raise_keeps {β : Bool} {κ : Base} (n : Nat) {s : State} (h : Inv β κ s) : Inv β κ (raise n s) := by
  unfold raise
  try dsimp only
  repeat' first | (with_reducible first | assumption | apply Inv.core) | simp only [↓inv_mk] | split

theorem raiseIf_keeps {β : Bool} {κ : Base} (c : Bool) (n : Nat) {s : State} (h : Inv β κ s) : Inv β κ (raiseIf c n s) := by
  unfold raiseIf
  repeat' first | (with_reducible first | assumption | apply ite_keeps | apply raise_keeps) | split

theorem winErr_keeps {β : Bool} {κ : Base} (n : Nat) {s : State} (h : Inv β κ s) : Inv β κ (winErr n s) := by
  unfold winErr
  try dsimp only
  repeat' first | (with_reducible first | assumption | apply Inv.core) | simp only [↓inv_mk] | split

theorem setLate_keeps {β : Bool} {κ : Base} (reg : Nat) {s : State} (h : Inv β κ s) : Inv β κ (setLate reg s) := by
  unfold setLate
  try dsimp only
  repeat' first | (with_reducible first | assumption | apply raiseIf_keeps | apply Inv.core) | simp only [↓inv_mk] | split

theorem onChan_keeps {b : Bool} {q : Base} (ch : Nat) (f : Channel → Channel) {s : State} (h : Inv b q s)
    (hf : ∀ c, c.tags.length = 32 → (f c).tags.length = 32) : Inv b q (onChan ch f s) :=
  { h with
    chans := (upd_length _ _ _).trans h.chans
    tags := all_upd h.tags hf }

theorem onTag_keeps {b : Bool} {q : Base} (ch tag : Nat) (f : Tag → Tag) {s : State} (h : Inv b q s) :
    Inv b q (onTag ch tag f s) := onChan_keeps _ _ h fun _ e => (upd_length _ _ _).trans e

theorem count_keeps {b : Bool} {q : Base} (ch i : Nat) {s : State} (h : Inv b q s) : Inv b q (count ch i s) :=
  onChan_keeps _ _ h fun _ e => e

/-- Ring memory may be written. -/
theorem ring_keeps {b : Bool} {q : Base} (a : Nat) (d : Bytes) {s : State} (h : Inv b q s) :
    Inv b q { s with mbx.ring := memWrites s.mbx.ring a d } := { h with ring := memWrites_wf _ _ h.ring }

theorem sendFrame_keeps {b : Bool} {q : Base} (ch : Nat) (frame : Bytes) {s : State} (h : Inv b q s) :
    Inv b q (sendFrame ch frame s) := by
  unfold sendFrame; dsimp only
  repeat' first | (with_reducible first | assumption | apply ite_keeps | apply raise_keeps | apply ring_keeps | apply onChan_keeps) | exact fun _ e => e

theorem noteCred_keeps {b : Bool} {q : Base} (r : Req) (failed : Bool) {s : State} (h : Inv b q s) :
    Inv b q (noteCred r failed s) := by
  unfold noteCred
  repeat' first | (with_reducible first | assumption | apply ite_keeps | apply raise_keeps | apply count_keeps | apply onChan_keeps) | exact fun _ e => e

theorem started_keeps {b : Bool} {q : Base} (r : Req) {s : State} (h : Inv b q s) : Inv b q (started r s) :=
  noteCred_keeps _ _ (onTag_keeps _ _ _ (count_keeps _ _ h))

theorem drawn_keeps {β : Bool} {κ : Base} {s : State} (h : Inv β κ s) : Inv β κ (drawn s) := by
  unfold drawn
  try dsimp only
  repeat' first | (with_reducible first | assumption | apply Inv.core) | simp only [↓inv_mk] | split

theorem dropOne_keeps {β : Bool} {κ : Base} (p : Nat) {s : State} (h : Inv β κ s) : Inv β κ (dropOne p s) := by
  unfold dropOne
  try dsimp only
  repeat' first | (with_reducible first | assumption | apply ite_keeps | apply raise_keeps | apply parts_upd | apply Inv.core) | exact fun _ _ e => e | exact fun _ _ _ => rfl | exact fun _ e => e | exact fun _ _ => rfl | exact fun _ _ => ⟨rfl, rfl, rfl⟩ | exact Nat.le_succ _ | simp only [↓inv_mk] | split

theorem append_keeps {β : Bool} {κ : Base} (d : Draft) {s : State} (h : Inv β κ s) : Inv β κ (append d s) := by
  unfold append
  try dsimp only
  repeat' first | (with_reducible first | assumption | apply Inv.core) | simp only [↓inv_mk] | split

theorem displace_keeps {β : Bool} {κ : Base} (d : Draft) {s : State} (h : Inv β κ s) : Inv β κ (displace d s) := by
  unfold displace
  try dsimp only
  repeat' first | (with_reducible first | assumption | apply append_keeps | apply dropOne_keeps | apply Inv.core) | simp only [↓inv_mk] | split

theorem intakeOther_keeps {β : Bool} {κ : Base} (d : Draft) {s : State} (h : Inv β κ s) : Inv β κ (intakeOther d s) := by
  unfold intakeOther
  repeat' first | (with_reducible first | assumption | apply ite_keeps | apply append_keeps | apply dropOne_keeps) | split

theorem intake_keeps {β : Bool} {κ : Base} (d : Draft) {s : State} (h : Inv β κ s) : Inv β κ (intake d s) := by
  unfold intake
  try dsimp only
  repeat' first | (with_reducible first | assumption | apply ite_keeps | apply raise_keeps | apply intakeOther_keeps | apply append_keeps | apply displace_keeps | apply Inv.core) | simp only [↓inv_mk] | split

theorem closeWindow_keeps {β : Bool} {κ : Base} (code : Nat) {s : State} (h : Inv β κ s) : Inv β κ (closeWindow code s) := by
  unfold closeWindow
  try dsimp only
  repeat' first | (with_reducible first | assumption | apply ite_keeps | apply intake_keeps | apply Inv.core) | simp only [↓inv_mk] | split

theorem record_keeps {β : Bool} {κ : Base} (code : Nat) (source : Nat) (params : Bytes) {s : State} (h : Inv β κ s) : Inv β κ
      (record code source params s) := by
  unfold record
  try dsimp only
  repeat' first | (with_reducible first | assumption | apply ite_keeps | apply intake_keeps | apply closeWindow_keeps | apply Inv.core) | simp only [↓inv_mk] | split

theorem recordIf_keeps {β : Bool} {κ : Base} (c : Bool) (code : Nat) (source : Nat) (params : Bytes) {s : State} (h : Inv β κ
      s) : Inv β κ (recordIf c code source params s) := by
  unfold recordIf
  repeat' first | (with_reducible first | assumption | apply ite_keeps | apply record_keeps) | split

theorem finish_keeps {β : Bool} {κ : Base} (r : Req) (op : Nat) (status : Nat) (key : Option Bytes) (payload : Bytes) {s :
      State} (h : Inv β κ s) : Inv β κ (finish r op status key payload s) := by
  unfold finish
  try dsimp only
  repeat' first | (with_reducible first | assumption | apply ite_keeps | apply sendFrame_keeps | apply onTag_keeps | apply Inv.core) | simp only [↓inv_mk] | split

theorem answerOnly_keeps {β : Bool} {κ : Base} (r : Req) (op : Nat) (status : Nat) (key : Option Bytes) (payload : Bytes) {s :
      State} (h : Inv β κ s) : Inv β κ (answerOnly r op status key payload s) := by
  unfold answerOnly
  repeat' first | (with_reducible first | assumption | apply sendFrame_keeps) | split

theorem refuse_keeps {β : Bool} {κ : Base} (k : Cmd) (r : Req) (st : Nat) {s : State} (h : Inv β κ s) : Inv β κ (refuse k r st
      s) := by
  unfold refuse
  try dsimp only
  repeat' first | (with_reducible first | assumption | apply ite_keeps | apply count_keeps | apply noteCred_keeps | apply answerOnly_keeps | apply finish_keeps) | split

theorem badLength_keeps {β : Bool} {κ : Base} (op : Nat) (r : Req) {s : State} (h : Inv β κ s) : Inv β κ (badLength op r s) := by
  unfold badLength
  try dsimp only
  repeat' first | (with_reducible first | assumption | apply ite_keeps | apply count_keeps | apply answerOnly_keeps | apply finish_keeps) | split

theorem settle_keeps {b : Bool} {q : Base} (w : Running) (st : Nat) (p : Bytes) {s : State} (h : Inv b q s) :
    Inv b q (settle w st p s) := finish_keeps _ _ _ _ _ (onChan_keeps _ _ h fun _ e => e)

theorem accept_keeps {b : Bool} {q : Base} (k : Cmd) (r : Req) (n : Nat) (w : Work) {s : State} (h : Inv b q s) :
    RInv b q (accept k r n w s) := onChan_keeps _ _ h fun _ e => e

theorem checked_keeps {b : Bool} {q : Base} {l : List (Bool × Nat)} {f : State → Reply} {s : State} (h : Inv b q s)
    (hf : ∀ s, Inv b q s → RInv b q (f s)) : RInv b q (checked l s f) := by
  unfold checked; split
  · exact h
  · exact hf s h

theorem deliver_keeps {b : Bool} {q : Base} (k : Cmd) (r : Req) (key : Option Bytes) {p : Reply} (h : RInv b q p) :
    Inv b q (deliver k r key p) := by
  unfold deliver; dsimp only
  refine ite_keeps (answerOnly_keeps _ _ _ _ _ h) (finish_keeps _ _ _ _ _ (ite_keeps (record_keeps _ _ _ h) h))

/-- What the state is that the request checks leave. -/
def Gate.state : Gate → State
  | .drop s => s
  | .stop s => s
  | .go s => s

theorem gate_keeps {b : Bool} {q : Base} (k : Cmd) (r : Req) {s : State} (h : Inv b q s) : Inv b q (gate k r s).state := by
  unfold gate; dsimp only
  repeat' first
    | (with_reducible first | assumption | apply refuse_keeps | apply badLength_keeps | apply answerOnly_keeps | apply started_keeps | apply sendFrame_keeps | apply count_keeps)
    | split
    | (with_reducible dsimp only [Gate.state])

theorem command_keeps {b : Bool} {q : Base} {k : Cmd} {r : Req} {f : State → Reply} {s : State} (h : Inv b q s)
    (hf : ∀ s, Inv b q s → RInv b q (f s)) : Sat b q (command k r f s) := by
  have hg := gate_keeps k r h
  unfold command; revert hg
  cases gate k r s <;> intro hg
  · exact next_keeps hg
  · exact next_keeps hg
  · exact next_keeps (deliver_keeps _ _ _ (hf _ hg))

theorem onPoint_keeps {β : Bool} {κ : Base} (p : Nat) (f : MPoint → MPoint) {s : State} (h : Inv β κ s) : Inv β κ (onPoint p f
      s) := by
  unfold onPoint
  try dsimp only
  repeat' first | (with_reducible first | assumption | apply Inv.core) | simp only [↓inv_mk] | split

theorem onChannel_keeps {β : Bool} {κ : Base} (c : Nat) (f : MChan → MChan) {s : State} (h : Inv β κ s) : Inv β κ (onChannel c
      f s) := by
  unfold onChannel
  try dsimp only
  repeat' first | (with_reducible first | assumption | apply Inv.core) | simp only [↓inv_mk] | split

theorem onOpenRecs_keeps {β : Bool} {κ : Base} (p : Nat) (f : OpenRec → OpenRec) {s : State} (h : Inv β κ s) : Inv β κ
      (onOpenRecs p f s) := by
  unfold onOpenRecs
  try dsimp only
  repeat' first | (with_reducible first | assumption | apply ite_keeps | apply onPoint_keeps | apply Inv.core) | simp only [↓inv_mk] | split

theorem meterCommit_keeps {β : Bool} {κ : Base} (kind : Nat) {s : State} (h : Inv β κ s) : Inv β κ (meterCommit kind s) := by
  unfold meterCommit
  try dsimp only
  repeat' first | (with_reducible first | assumption | apply ite_keeps | apply Inv.core) | simp only [↓inv_mk] | split

theorem recordLegal_keeps {β : Bool} {κ : Base} (code : Nat) (params : Bytes) {s : State} (h : Inv β κ s) : Inv β κ
      (recordLegal code params s) := by
  unfold recordLegal
  try dsimp only
  repeat' first | (with_reducible first | assumption | apply record_keeps | apply raiseIf_keeps) | split

/-- The entry into Kickstand turns every safe output and load channel off. -/
theorem kickOutputs_off {b : Bool} {q : Base} (cause : Nat) {s : State} (h : Inv false q s) : Inv b q (kickOutputs cause s) := by
  unfold kickOutputs; dsimp only
  refine raiseIf_keeps _ _ (raiseIf_keeps _ _ (raiseIf_keeps _ _ (meterCommit_keeps _ ?_)))
  refine { h.weak with off := fun _ _ => ⟨?_, ?_⟩ }
  · intro p hp; obtain ⟨y, _, rfl⟩ := List.mem_map.1 hp; rfl
  · intro p hp; obtain ⟨y, _, rfl⟩ := List.mem_map.1 hp; rfl

theorem enterKick_keeps {b : Bool} {q : Base} (cause : Nat) {s : State} (h : Inv b q s) : Inv b q (enterKick cause s) := by
  unfold enterKick; dsimp only
  refine ite_keeps h ?_
  split
  · refine kickOutputs_off _ (record_keeps _ _ _ (raiseIf_keeps _ _ ?_))
    exact { h.weak with off := fun e => nomatch e }
  · rename_i hk
    refine record_keeps _ _ _ (raiseIf_keeps _ _ ?_)
    exact { h.weak with off := fun e _ => h.off e (by unfold kicked; simpa using hk) }

theorem goneKick_keeps {b : Bool} {q : Base} (cause : Nat) {s : State} (h : Inv b q s) : Inv b q (goneKick cause s) :=
  { h.weak with off := fun e hk => h.off e (by unfold kicked goneKick at *; simpa using hk) }

theorem kickReset_keeps {b : Bool} {q : Base} {s : State} (h : Inv b q s) : Inv b q (kickReset s) :=
  { h.weak with off := fun e hk => h.off e (by unfold kicked kickReset at *; simpa using hk) }

theorem resetPart_keeps {b : Bool} {q : Base} (cause : Nat) {s : State} (h : Inv b q s) : Inv b q (resetPart cause s) := by
  unfold resetPart
  refine ite_keeps h ⟨h.pend, ⟨List.Pairwise.nil, fun _ hc => nomatch hc⟩, h.fw, h.cfg, rfl, ?_, h.slots, ?_, h.9, h.10, h.11,
    h.12, h.13, h.14⟩
  · intro c hc
    have : c ∈ ([{}, {}, {}, {}] : List Channel) := hc
    simp only [List.mem_cons, List.not_mem_nil, or_false, or_self] at this; subst this; rfl
  · intro _ hk; exact nomatch hk

theorem pairs_upd {b : Bool} {q : Base} {n : Nat} {f : Pair → Pair} {s : State} (h : Inv b q s)
    (hf : ∀ p, p.on = false → (f p).on = false) :
    Core b q s.pending s.mbx.ring s.mbx.channels s.nv.fw s.nv.cfg s.slots s.sys.kicks (upd s.saf.pairs n f) s.ldc.chans
    s.nv.fwMin s.nv.legalMin s.nv.opSeconds s.nvRec.nextSeq s.nvRec.parts s.nvRec.area :=
  ⟨h.1, h.2, h.3, h.4, h.5, h.6, h.7, fun e hk => ⟨all_upd (h.off e hk).1 hf, (h.off e hk).2⟩, h.9, h.10, h.11, h.12, h.13, h.14⟩

theorem pairs_map {b : Bool} {q : Base} {f : Pair → Pair} {s : State} (h : Inv b q s)
    (hf : ∀ p, p.on = false → (f p).on = false) :
    Core b q s.pending s.mbx.ring s.mbx.channels s.nv.fw s.nv.cfg s.slots s.sys.kicks (s.saf.pairs.map f) s.ldc.chans
    s.nv.fwMin s.nv.legalMin s.nv.opSeconds s.nvRec.nextSeq s.nvRec.parts s.nvRec.area :=
  ⟨h.1, h.2, h.3, h.4, h.5, h.6, h.7, fun e hk => ⟨all_map (h.off e hk).1 hf, (h.off e hk).2⟩, h.9, h.10, h.11, h.12, h.13, h.14⟩

theorem loads_map {b : Bool} {q : Base} {f : Load → Load} {s : State} (h : Inv b q s)
    (hf : ∀ p, p.on = false → (f p).on = false) :
    Core b q s.pending s.mbx.ring s.mbx.channels s.nv.fw s.nv.cfg s.slots s.sys.kicks s.saf.pairs (s.ldc.chans.map f)
    s.nv.fwMin s.nv.legalMin s.nv.opSeconds s.nvRec.nextSeq s.nvRec.parts s.nvRec.area :=
  ⟨h.1, h.2, h.3, h.4, h.5, h.6, h.7, fun e hk => ⟨(h.off e hk).1, all_map (h.off e hk).2 hf⟩, h.9, h.10, h.11, h.12, h.13, h.14⟩

theorem slots_upd {b : Bool} {q : Base} {n : Nat} {f : KeySlot → KeySlot} {s : State} (h : Inv b q s) :
    Core b q s.pending s.mbx.ring s.mbx.channels s.nv.fw s.nv.cfg (upd s.slots n f) s.sys.kicks s.saf.pairs s.ldc.chans
    s.nv.fwMin s.nv.legalMin s.nv.opSeconds s.nvRec.nextSeq s.nvRec.parts s.nvRec.area :=
  ⟨h.1, h.2, h.3, h.4, h.5, h.6, (upd_length _ _ _).trans h.7, h.8, h.9, h.10, h.11, h.12, h.13, h.14⟩

theorem chans_map {b : Bool} {q : Base} {f : Channel → Channel} {s : State} (h : Inv b q s)
    (hf : ∀ p, p.tags.length = 32 → (f p).tags.length = 32) :
    Core b q s.pending s.mbx.ring (s.mbx.channels.map f) s.nv.fw s.nv.cfg s.slots s.sys.kicks s.saf.pairs s.ldc.chans
    s.nv.fwMin s.nv.legalMin s.nv.opSeconds s.nvRec.nextSeq s.nvRec.parts s.nvRec.area :=
  ⟨h.1, h.2, h.3, h.4, (List.length_map _).trans h.5, all_map h.6 hf, h.7, h.8, h.9, h.10, h.11, h.12, h.13, h.14⟩

theorem requestPair_keeps {b : Bool} {q : Base} (n : Nat) (on : Bool) {s : State} (h : Inv b q s) : Inv b q (requestPair n on
      s) :=
  { h.weak with off := fun e hk => ⟨all_upd (h.off e hk).1 fun _ h => h, (h.off e hk).2⟩ }

theorem onLink_keeps {β : Bool} {κ : Base} (slot : Nat) (f : Link → Link) {s : State} (h : Inv β κ s) : Inv β κ (onLink slot f
      s) := by
  unfold onLink
  try dsimp only
  repeat' first | (with_reducible first | assumption | apply Inv.core) | simp only [↓inv_mk] | split

theorem onSes_keeps {β : Bool} {κ : Base} (slot : Nat) (f : Session → Session) {s : State} (h : Inv β κ s) : Inv β κ (onSes
      slot f s) := by
  unfold onSes
  try dsimp only
  repeat' first | (with_reducible first | assumption | apply Inv.core) | simp only [↓inv_mk] | split

theorem onGroup_keeps {β : Bool} {κ : Base} (g : Nat) (f : Group → Group) {s : State} (h : Inv β κ s) : Inv β κ (onGroup g f s)
      := by
  unfold onGroup
  try dsimp only
  repeat' first | (with_reducible first | assumption | apply Inv.core) | simp only [↓inv_mk] | split

theorem onStage_keeps {β : Bool} {κ : Base} (i : Nat) (f : Stage → Stage) {s : State} (h : Inv β κ s) : Inv β κ (onStage i f s)
      := by
  unfold onStage
  try dsimp only
  repeat' first | (with_reducible first | assumption | apply Inv.core) | simp only [↓inv_mk] | split

theorem onRing_keeps {β : Bool} {κ : Base} (i : Nat) (f : Ring → Ring) {s : State} (h : Inv β κ s) : Inv β κ (onRing i f s) := by
  unfold onRing
  try dsimp only
  repeat' first | (with_reducible first | assumption | apply Inv.core) | simp only [↓inv_mk] | split

theorem onAssign_keeps {β : Bool} {κ : Base} (i : Nat) (f : Assign → Assign) {s : State} (h : Inv β κ s) : Inv β κ (onAssign i
      f s) := by
  unfold onAssign
  try dsimp only
  repeat' first | (with_reducible first | assumption | apply Inv.core) | simp only [↓inv_mk] | split

theorem onOut_keeps {β : Bool} {κ : Base} (n : Nat) (f : OutletIn → OutletIn) {s : State} (h : Inv β κ s) : Inv β κ (onOut n f
      s) := by
  unfold onOut
  try dsimp only
  repeat' first | (with_reducible first | assumption | apply Inv.core) | simp only [↓inv_mk] | split

end Sys2Proof.Machine
end

