-- ==== Sys2Proof/Laws/KeepHub.lean ====
section
/-!
SUPPORT. Keeping the sound state and the queue (Laws/Keep.lean): Chainring, the safety configuration in service, Cadence and Derailleur.
-/
namespace Sys2Proof.Machine

theorem setRef_keeps {β : Bool} {κ : Base} (i : Nat) (f : Ref → Ref) {s : State} (h : Inv β κ s) : Inv β κ (setRef i f s) := by
  unfold setRef
  try dsimp only
  repeat' first | (with_reducible first | assumption | apply onRing_keeps | apply Inv.core) | simp only [↓inv_mk] | split

theorem abandonMove_keeps {β : Bool} {κ : Base} (i : Nat) {s : State} (h : Inv β κ s) : Inv β κ (abandonMove i s) := by
  unfold abandonMove
  try dsimp only
  repeat' first | (with_reducible first | assumption | apply raise_keeps | apply record_keeps | apply onAssign_keeps | apply setRef_keeps | apply Inv.core) | simp only [↓inv_mk] | split

theorem loseStage_keeps {β : Bool} {κ : Base} (i : Nat) {s : State} (h : Inv β κ s) : Inv β κ (loseStage i s) := by
  unfold loseStage
  try dsimp only
  repeat' first | (with_reducible first | assumption | apply ite_keeps | apply onStage_keeps | apply raise_keeps | apply onAssign_keeps | apply abandonMove_keeps | apply Inv.core) | simp only [↓inv_mk] | split

theorem gainStage_keeps {β : Bool} {κ : Base} (i : Nat) {s : State} (h : Inv β κ s) : Inv β κ (gainStage i s) := by
  unfold gainStage
  try dsimp only
  repeat' first | (with_reducible first | assumption | apply raise_keeps | apply onAssign_keeps | apply onStage_keeps | apply Inv.core) | simp only [↓inv_mk] | split

theorem settleStage_keeps {β : Bool} {κ : Base} (i : Nat) {s : State} (h : Inv β κ s) : Inv β κ (settleStage i s) := by
  unfold settleStage
  repeat' first | (with_reducible first | assumption | apply ite_keeps | apply loseStage_keeps | apply gainStage_keeps) | split

theorem assignTelemetry_keeps {β : Bool} {κ : Base} (i : Nat) (slot : Bytes) {s : State} (h : Inv β κ s) : Inv β κ
      (assignTelemetry i slot s) := by
  unfold assignTelemetry
  try dsimp only
  repeat' first | (with_reducible first | assumption | apply ite_keeps | apply onAssign_keeps | apply abandonMove_keeps | apply setRef_keeps | apply raise_keeps | apply Inv.core) | simp only [↓inv_mk] | split

theorem cleanSlot_keeps {β : Bool} {κ : Base} (i : Nat) (slot : Bytes) {s : State} (h : Inv β κ s) : Inv β κ (cleanSlot i slot
      s) := by
  unfold cleanSlot
  try dsimp only
  repeat' first | (with_reducible first | assumption | apply ite_keeps | apply raiseIf_keeps | apply onStage_keeps | apply settleStage_keeps | apply assignTelemetry_keeps | apply Inv.core) | simp only [↓inv_mk] | split

theorem countUnclean_keeps {β : Bool} {κ : Base} (i : Nat) {s : State} (h : Inv β κ s) : Inv β κ (countUnclean i s) := by
  unfold countUnclean
  try dsimp only
  repeat' first | (with_reducible first | assumption | apply onStage_keeps | apply Inv.core) | simp only [↓inv_mk] | split

theorem uncleanSlot_keeps {β : Bool} {κ : Base} (i : Nat) {s : State} (h : Inv β κ s) : Inv β κ (uncleanSlot i s) := by
  unfold uncleanSlot
  repeat' first | (with_reducible first | assumption | apply settleStage_keeps | apply countUnclean_keeps) | split

theorem judgeSlots_keeps {β : Bool} {κ : Base} (n seq : Nat) (line : List RingSymbol) (l : List Nat) (p : Option (Nat × Nat))
      {s : State} (h : Inv β κ s) : Inv β κ (judgeSlots n seq line l p s) := by
  induction l generalizing p s with
  | nil => exact h
  | cons i l ih =>
    unfold judgeSlots
    repeat' first | (with_reducible first | assumption | apply ih | apply raise_keeps | apply loseStage_keeps | apply countUnclean_keeps | apply cleanSlot_keeps | apply uncleanSlot_keeps) | split

theorem listenSlots_keeps {β : Bool} {κ : Base} (n seq : Nat) (line : List RingSymbol) (l : List Nat) {s : State} (h : Inv β κ
      s) : Inv β κ (listenSlots n seq line l s) := by
  induction l generalizing s with
  | nil => exact h
  | cons i l ih => unfold listenSlots; split <;> exact ih (onStage_keeps _ _ h)

theorem listenHead_keeps {β : Bool} {κ : Base} (r : Nat) (head : Bytes) {s : State} (h : Inv β κ s) : Inv β κ (listenHead r
      head s) := by
  unfold listenHead
  try dsimp only
  repeat' first | (with_reducible first | assumption | apply ite_keeps | apply onRing_keeps | apply Inv.core) | simp only [↓inv_mk] | split

theorem settleBroken_keeps {β : Bool} {κ : Base} (r : Nat) {s : State} (h : Inv β κ s) : Inv β κ (settleBroken r s) := by
  unfold settleBroken
  try dsimp only
  repeat' first | (with_reducible first | assumption | apply ite_keeps | apply raise_keeps | apply onRing_keeps | apply Inv.core) | simp only [↓inv_mk] | split

theorem restartTimer_keeps {β : Bool} {κ : Base} (r : Nat) {s : State} (h : Inv β κ s) : Inv β κ (restartTimer r s) := by
  unfold restartTimer
  try dsimp only
  repeat' first | (with_reducible first | assumption | apply ite_keeps | apply Inv.core) | simp only [↓inv_mk] | split

theorem launch_keeps {β : Bool} {κ : Base} (r : Nat) {s : State} (h : Inv β κ s) : Inv β κ (launch r s) := by
  unfold launch
  try dsimp only
  repeat' first | (with_reducible first | assumption | apply ite_keeps | apply restartTimer_keeps | apply setLate_keeps | apply onRing_keeps | apply Inv.core) | simp only [↓inv_mk] | split

theorem tdmEnter_keeps {β : Bool} {κ : Base} (x : TandemState) {s : State} (h : Inv β κ s) : Inv β κ (tdmEnter x s) := by
  unfold tdmEnter
  try dsimp only
  repeat' first | (with_reducible first | assumption | apply raiseIf_keeps | apply Inv.core) | simp only [↓inv_mk] | split

theorem tdmSync_keeps {β : Bool} {κ : Base} {s : State} (h : Inv β κ s) : Inv β κ (tdmSync s) := by
  unfold tdmSync
  try dsimp only
  repeat' first | (with_reducible first | assumption | apply tdmEnter_keeps | apply Inv.core) | simp only [↓inv_mk] | split

theorem lowerAuth_keeps {β : Bool} {κ : Base} {s : State} (h : Inv β κ s) : Inv β κ (lowerAuth s) := by
  unfold lowerAuth
  try dsimp only
  repeat' first | (with_reducible first | assumption | apply ite_keeps | apply tdmSync_keeps | apply Inv.core) | simp only [↓inv_mk] | split

theorem settleTimer_keeps {β : Bool} {κ : Base} {s : State} (h : Inv β κ s) : Inv β κ (settleTimer s) := by
  unfold settleTimer
  repeat' first | (with_reducible first | assumption | apply ite_keeps | apply lowerAuth_keeps) | split

theorem fence_keeps {β : Bool} {κ : Base} (cause : Nat) {s : State} (h : Inv β κ s) : Inv β κ (fence cause s) := by
  unfold fence
  try dsimp only
  repeat' first | (with_reducible first | assumption | apply ite_keeps | apply raise_keeps | apply record_keeps | apply enterKick_keeps | apply Inv.core) | simp only [↓inv_mk] | split

theorem foreignMaster_keeps {β : Bool} {κ : Base} (r : Nat) (head : Bytes) {s : State} (h : Inv β κ s) : Inv β κ (foreignMaster
      r head s) := by
  unfold foreignMaster
  try dsimp only
  repeat' first | (with_reducible first | assumption | apply ite_keeps | refine foldl_keeps ?_ fun _ _ _ => ?_ | apply record_keeps | apply raise_keeps | apply onRing_keeps | apply loseStage_keeps | apply fence_keeps | apply Inv.core) | simp only [↓inv_mk] | split

theorem ringReturn_keeps {β : Bool} {κ : Base} (r : Nat) (intact : Bool) {s : State} (h : Inv β κ s) : Inv β κ (ringReturn r
      intact s) := by
  unfold ringReturn
  try dsimp only
  repeat' first | (with_reducible first | assumption | apply ite_keeps | apply raiseIf_keeps | apply onRing_keeps | apply settleBroken_keeps | apply Inv.core) | simp only [↓inv_mk] | split

theorem masterTick_keeps {β : Bool} {κ : Base} (r : Nat) (line : List RingSymbol) {s : State} (h : Inv β κ s) : Inv β κ
      (masterTick r line s) := by
  unfold masterTick
  try dsimp only
  repeat' first | (with_reducible first | assumption | apply ite_keeps | apply launch_keeps | apply judgeSlots_keeps | apply ringReturn_keeps | apply foreignMaster_keeps | apply Inv.core) | simp only [↓inv_mk] | split

theorem listenTick_keeps {β : Bool} {κ : Base} (r : Nat) (line : List RingSymbol) {s : State} (h : Inv β κ s) : Inv β κ
      (listenTick r line s) := by
  unfold listenTick
  try dsimp only
  repeat' first | (with_reducible first | assumption | apply listenSlots_keeps | apply listenHead_keeps | apply Inv.core) | simp only [↓inv_mk] | split

theorem execChainringFrameReturn_keeps {β : Bool} {κ : Base} (r : Nat) (line : List RingSymbol) {s : State} (h : Inv β κ s) :
      Sat β κ (execChainringFrameReturn r line s) := by
  unfold execChainringFrameReturn
  repeat' first | (with_reducible first | assumption | apply ite_keeps | apply next_keeps | apply listenTick_keeps | apply settleTimer_keeps | apply masterTick_keeps) | simp only [↓reply_mk] | split

theorem execStageLost_keeps {β : Bool} {κ : Base} (position : Nat) {s : State} (h : Inv β κ s) : Sat β κ (execStageLost
      position s) := by
  unfold execStageLost
  repeat' first | (with_reducible first | assumption | apply ite_keeps | apply next_keeps | apply loseStage_keeps) | simp only [↓reply_mk] | split

theorem execStagePresent_keeps {β : Bool} {κ : Base} (position : Nat) {s : State} (h : Inv β κ s) : Sat β κ (execStagePresent
      position s) := by
  unfold execStagePresent
  repeat' first | (with_reducible first | assumption | apply ite_keeps | apply next_keeps | apply gainStage_keeps) | simp only [↓reply_mk] | split

theorem execRingBroken_keeps {β : Bool} {κ : Base} (r : Nat) {s : State} (h : Inv β κ s) : Sat β κ (execRingBroken r s) := by
  unfold execRingBroken
  repeat' first | (with_reducible first | assumption | apply next_keeps | apply settleBroken_keeps) | simp only [↓reply_mk] | split

theorem execMatrixConfirmTimeout_keeps {β : Bool} {κ : Base} (position : Nat) {s : State} (h : Inv β κ s) : Sat β κ
      (execMatrixConfirmTimeout position s) := by
  unfold execMatrixConfirmTimeout
  try dsimp only
  repeat' first | (with_reducible first | assumption | apply next_keeps | apply abandonMove_keeps | apply Inv.core) | simp only [↓inv_mk] | simp only [↓reply_mk] | split

theorem windowMatrix_keeps {β : Bool} {κ : Base} {s : State} (h : Inv β κ s) : Inv β κ (windowMatrix s) := by
  unfold windowMatrix
  try dsimp only
  repeat' first | (with_reducible first | assumption | apply ite_keeps | refine foldl_keeps ?_ fun _ _ _ => ?_ | apply onAssign_keeps | apply setRef_keeps | apply Inv.core) | simp only [↓inv_mk] | split

theorem execChrGetRing_keeps {β : Bool} {κ : Base} (r : Req) (n : Nat) {s : State} (h : Inv β κ s) : Sat β κ (execChrGetRing r
      n s) := by
  unfold execChrGetRing
  try dsimp only
  repeat' first | (with_reducible first | assumption | apply ite_keeps | refine checked_keeps ?_ fun _ _ => ?_ | refine command_keeps ?_ fun _ _ => ?_ | apply next_keeps) | simp only [↓reply_mk] | split

theorem execChrGetStage_keeps {β : Bool} {κ : Base} (r : Req) (position : Nat) {s : State} (h : Inv β κ s) : Sat β κ
      (execChrGetStage r position s) := by
  unfold execChrGetStage
  try dsimp only
  repeat' first | (with_reducible first | assumption | refine checked_keeps ?_ fun _ _ => ?_ | refine command_keeps ?_ fun _ _ => ?_ | apply next_keeps) | simp only [↓reply_mk] | split

theorem execChrClearCounters_keeps {β : Bool} {κ : Base} (r : Req) (n : Nat) {s : State} (h : Inv β κ s) : Sat β κ
      (execChrClearCounters r n s) := by
  unfold execChrClearCounters
  try dsimp only
  repeat' first | (with_reducible first | assumption | refine checked_keeps ?_ fun _ _ => ?_ | refine command_keeps ?_ fun _ _ => ?_ | apply next_keeps | apply onRing_keeps | apply Inv.core) | simp only [↓inv_mk] | simp only [↓reply_mk] | split

/-- A change of a pair keeps the invariant where it switches nothing on in Kickstand. -/
theorem onPair_keeps {b : Bool} {q : Base} (n : Nat) (f : Pair → Pair) {s : State} (h : Inv b q s)
    (hf : kicked s = true → ∀ p, p.on = false → (f p).on = false) : Inv b q (onPair n f s) :=
  { h.weak with off := fun e hk => ⟨all_upd (h.off e hk).1 (hf hk), (h.off e hk).2⟩ }

/-- A change of a load channel keeps the invariant where it switches nothing on in Kickstand. -/
theorem onLoad_keeps {b : Bool} {q : Base} (n : Nat) (f : Load → Load) {s : State} (h : Inv b q s)
    (hf : kicked s = true → ∀ p, p.on = false → (f p).on = false) : Inv b q (onLoad n f s) :=
  { h.weak with off := fun e hk => ⟨(h.off e hk).1, all_upd (h.off e hk).2 (hf hk)⟩ }

theorem loadsHeld_kicked {s : State} (h : loadsHeld s = false) : kicked s = false := by
  unfold loadsHeld at h; simp only [Bool.or_eq_false_iff] at h; exact h.1.1.1.2

theorem tryAdmit_keeps {b : Bool} {q : Base} (c : Nat) {s : State} (h : Inv b q s) : Inv b q (tryAdmit c s) := by
  unfold tryAdmit; split
  · rename_i ha
    unfold loadAdmissible at ha; simp only [Bool.and_eq_true, Bool.not_eq_true'] at ha
    refine onLoad_keeps _ _ h fun hk => ?_
    rw [loadsHeld_kicked ha.1.1.1.2] at hk; exact nomatch hk
  · exact h

theorem askOn_keeps {b : Bool} {q : Base} (c : Nat) {s : State} (h : Inv b q s) : Inv b q (askOn c s) := by
  unfold askOn; dsimp only
  refine ite_keeps h (raiseIf_keeps _ _ (tryAdmit_keeps _ ?_))
  exact { h.weak with off := fun e hk => ⟨(h.off e hk).1, all_upd (h.off e hk).2 fun _ h => h⟩ }

theorem onInputSi_keeps {β : Bool} {κ : Base} (i : Nat) (f : SafeInput → SafeInput) {s : State} (h : Inv β κ s) : Inv β κ
      (onInputSi i f s) := by
  unfold onInputSi
  try dsimp only
  repeat' first | (with_reducible first | assumption | apply Inv.core) | simp only [↓inv_mk] | split

theorem onInst_keeps {β : Bool} {κ : Base} (j : Nat) (f : Inst → Inst) {s : State} (h : Inv β κ s) : Inv β κ (onInst j f s) := by
  unfold onInst
  try dsimp only
  repeat' first | (with_reducible first | assumption | apply Inv.core) | simp only [↓inv_mk] | split

theorem onConn_keeps {β : Bool} {κ : Base} (c : Nat) (f : Conn → Conn) {s : State} (h : Inv β κ s) : Inv β κ (onConn c f s) := by
  unfold onConn
  try dsimp only
  repeat' first | (with_reducible first | assumption | apply Inv.core) | simp only [↓inv_mk] | split

theorem newPulses_keeps {β : Bool} {κ : Base} (g : Nat) {s : State} (h : Inv β κ s) : Inv β κ (newPulses g s) :=
  { h.weak with off := fun e hk => ⟨(h.off e hk).1, fun l hl => by
      obtain ⟨y, hy, rfl⟩ := List.mem_map.1 hl
      have := (h.off e hk).2 y.1 (List.fst_mem_of_mem_zipIdx hy)
      dsimp only; split <;> exact this⟩ }

theorem turnOff_keeps {β : Bool} {κ : Base} (c : Nat) {s : State} (h : Inv β κ s) : Inv β κ (turnOff c s) := by
  unfold turnOff
  try dsimp only
  repeat' first | (with_reducible first | assumption | apply ite_keeps | apply onLoad_keeps | apply Inv.core) | exact fun _ _ e => e | exact fun _ _ _ => rfl | exact fun _ e => e | exact fun _ _ => rfl | exact fun _ _ => ⟨rfl, rfl, rfl⟩ | exact Nat.le_succ _ | simp only [↓inv_mk] | split

theorem requestLoad_keeps {β : Bool} {κ : Base} (c : Nat) (on : Bool) {s : State} (h : Inv β κ s) : Inv β κ (requestLoad c on
      s) := by
  unfold requestLoad
  try dsimp only
  repeat' first | (with_reducible first | assumption | apply ite_keeps | apply onLoad_keeps | apply turnOff_keeps | apply askOn_keeps | apply Inv.core) | exact fun _ _ e => e | exact fun _ _ _ => rfl | exact fun _ e => e | exact fun _ _ => rfl | exact fun _ _ => ⟨rfl, rfl, rfl⟩ | exact Nat.le_succ _ | simp only [↓inv_mk] | split

theorem afterFault_keeps {β : Bool} {κ : Base} (c : Nat) {s : State} (h : Inv β κ s) : Inv β κ (afterFault c s) := by
  unfold afterFault
  try dsimp only
  repeat' first | (with_reducible first | assumption | apply ite_keeps | apply onLoad_keeps | apply record_keeps | apply raise_keeps | apply Inv.core) | exact fun _ _ e => e | exact fun _ _ _ => rfl | exact fun _ e => e | exact fun _ _ => rfl | exact fun _ _ => ⟨rfl, rfl, rfl⟩ | exact Nat.le_succ _ | simp only [↓inv_mk] | split

theorem loadFault_keeps {β : Bool} {κ : Base} (c : Nat) (kind : Nat) {s : State} (h : Inv β κ s) : Inv β κ (loadFault c kind s)
      := by
  unfold loadFault
  try dsimp only
  repeat' first | (with_reducible first | assumption | apply ite_keeps | apply onLoad_keeps | apply turnOff_keeps | apply raiseIf_keeps | apply afterFault_keeps | apply raise_keeps | apply record_keeps | apply Inv.core) | exact fun _ _ e => e | exact fun _ _ _ => rfl | exact fun _ e => e | exact fun _ _ => rfl | exact fun _ _ => ⟨rfl, rfl, rfl⟩ | exact Nat.le_succ _ | simp only [↓inv_mk] | split

theorem clearLoad_keeps {β : Bool} {κ : Base} (c : Nat) {s : State} (h : Inv β κ s) : Inv β κ (clearLoad c s) := by
  unfold clearLoad
  try dsimp only
  repeat' first | (with_reducible first | assumption | apply onLoad_keeps | apply askOn_keeps | apply recordIf_keeps | apply raiseIf_keeps | apply Inv.core) | exact fun _ _ e => e | exact fun _ _ _ => rfl | exact fun _ e => e | exact fun _ _ => rfl | exact fun _ _ => ⟨rfl, rfl, rfl⟩ | exact Nat.le_succ _ | simp only [↓inv_mk] | split

theorem loadsOff_keeps {β : Bool} {κ : Base} {s : State} (h : Inv β κ s) : Inv β κ (loadsOff s) := by
  unfold loadsOff
  try dsimp only
  repeat' first | (with_reducible first | assumption | refine foldl_keeps ?_ fun _ _ _ => ?_ | apply turnOff_keeps) | split

theorem onLoop_keeps {β : Bool} {κ : Base} (i : Nat) (f : Loop → Loop) {s : State} (h : Inv β κ s) : Inv β κ (onLoop i f s) := by
  unfold onLoop
  try dsimp only
  repeat' first | (with_reducible first | assumption | apply Inv.core) | simp only [↓inv_mk] | split

theorem setFlags_keeps {β : Bool} {κ : Base} (i : Nat) (bits : Nat) {s : State} (h : Inv β κ s) : Inv β κ (setFlags i bits s)
      := by
  unfold setFlags
  try dsimp only
  repeat' first | (with_reducible first | assumption | apply ite_keeps | refine foldl_keeps ?_ fun _ _ _ => ?_ | apply onLoop_keeps | apply record_keeps | apply raise_keeps | apply Inv.core) | simp only [↓inv_mk] | split

theorem completeHold_keeps {β : Bool} {κ : Base} (gi : Nat) {s : State} (h : Inv β κ s) : Inv β κ (completeHold gi s) := by
  unfold completeHold
  try dsimp only
  repeat' first | (with_reducible first | assumption | apply raise_keeps | apply record_keeps | apply onGroup_keeps | apply Inv.core) | simp only [↓inv_mk] | split

theorem tickHold_keeps {β : Bool} {κ : Base} (gi : Nat) {s : State} (h : Inv β κ s) : Inv β κ (tickHold gi s) := by
  unfold tickHold
  try dsimp only
  repeat' first | (with_reducible first | assumption | apply ite_keeps | apply onGroup_keeps | apply completeHold_keeps | apply Inv.core) | simp only [↓inv_mk] | split

theorem tickStop_keeps {β : Bool} {κ : Base} (gi : Nat) {s : State} (h : Inv β κ s) : Inv β κ (tickStop gi s) := by
  unfold tickStop
  try dsimp only
  repeat' first | (with_reducible first | assumption | apply ite_keeps | apply onGroup_keeps | apply raise_keeps | apply Inv.core) | simp only [↓inv_mk] | split

theorem writeSplit_keeps {β : Bool} {κ : Base} (gi : Nat) (split : List Nat) (g : Int) {s : State} (h : Inv β κ s) : Inv β κ
      (writeSplit gi split g s) := by
  unfold writeSplit
  try dsimp only
  repeat' first | (with_reducible first | assumption | apply Inv.core) | simp only [↓inv_mk] | split

theorem launchOutputs_keeps {β : Bool} {κ : Base} (gi : Nat) {s : State} (h : Inv β κ s) : Inv β κ (launchOutputs gi s) := by
  unfold launchOutputs
  try dsimp only
  repeat' first | (with_reducible first | assumption | apply ite_keeps | refine foldl_keeps ?_ fun _ _ _ => ?_ | apply onGroup_keeps | apply newPulses_keeps | apply Inv.core) | simp only [↓inv_mk] | split

theorem zeroRecord_keeps {β : Bool} {κ : Base} (gi : Nat) {s : State} (h : Inv β κ s) : Inv β κ (zeroRecord gi s) := by
  unfold zeroRecord
  try dsimp only
  repeat' first | (with_reducible first | assumption | apply ite_keeps | apply onGroup_keeps | apply Inv.core) | simp only [↓inv_mk] | split

theorem followSplit_keeps {β : Bool} {κ : Base} (gi : Nat) (split : List Nat) {s : State} (h : Inv β κ s) : Inv β κ
      (followSplit gi split s) := by
  unfold followSplit
  try dsimp only
  repeat' first | (with_reducible first | assumption | apply raiseIf_keeps | apply onGroup_keeps | apply Inv.core) | simp only [↓inv_mk] | split

theorem tickRestart_keeps {β : Bool} {κ : Base} (gi : Nat) {s : State} (h : Inv β κ s) : Inv β κ (tickRestart gi s) := by
  unfold tickRestart
  try dsimp only
  repeat' first | (with_reducible first | assumption | apply ite_keeps | apply onGroup_keeps | apply Inv.core) | simp only [↓inv_mk] | split

theorem loopBack_keeps {β : Bool} {κ : Base} (gi : Nat) (i : Nat) (front : List Int × List Int × Nat) (g : Int) (won : Bool) {s
      : State} (h : Inv β κ s) : Inv β κ (loopBack gi i front g won s) := by
  unfold loopBack
  try dsimp only
  repeat' first | (with_reducible first | assumption | apply ite_keeps | apply onLoop_keeps | apply onGroup_keeps | apply setFlags_keeps | apply Inv.core) | simp only [↓inv_mk] | split

theorem tickSelect_keeps {β : Bool} {κ : Base} (gi : Nat) {s : State} (h : Inv β κ s) : Inv β κ (tickSelect gi s) := by
  unfold tickSelect
  try dsimp only
  repeat' first | (with_reducible first | assumption | apply ite_keeps | refine foldl_keeps ?_ fun _ _ _ => ?_ | apply loopBack_keeps | apply writeSplit_keeps | apply onGroup_keeps | apply followSplit_keeps | apply raiseIf_keeps | apply Inv.core) | simp only [↓inv_mk] | split

theorem tickObserver_keeps {β : Bool} {κ : Base} (gi : Nat) {s : State} (h : Inv β κ s) : Inv β κ (tickObserver gi s) := by
  unfold tickObserver
  try dsimp only
  repeat' first | (with_reducible first | assumption | refine foldl_keeps ?_ fun _ _ _ => ?_ | apply loopBack_keeps) | split

theorem tickBegins_keeps {β : Bool} {κ : Base} (gi : Nat) {s : State} (h : Inv β κ s) : Inv β κ (tickBegins gi s) := by
  unfold tickBegins
  try dsimp only
  repeat' first | (with_reducible first | assumption | apply ite_keeps | apply launchOutputs_keeps | apply onGroup_keeps | apply Inv.core) | simp only [↓inv_mk] | split

theorem tickModes_keeps {β : Bool} {κ : Base} (gi : Nat) {s : State} (h : Inv β κ s) : Inv β κ (tickModes gi s) := by
  unfold tickModes
  repeat' first | (with_reducible first | assumption | apply ite_keeps | apply tickStop_keeps | apply tickHold_keeps) | split

theorem execControlTick_keeps {β : Bool} {κ : Base} (gi : Nat) {s : State} (h : Inv β κ s) : Sat β κ (execControlTick gi s) := by
  unfold execControlTick
  try dsimp only
  repeat' first | (with_reducible first | assumption | apply ite_keeps | apply next_keeps | apply tickBegins_keeps | apply onGroup_keeps | apply tickModes_keeps | apply followSplit_keeps | apply tickRestart_keeps | apply tickObserver_keeps | apply tickSelect_keeps | apply Inv.core) | simp only [↓inv_mk] | simp only [↓reply_mk] | split

theorem kickGroup_keeps {β : Bool} {κ : Base} (gi : Nat) {s : State} (h : Inv β κ s) : Inv β κ (kickGroup gi s) := by
  unfold kickGroup
  try dsimp only
  repeat' first | (with_reducible first | assumption | apply record_keeps | apply raise_keeps | apply zeroRecord_keeps | apply onGroup_keeps | apply Inv.core) | simp only [↓inv_mk] | split

theorem holdOver_keeps {β : Bool} {κ : Base} (gi : Nat) {s : State} (h : Inv β κ s) : Inv β κ (holdOver gi s) := by
  unfold holdOver
  try dsimp only
  repeat' first | (with_reducible first | assumption | apply ite_keeps | apply onGroup_keeps | apply Inv.core) | simp only [↓inv_mk] | split

theorem execGroupOverrun_keeps {β : Bool} {κ : Base} (gi : Nat) (completed : List Nat) {s : State} (h : Inv β κ s) : Sat β κ
      (execGroupOverrun gi completed s) := by
  unfold execGroupOverrun
  try dsimp only
  repeat' first | (with_reducible first | assumption | apply ite_keeps | refine foldl_keeps ?_ fun _ _ _ => ?_ | apply next_keeps | apply holdOver_keeps | apply tickRestart_keeps | apply tickBegins_keeps | apply setLate_keeps | apply onGroup_keeps | apply setFlags_keeps | apply kickGroup_keeps | apply Inv.core) | simp only [↓inv_mk] | simp only [↓reply_mk] | split

theorem execZeroHoldComplete_keeps {β : Bool} {κ : Base} (gi : Nat) {s : State} (h : Inv β κ s) : Sat β κ (execZeroHoldComplete
      gi s) := by
  unfold execZeroHoldComplete
  repeat' first | (with_reducible first | assumption | apply ite_keeps | apply next_keeps | apply completeHold_keeps) | simp only [↓reply_mk] | split

theorem execCadGetGroup_keeps {β : Bool} {κ : Base} (r : Req) (gi : Nat) {s : State} (h : Inv β κ s) : Sat β κ (execCadGetGroup
      r gi s) := by
  unfold execCadGetGroup
  try dsimp only
  repeat' first | (with_reducible first | assumption | apply ite_keeps | refine checked_keeps ?_ fun _ _ => ?_ | refine command_keeps ?_ fun _ _ => ?_ | apply next_keeps) | simp only [↓reply_mk] | split

theorem execCadGetLoop_keeps {β : Bool} {κ : Base} (r : Req) (i : Nat) {s : State} (h : Inv β κ s) : Sat β κ (execCadGetLoop r
      i s) := by
  unfold execCadGetLoop
  try dsimp only
  repeat' first | (with_reducible first | assumption | refine checked_keeps ?_ fun _ _ => ?_ | refine command_keeps ?_ fun _ _ => ?_ | apply next_keeps) | simp only [↓reply_mk] | split

theorem execCadClearFlags_keeps {β : Bool} {κ : Base} (r : Req) (loops : Nat) (flags : Nat) {s : State} (h : Inv β κ s) : Sat β
      κ (execCadClearFlags r loops flags s) := by
  unfold execCadClearFlags
  try dsimp only
  repeat' first | (with_reducible first | assumption | apply ite_keeps | refine checked_keeps ?_ fun _ _ => ?_ | refine command_keeps ?_ fun _ _ => ?_ | apply next_keeps | apply Inv.core) | simp only [↓inv_mk] | simp only [↓reply_mk] | split

theorem execCadSetReference_keeps {β : Bool} {κ : Base} (r : Req) (number : Nat) (value : Int) {s : State} (h : Inv β κ s) :
      Sat β κ (execCadSetReference r number value s) := by
  unfold execCadSetReference
  try dsimp only
  repeat' first | (with_reducible first | assumption | refine checked_keeps ?_ fun _ _ => ?_ | refine command_keeps ?_ fun _ _ => ?_ | apply next_keeps | apply Inv.core) | simp only [↓inv_mk] | simp only [↓reply_mk] | split

theorem execCadReleaseGroup_keeps {β : Bool} {κ : Base} (r : Req) (gi : Nat) {s : State} (h : Inv β κ s) : Sat β κ
      (execCadReleaseGroup r gi s) := by
  unfold execCadReleaseGroup
  try dsimp only
  repeat' first | (with_reducible first | assumption | refine checked_keeps ?_ fun _ _ => ?_ | refine command_keeps ?_ fun _ _ => ?_ | apply next_keeps | apply onGroup_keeps | apply Inv.core) | simp only [↓inv_mk] | simp only [↓reply_mk] | split

theorem execCadStageDescriptor_keeps {β : Bool} {κ : Base} (r : Req) (descriptor : Nat) (offset : Nat) (data : Bytes) {s :
      State} (h : Inv β κ s) : Sat β κ (execCadStageDescriptor r descriptor offset data s) := by
  unfold execCadStageDescriptor
  try dsimp only
  repeat' first | (with_reducible first | assumption | apply ite_keeps | refine checked_keeps ?_ fun _ _ => ?_ | refine command_keeps ?_ fun _ _ => ?_ | apply next_keeps | apply Inv.core) | simp only [↓inv_mk] | simp only [↓reply_mk] | split

theorem execCadCommitGroup_keeps {β : Bool} {κ : Base} (r : Req) (gi : Nat) {s : State} (h : Inv β κ s) : Sat β κ
      (execCadCommitGroup r gi s) := by
  unfold execCadCommitGroup
  try dsimp only
  repeat' first | (with_reducible first | assumption | refine checked_keeps ?_ fun _ _ => ?_ | refine command_keeps ?_ fun _ _ => ?_ | apply next_keeps | apply onGroup_keeps | apply Inv.core) | simp only [↓inv_mk] | simp only [↓reply_mk] | split

theorem applyCommit_keeps {β : Bool} {κ : Base} (gi : Nat) {s : State} (h : Inv β κ s) : Inv β κ (applyCommit gi s) := by
  unfold applyCommit
  try dsimp only
  repeat' first | (with_reducible first | assumption | apply ite_keeps | apply onGroup_keeps | apply raise_keeps | apply record_keeps | apply Inv.core) | simp only [↓inv_mk] | split

theorem applyCommits_keeps {β : Bool} {κ : Base} {s : State} (h : Inv β κ s) : Inv β κ (applyCommits s) := by
  unfold applyCommits
  try dsimp only
  repeat' first | (with_reducible first | assumption | refine foldl_keeps ?_ fun _ _ _ => ?_ | apply applyCommit_keeps) | split

theorem settleStale_keeps {β : Bool} {κ : Base} {s : State} (h : Inv β κ s) : Inv β κ (settleStale s) := by
  unfold settleStale
  try dsimp only
  repeat' first | (with_reducible first | assumption | apply raiseIf_keeps | apply Inv.core) | simp only [↓inv_mk] | split

theorem latchDirection_keeps {β : Bool} {κ : Base} {s : State} (n : Nat) (h : Inv β κ s) : Inv β κ (latchDirection s n) := by
  unfold latchDirection
  try dsimp only
  repeat' first | (with_reducible first | assumption | apply ite_keeps | apply onOut_keeps | apply Inv.core) | simp only [↓inv_mk] | split

theorem computeEpoch_keeps {β : Bool} {κ : Base} {s : State} (h : Inv β κ s) : Inv β κ (computeEpoch s) := by
  unfold computeEpoch
  try dsimp only
  repeat' first | (with_reducible first | assumption | apply ite_keeps | refine foldl_keeps ?_ fun _ _ _ => ?_ | apply latchDirection_keeps | apply raiseIf_keeps | apply raise_keeps | apply record_keeps | apply Inv.core) | simp only [↓inv_mk] | split

theorem startMove_keeps {β : Bool} {κ : Base} (i : Nat) (dest : Nat) {s : State} (h : Inv β κ s) : Inv β κ (startMove i dest s)
      := by
  unfold startMove
  try dsimp only
  repeat' first | (with_reducible first | assumption | apply ite_keeps | apply onAssign_keeps | apply Inv.core) | simp only [↓inv_mk] | split

theorem release_keeps {β : Bool} {κ : Base} (n : Nat) {s : State} (h : Inv β κ s) : Inv β κ (release n s) := by
  unfold release
  try dsimp only
  repeat' first | (with_reducible first | assumption | refine foldl_keeps ?_ fun _ _ _ => ?_ | apply startMove_keeps) | split

theorem assignOutlet_keeps {β : Bool} {κ : Base} {s : State} (n : Nat) (h : Inv β κ s) : Inv β κ (assignOutlet s n) := by
  unfold assignOutlet
  try dsimp only
  repeat' first | (with_reducible first | assumption | apply ite_keeps | refine foldl_keeps ?_ fun _ _ _ => ?_ | apply release_keeps | apply onOut_keeps | apply startMove_keeps | apply Inv.core) | simp only [↓inv_mk] | split

theorem countStage_keeps {β : Bool} {κ : Base} {s : State} (i : Nat) (h : Inv β κ s) : Inv β κ (countStage s i) := by
  unfold countStage
  try dsimp only
  repeat' first | (with_reducible first | assumption | apply ite_keeps | apply raiseIf_keeps | apply onAssign_keeps | apply Inv.core) | simp only [↓inv_mk] | split

theorem applyPlan_keeps {β : Bool} {κ : Base} {s : State} (h : Inv β κ s) : Inv β κ (applyPlan s) := by
  unfold applyPlan
  try dsimp only
  repeat' first | (with_reducible first | assumption | refine foldl_keeps ?_ fun _ _ _ => ?_ | apply startMove_keeps | apply Inv.core) | simp only [↓inv_mk] | split

theorem planned_keeps {β : Bool} {κ : Base} (f : State → State) {s : State} (h : Inv β κ s) : Inv β κ (planned f s) := by
  unfold planned; dsimp only; simp only [↓inv_mk]; exact h.core

theorem assignStages_keeps {β : Bool} {κ : Base} {s : State} (h : Inv β κ s) : Inv β κ (assignStages s) := by
  unfold assignStages
  try dsimp only
  repeat' first | (with_reducible first | assumption | apply ite_keeps | refine foldl_keeps ?_ fun _ _ _ => ?_ | apply startMove_keeps | apply assignOutlet_keeps) | split

theorem planStages_keeps {β : Bool} {κ : Base} {s : State} (h : Inv β κ s) : Inv β κ (planStages s) := by
  unfold planStages
  try dsimp only
  repeat' first | (with_reducible first | assumption | apply ite_keeps | apply planned_keeps | apply assignStages_keeps | apply Inv.core) | simp only [↓inv_mk] | split

theorem latchInputs_keeps {β : Bool} {κ : Base} {s : State} (h : Inv β κ s) : Inv β κ (latchInputs s) := by
  unfold latchInputs
  try dsimp only
  repeat' first | (with_reducible first | assumption | apply ite_keeps | apply Inv.core) | simp only [↓inv_mk] | split

theorem ageInputs_keeps {β : Bool} {κ : Base} {s : State} (h : Inv β κ s) : Inv β κ (ageInputs s) := by
  unfold ageInputs
  try dsimp only
  repeat' first | (with_reducible first | assumption | apply Inv.core) | simp only [↓inv_mk] | split

theorem expireHost_keeps {β : Bool} {κ : Base} {s : State} (h : Inv β κ s) : Inv β κ (expireHost s) := by
  unfold expireHost
  try dsimp only
  repeat' first | (with_reducible first | assumption | apply ite_keeps | apply raise_keeps | apply Inv.core) | simp only [↓inv_mk] | split

theorem latchHost_keeps {β : Bool} {κ : Base} {s : State} (h : Inv β κ s) : Inv β κ (latchHost s) := by
  unfold latchHost
  try dsimp only
  repeat' first | (with_reducible first | assumption | apply ite_keeps | apply expireHost_keeps | apply raiseIf_keeps | apply Inv.core) | simp only [↓inv_mk] | split

theorem zeroCeilings_keeps {β : Bool} {κ : Base} {s : State} (h : Inv β κ s) : Inv β κ (zeroCeilings s) := by
  unfold zeroCeilings
  try dsimp only
  repeat' first | (with_reducible first | assumption | apply Inv.core) | simp only [↓inv_mk] | split

theorem launchEpoch_keeps {β : Bool} {κ : Base} (written : Bool) {s : State} (h : Inv β κ s) : Inv β κ (launchEpoch written s)
      := by
  unfold launchEpoch
  try dsimp only
  repeat' first | (with_reducible first | assumption | apply ite_keeps | apply applyPlan_keeps | apply setLate_keeps | apply raise_keeps | apply recordIf_keeps | apply zeroCeilings_keeps | apply Inv.core) | simp only [↓inv_mk] | split

theorem latchHolds_keeps {β : Bool} {κ : Base} {s : State} (h : Inv β κ s) : Inv β κ (latchHolds s) := by
  unfold latchHolds
  try dsimp only
  repeat' first | (with_reducible first | assumption | apply Inv.core) | simp only [↓inv_mk] | split

theorem deraillBoundary_keeps {β : Bool} {κ : Base} (written : Bool) {s : State} (h : Inv β κ s) : Inv β κ (deraillBoundary
      written s) := by
  unfold deraillBoundary
  try dsimp only
  repeat' first | (with_reducible first | assumption | refine foldl_keeps ?_ fun _ _ _ => ?_ | apply launchEpoch_keeps | apply settleStale_keeps | apply latchInputs_keeps | apply latchHost_keeps | apply computeEpoch_keeps | apply countStage_keeps | apply ageInputs_keeps | apply latchHolds_keeps | apply planStages_keeps | apply Inv.core) | simp only [↓inv_mk] | split

theorem deliverRequest_keeps {β : Bool} {κ : Base} (b : Bytes) {s : State} (h : Inv β κ s) : Inv β κ (deliverRequest b s) := by
  unfold deliverRequest
  try dsimp only
  repeat' first | (with_reducible first | assumption | apply ite_keeps | apply onOut_keeps | apply Inv.core) | simp only [↓inv_mk] | split

theorem execAlcGetStatus_keeps {β : Bool} {κ : Base} (r : Req) {s : State} (h : Inv β κ s) : Sat β κ (execAlcGetStatus r s) := by
  unfold execAlcGetStatus
  try dsimp only
  repeat' first | (with_reducible first | assumption | refine command_keeps ?_ fun _ _ => ?_ | apply next_keeps) | simp only [↓reply_mk] | split

theorem execAlcSetRules_keeps {β : Bool} {κ : Base} (r : Req) (first : Nat) (count : Nat) (rules : Bytes) {s : State} (h : Inv
      β κ s) : Sat β κ (execAlcSetRules r first count rules s) := by
  unfold execAlcSetRules
  try dsimp only
  repeat' first | (with_reducible first | assumption | refine checked_keeps ?_ fun _ _ => ?_ | refine command_keeps ?_ fun _ _ => ?_ | apply next_keeps | apply count_keeps | apply Inv.core) | simp only [↓inv_mk] | simp only [↓reply_mk] | split

theorem execAlcGetRules_keeps {β : Bool} {κ : Base} (r : Req) (table : Nat) (first : Nat) (count : Nat) {s : State} (h : Inv β
      κ s) : Sat β κ (execAlcGetRules r table first count s) := by
  unfold execAlcGetRules
  try dsimp only
  repeat' first | (with_reducible first | assumption | apply ite_keeps | refine checked_keeps ?_ fun _ _ => ?_ | refine command_keeps ?_ fun _ _ => ?_ | apply next_keeps | apply count_keeps) | simp only [↓reply_mk] | split

theorem execAlcCommitRules_keeps {β : Bool} {κ : Base} (r : Req) {s : State} (h : Inv β κ s) : Sat β κ (execAlcCommitRules r s)
      := by
  unfold execAlcCommitRules
  try dsimp only
  repeat' first | (with_reducible first | assumption | refine checked_keeps ?_ fun _ _ => ?_ | refine command_keeps ?_ fun _ _ => ?_ | apply next_keeps | apply record_keeps | apply Inv.core) | simp only [↓inv_mk] | simp only [↓reply_mk] | split

theorem execAlcSetSiteLimits_keeps {β : Bool} {κ : Base} (r : Req) (imp : Int) (exp : Int) (validity : Nat) {s : State} (h :
      Inv β κ s) : Sat β κ (execAlcSetSiteLimits r imp exp validity s) := by
  unfold execAlcSetSiteLimits
  try dsimp only
  repeat' first | (with_reducible first | assumption | refine checked_keeps ?_ fun _ _ => ?_ | refine command_keeps ?_ fun _ _ => ?_ | apply next_keeps | apply Inv.core) | simp only [↓inv_mk] | simp only [↓reply_mk] | split

theorem execAlcSetSessionClass_keeps {β : Bool} {κ : Base} (r : Req) (outlet : Nat) (cls : Nat) {s : State} (h : Inv β κ s) :
      Sat β κ (execAlcSetSessionClass r outlet cls s) := by
  unfold execAlcSetSessionClass
  try dsimp only
  repeat' first | (with_reducible first | assumption | refine checked_keeps ?_ fun _ _ => ?_ | refine command_keeps ?_ fun _ _ => ?_ | apply next_keeps | apply onOut_keeps | apply Inv.core) | simp only [↓inv_mk] | simp only [↓reply_mk] | split

theorem execAlcGetGrants_keeps {β : Bool} {κ : Base} (r : Req) {s : State} (h : Inv β κ s) : Sat β κ (execAlcGetGrants r s) := by
  unfold execAlcGetGrants
  try dsimp only
  repeat' first | (with_reducible first | assumption | refine command_keeps ?_ fun _ _ => ?_ | apply next_keeps) | simp only [↓reply_mk] | split

theorem execAlcGetInputs_keeps {β : Bool} {κ : Base} (r : Req) (outlet : Nat) {s : State} (h : Inv β κ s) : Sat β κ
      (execAlcGetInputs r outlet s) := by
  unfold execAlcGetInputs
  try dsimp only
  repeat' first | (with_reducible first | assumption | refine checked_keeps ?_ fun _ _ => ?_ | refine command_keeps ?_ fun _ _ => ?_ | apply next_keeps) | simp only [↓reply_mk] | split

theorem execAlcGetAssignment_keeps {β : Bool} {κ : Base} (r : Req) {s : State} (h : Inv β κ s) : Sat β κ (execAlcGetAssignment
      r s) := by
  unfold execAlcGetAssignment
  try dsimp only
  repeat' first | (with_reducible first | assumption | refine command_keeps ?_ fun _ _ => ?_ | apply next_keeps) | simp only [↓reply_mk] | split

theorem execAlcSetStageService_keeps {β : Bool} {κ : Base} (r : Req) (position : Nat) (action : Nat) {s : State} (h : Inv β κ
      s) : Sat β κ (execAlcSetStageService r position action s) := by
  unfold execAlcSetStageService
  try dsimp only
  repeat' first | (with_reducible first | assumption | apply ite_keeps | refine checked_keeps ?_ fun _ _ => ?_ | refine command_keeps ?_ fun _ _ => ?_ | apply next_keeps | apply onAssign_keeps | apply Inv.core) | simp only [↓inv_mk] | simp only [↓reply_mk] | split

theorem execAlcLateZeroCeilings_keeps {β : Bool} {κ : Base} {s : State} (h : Inv β κ s) : Sat β κ (execAlcLateZeroCeilings s)
      := by
  unfold execAlcLateZeroCeilings
  repeat' first | (with_reducible first | assumption | apply ite_keeps | apply next_keeps | apply zeroCeilings_keeps) | simp only [↓reply_mk] | split

theorem execAlcInputStale_keeps {β : Bool} {κ : Base} (_input : Nat) (_outlet : Nat) {s : State} (h : Inv β κ s) : Sat β κ
      (execAlcInputStale _input _outlet s) := by
  unfold execAlcInputStale
  repeat' first | (with_reducible first | assumption | apply next_keeps | apply settleStale_keeps) | simp only [↓reply_mk] | split

theorem execAlcSiteLimitExpiry_keeps {β : Bool} {κ : Base} {s : State} (h : Inv β κ s) : Sat β κ (execAlcSiteLimitExpiry s) := by
  unfold execAlcSiteLimitExpiry
  repeat' first | (with_reducible first | assumption | apply next_keeps | apply expireHost_keeps) | simp only [↓reply_mk] | split

theorem execStageReleaseDelay_keeps {β : Bool} {κ : Base} (outlet : Nat) {s : State} (h : Inv β κ s) : Sat β κ
      (execStageReleaseDelay outlet s) := by
  unfold execStageReleaseDelay
  try dsimp only
  repeat' first | (with_reducible first | assumption | apply ite_keeps | apply next_keeps | apply planned_keeps | apply release_keeps) | simp only [↓reply_mk] | split

end Sys2Proof.Machine
end

