-- ==== Sys2Proof/Laws/KeepSafe.lean ====
section
/-!
SUPPORT. Keeping the sound state and the queue (Laws/Keep.lean): the safety core, its transport and the load channels.
-/
namespace Sys2Proof.Machine

theorem leaveDegraded_keeps {β : Bool} {κ : Base} (c : Nat) {s : State} (h : Inv β κ s) : Inv β κ (leaveDegraded c s) := by
  unfold leaveDegraded
  try dsimp only
  repeat' first | (with_reducible first | assumption | apply ite_keeps | apply raise_keeps | apply record_keeps | apply onConn_keeps | apply Inv.core) | simp only [↓inv_mk] | split

theorem enterDegraded_keeps {β : Bool} {κ : Base} (c : Nat) (k : Nat) {s : State} (h : Inv β κ s) : Inv β κ (enterDegraded c k
      s) := by
  unfold enterDegraded
  try dsimp only
  repeat' first | (with_reducible first | assumption | apply ite_keeps | apply raise_keeps | apply record_keeps | apply onConn_keeps | apply Inv.core) | simp only [↓inv_mk] | split

theorem faultConn_keeps {β : Bool} {κ : Base} (c : Nat) (cause : Nat) (k : Nat) {s : State} (h : Inv β κ s) : Inv β κ
      (faultConn c cause k s) := by
  unfold faultConn
  try dsimp only
  repeat' first | (with_reducible first | assumption | apply ite_keeps | apply onConn_keeps | apply raise_keeps | apply record_keeps | apply leaveDegraded_keeps | apply Inv.core) | simp only [↓inv_mk] | split

theorem actStops_keeps {β : Bool} {κ : Base} (c : Nat) (k : Nat) (f : Bytes) {s : State} (h : Inv β κ s) : Inv β κ (actStops c
      k f s) := by
  unfold actStops
  try dsimp only
  repeat' first | (with_reducible first | assumption | apply onConn_keeps | apply Inv.core) | simp only [↓inv_mk] | split

theorem deliverFrame_keeps {β : Bool} {κ : Base} (c : Nat) (k : Nat) (f : Bytes) {s : State} (h : Inv β κ s) : Inv β κ
      (deliverFrame c k f s) := by
  unfold deliverFrame
  try dsimp only
  repeat' first | (with_reducible first | assumption | apply ite_keeps | apply onConn_keeps | apply Inv.core) | simp only [↓inv_mk] | split

theorem countConn_keeps {β : Bool} {κ : Base} (c : Nat) (i : Nat) {s : State} (h : Inv β κ s) : Inv β κ (countConn c i s) := by
  unfold countConn
  try dsimp only
  repeat' first | (with_reducible first | assumption | apply onConn_keeps | apply Inv.core) | simp only [↓inv_mk] | split

theorem singleSeq_keeps {β : Bool} {κ : Base} (c : Nat) (k : Nat) {s : State} (h : Inv β κ s) : Inv β κ (singleSeq c k s) := by
  unfold singleSeq
  try dsimp only
  repeat' first | (with_reducible first | assumption | apply deliverFrame_keeps | apply enterDegraded_keeps | apply onConn_keeps | apply countConn_keeps | apply Inv.core) | simp only [↓inv_mk] | split

theorem settleSkew_keeps {β : Bool} {κ : Base} (c : Nat) (k : Nat) {s : State} (h : Inv β κ s) : Inv β κ (settleSkew c k s) := by
  unfold settleSkew
  try dsimp only
  repeat' first | (with_reducible first | assumption | apply ite_keeps | apply singleSeq_keeps | apply Inv.core) | simp only [↓inv_mk] | split

theorem secondCopy_keeps {β : Bool} {κ : Base} (c : Nat) (k : Nat) (first : Bytes) (f : Bytes) {s : State} (h : Inv β κ s) :
      Inv β κ (secondCopy c k first f s) := by
  unfold secondCopy
  try dsimp only
  repeat' first | (with_reducible first | assumption | apply ite_keeps | apply onConn_keeps | apply countConn_keeps | apply deliverFrame_keeps | apply leaveDegraded_keeps | apply faultConn_keeps | apply Inv.core) | simp only [↓inv_mk] | split

theorem firstCopy_keeps {β : Bool} {κ : Base} (c : Nat) (k : Nat) (f : Bytes) {s : State} (h : Inv β κ s) : Inv β κ (firstCopy
      c k f s) := by
  unfold firstCopy
  try dsimp only
  repeat' first | (with_reducible first | assumption | apply actStops_keeps | apply onConn_keeps | apply singleSeq_keeps | apply Inv.core) | simp only [↓inv_mk] | split

theorem heardOn_keeps {β : Bool} {κ : Base} (c : Nat) (path : Nat) (k : Nat) {s : State} (h : Inv β κ s) : Inv β κ (heardOn c
      path k s) := by
  unfold heardOn
  try dsimp only
  repeat' first | (with_reducible first | assumption | apply ite_keeps | apply onConn_keeps | apply Inv.core) | simp only [↓inv_mk] | split

theorem takeCopy_keeps {β : Bool} {κ : Base} (c : Nat) (path : Nat) (k : Nat) (f : Bytes) {s : State} (h : Inv β κ s) : Inv β κ
      (takeCopy c path k f s) := by
  unfold takeCopy
  try dsimp only
  repeat' first | (with_reducible first | assumption | apply ite_keeps | apply settleSkew_keeps | apply heardOn_keeps | apply actStops_keeps | apply countConn_keeps | apply firstCopy_keeps | apply secondCopy_keeps | apply Inv.core) | simp only [↓inv_mk] | split

theorem receiveCopy_keeps {β : Bool} {κ : Base} (path : Nat) (f : Bytes) (tagOk : Bool) {s : State} (h : Inv β κ s) : Inv β κ
      (receiveCopy path f tagOk s) := by
  unfold receiveCopy
  try dsimp only
  repeat' first | (with_reducible first | assumption | apply ite_keeps | refine foldl_keeps ?_ fun _ _ _ => ?_ | apply takeCopy_keeps | apply countConn_keeps) | split

theorem settleHold_keeps {β : Bool} {κ : Base} (c : Nat) (k : Nat) {s : State} (h : Inv β κ s) : Inv β κ (settleHold c k s) := by
  unfold settleHold
  try dsimp only
  repeat' first | (with_reducible first | assumption | apply ite_keeps | apply faultConn_keeps | apply Inv.core) | simp only [↓inv_mk] | split

theorem settleWatch_keeps {β : Bool} {κ : Base} (c : Nat) (k : Nat) {s : State} (h : Inv β κ s) : Inv β κ (settleWatch c k s)
      := by
  unfold settleWatch
  try dsimp only
  repeat' first | (with_reducible first | assumption | apply ite_keeps | apply onConn_keeps | apply faultConn_keeps | apply Inv.core) | simp only [↓inv_mk] | split

theorem settleClear_keeps {β : Bool} {κ : Base} (c : Nat) (k : Nat) {s : State} (h : Inv β κ s) : Inv β κ (settleClear c k s)
      := by
  unfold settleClear
  try dsimp only
  repeat' first | (with_reducible first | assumption | apply ite_keeps | apply raise_keeps | apply record_keeps | apply onConn_keeps | apply Inv.core) | simp only [↓inv_mk] | split

theorem settleConn_keeps {β : Bool} {κ : Base} {s : State} (c : Nat) (h : Inv β κ s) : Inv β κ (settleConn s c) := by
  unfold settleConn
  repeat' first | (with_reducible first | assumption | apply ite_keeps | apply settleClear_keeps | apply settleWatch_keeps | apply settleHold_keeps | apply settleSkew_keeps) | split

theorem execSafetyCopyReceived_keeps {β : Bool} {κ : Base} (path : Nat) (frame : Bytes) (tag : Bytes) {s : State} (h : Inv β κ
      s) : Sat β κ (execSafetyCopyReceived path frame tag s) := by
  unfold execSafetyCopyReceived
  repeat' first | (with_reducible first | assumption | apply ite_keeps | apply next_keeps | apply receiveCopy_keeps) | simp only [↓reply_mk] | split

theorem execSkewWindowClose_keeps {β : Bool} {κ : Base} (c : Nat) {s : State} (h : Inv β κ s) : Sat β κ (execSkewWindowClose c
      s) := by
  unfold execSkewWindowClose
  repeat' first | (with_reducible first | assumption | apply ite_keeps | apply next_keeps | apply settleSkew_keeps) | simp only [↓reply_mk] | split

theorem execTransportWatchdogExpiry_keeps {β : Bool} {κ : Base} (c : Nat) {s : State} (h : Inv β κ s) : Sat β κ
      (execTransportWatchdogExpiry c s) := by
  unfold execTransportWatchdogExpiry
  repeat' first | (with_reducible first | assumption | apply ite_keeps | apply next_keeps | apply settleWatch_keeps) | simp only [↓reply_mk] | split

theorem execDegradedHoldExpiry_keeps {β : Bool} {κ : Base} (c : Nat) {s : State} (h : Inv β κ s) : Sat β κ
      (execDegradedHoldExpiry c s) := by
  unfold execDegradedHoldExpiry
  repeat' first | (with_reducible first | assumption | apply ite_keeps | apply next_keeps | apply settleHold_keeps) | simp only [↓reply_mk] | split

theorem execTransportFaultClear_keeps {β : Bool} {κ : Base} (c : Nat) {s : State} (h : Inv β κ s) : Sat β κ
      (execTransportFaultClear c s) := by
  unfold execTransportFaultClear
  repeat' first | (with_reducible first | assumption | apply ite_keeps | apply next_keeps | apply settleClear_keeps) | simp only [↓reply_mk] | split

theorem execSafGetLink_keeps {β : Bool} {κ : Base} (r : Req) (c : Nat) {s : State} (h : Inv β κ s) : Sat β κ (execSafGetLink r
      c s) := by
  unfold execSafGetLink
  try dsimp only
  repeat' first | (with_reducible first | assumption | refine checked_keeps ?_ fun _ _ => ?_ | refine command_keeps ?_ fun _ _ => ?_ | apply next_keeps) | simp only [↓reply_mk] | split

theorem latchInput_keeps {β : Bool} {κ : Base} (i : Nat) (code : Nat) {s : State} (h : Inv β κ s) : Inv β κ (latchInput i code
      s) := by
  unfold latchInput
  try dsimp only
  repeat' first | (with_reducible first | assumption | apply ite_keeps | apply raise_keeps | apply onInputSi_keeps | apply Inv.core) | simp only [↓inv_mk] | split

theorem clearInput_keeps {β : Bool} {κ : Base} (i : Nat) {s : State} (h : Inv β κ s) : Inv β κ (clearInput i s) := by
  unfold clearInput
  try dsimp only
  repeat' first | (with_reducible first | assumption | apply ite_keeps | apply raise_keeps | apply onInputSi_keeps | apply Inv.core) | simp only [↓inv_mk] | split

theorem settleDiscrepancy_keeps {β : Bool} {κ : Base} (i : Nat) (k : Nat) {s : State} (h : Inv β κ s) : Inv β κ
      (settleDiscrepancy i k s) := by
  unfold settleDiscrepancy
  try dsimp only
  repeat' first | (with_reducible first | assumption | apply ite_keeps | apply onInputSi_keeps | apply latchInput_keeps | apply Inv.core) | simp only [↓inv_mk] | split

theorem sampleInput_keeps {β : Bool} {κ : Base} (s0 : List (Bool × Bool)) (s1 : List (Bool × Bool)) (i : Nat) {s : State} (h :
      Inv β κ s) : Inv β κ (sampleInput s0 s1 i s) := by
  unfold sampleInput
  try dsimp only
  repeat' first | (with_reducible first | assumption | apply ite_keeps | apply onInputSi_keeps | apply latchInput_keeps | apply settleDiscrepancy_keeps | apply Inv.core) | simp only [↓inv_mk] | split

theorem execDiscrepancyLate_keeps {β : Bool} {κ : Base} (i : Nat) {s : State} (h : Inv β κ s) : Sat β κ (execDiscrepancyLate i
      s) := by
  unfold execDiscrepancyLate
  repeat' first | (with_reducible first | assumption | apply ite_keeps | apply next_keeps | apply settleDiscrepancy_keeps) | simp only [↓reply_mk] | split

theorem testInput_keeps {β : Bool} {κ : Base} (tp : Nat) (samples : List (Bool × Bool)) {s : State} (i : Nat) (h : Inv β κ s) :
      Inv β κ (testInput tp samples s i) := by
  unfold testInput
  try dsimp only
  repeat' first | (with_reducible first | assumption | apply ite_keeps | apply onInputSi_keeps | apply latchInput_keeps | apply Inv.core) | simp only [↓inv_mk] | split

theorem execTestSample_keeps {β : Bool} {κ : Base} (tp : Nat) (samples : List (Bool × Bool)) {s : State} (h : Inv β κ s) : Sat
      β κ (execTestSample tp samples s) := by
  unfold execTestSample
  repeat' first | (with_reducible first | assumption | apply ite_keeps | refine foldl_keeps ?_ fun _ _ _ => ?_ | apply next_keeps | apply testInput_keeps) | simp only [↓reply_mk] | split

theorem execSafGetInput_keeps {β : Bool} {κ : Base} (r : Req) (i : Nat) {s : State} (h : Inv β κ s) : Sat β κ (execSafGetInput
      r i s) := by
  unfold execSafGetInput
  try dsimp only
  repeat' first | (with_reducible first | assumption | refine checked_keeps ?_ fun _ _ => ?_ | refine command_keeps ?_ fun _ _ => ?_ | apply next_keeps) | simp only [↓reply_mk] | split

theorem onChain_keeps {β : Bool} {κ : Base} (c : Nat) (f : Pannier → Pannier) {s : State} (h : Inv β κ s) : Inv β κ (onChain c
      f s) := by
  unfold onChain
  try dsimp only
  repeat' first | (with_reducible first | assumption | apply Inv.core) | simp only [↓inv_mk] | split

theorem onString_keeps {β : Bool} {κ : Base} (k : Nat) (f : StackStr → StackStr) {s : State} (h : Inv β κ s) : Inv β κ
      (onString k f s) := by
  unfold onString
  try dsimp only
  repeat' first | (with_reducible first | assumption | apply Inv.core) | simp only [↓inv_mk] | split

theorem onComp_keeps {β : Bool} {κ : Base} (c : Nat) (p : Nat) (f : Comp → Comp) {s : State} (h : Inv β κ s) : Inv β κ (onComp
      c p f s) := by
  unfold onComp
  try dsimp only
  repeat' first | (with_reducible first | assumption | apply onChain_keeps | apply Inv.core) | simp only [↓inv_mk] | split

theorem deliverStack_keeps {β : Bool} {κ : Base} {s : State} (h : Inv β κ s) : Inv β κ (deliverStack s) := by
  unfold deliverStack
  try dsimp only
  repeat' first | (with_reducible first | assumption | apply ite_keeps | apply drawn_keeps | apply Inv.core) | simp only [↓inv_mk] | split

theorem settleService_keeps {β : Bool} {κ : Base} {s : State} (h : Inv β κ s) : Inv β κ (settleService s) := by
  unfold settleService
  try dsimp only
  repeat' first | (with_reducible first | assumption | apply ite_keeps | apply deliverStack_keeps | apply raise_keeps | apply Inv.core) | simp only [↓inv_mk] | split

theorem settleLoop_keeps {β : Bool} {κ : Base} (c : Nat) {s : State} (h : Inv β κ s) : Inv β κ (settleLoop c s) := by
  unfold settleLoop
  try dsimp only
  repeat' first | (with_reducible first | assumption | apply ite_keeps | apply onChain_keeps | apply Inv.core) | simp only [↓inv_mk] | split

theorem fallPermit_keeps {β : Bool} {κ : Base} (j : Nat) (cause : Nat) {s : State} (h : Inv β κ s) : Inv β κ (fallPermit j
      cause s) := by
  unfold fallPermit
  try dsimp only
  repeat' first | (with_reducible first | assumption | apply ite_keeps | apply raise_keeps | apply onInst_keeps | apply Inv.core) | simp only [↓inv_mk] | split

theorem raisePermit_keeps {β : Bool} {κ : Base} (j : Nat) {s : State} (h : Inv β κ s) : Inv β κ (raisePermit j s) := by
  unfold raisePermit
  try dsimp only
  repeat' first | (with_reducible first | assumption | apply ite_keeps | apply raise_keeps | apply onInst_keeps | apply Inv.core) | simp only [↓inv_mk] | split

theorem giveReset_keeps {β : Bool} {κ : Base} (given : Bool) (j : Nat) {s : State} (h : Inv β κ s) : Inv β κ (giveReset given j
      s) := by
  unfold giveReset
  try dsimp only
  repeat' first | (with_reducible first | assumption | apply ite_keeps | refine foldl_keeps ?_ fun _ _ _ => ?_ | apply clearInput_keeps | apply onInst_keeps | apply clearLoad_keeps | apply raisePermit_keeps | apply Inv.core) | simp only [↓inv_mk] | split

theorem giveResets_keeps {β : Bool} {κ : Base} (sel : Nat → Bool) {s : State} (h : Inv β κ s) : Inv β κ (giveResets sel s) := by
  unfold giveResets
  try dsimp only
  repeat' first | (with_reducible first | assumption | apply ite_keeps | refine foldl_keeps ?_ fun _ _ _ => ?_ | apply giveReset_keeps) | split

theorem settlePress_keeps {β : Bool} {κ : Base} {s : State} (i : Nat) (h : Inv β κ s) : Inv β κ (settlePress s i) := by
  unfold settlePress
  try dsimp only
  repeat' first | (with_reducible first | assumption | apply ite_keeps | apply onInputSi_keeps | apply raise_keeps | apply kickReset_keeps | apply giveResets_keeps | apply Inv.core) | simp only [↓inv_mk] | split

theorem execResetInputPress_keeps {β : Bool} {κ : Base} (i : Nat) {s : State} (h : Inv β κ s) : Sat β κ (execResetInputPress i
      s) := by
  unfold execResetInputPress
  repeat' first | (with_reducible first | assumption | apply ite_keeps | apply next_keeps | apply settlePress_keeps) | simp only [↓reply_mk] | split

theorem settleHands_keeps {β : Bool} {κ : Base} (j : Nat) {s : State} (h : Inv β κ s) : Inv β κ (settleHands j s) := by
  unfold settleHands
  try dsimp only
  repeat' first | (with_reducible first | assumption | apply ite_keeps | apply onInst_keeps | apply raise_keeps | apply Inv.core) | simp only [↓inv_mk] | split

theorem execTwoHandLate_keeps {β : Bool} {κ : Base} (j : Nat) {s : State} (h : Inv β κ s) : Sat β κ (execTwoHandLate j s) := by
  unfold execTwoHandLate
  repeat' first | (with_reducible first | assumption | apply ite_keeps | apply next_keeps | apply settleHands_keeps) | simp only [↓reply_mk] | split

theorem endMuting_keeps {β : Bool} {κ : Base} (j : Nat) (again : Bool) (timeOut : Bool) {s : State} (h : Inv β κ s) : Inv β κ
      (endMuting j again timeOut s) := by
  unfold endMuting
  try dsimp only
  repeat' first | (with_reducible first | assumption | apply ite_keeps | apply onInst_keeps | apply raise_keeps | apply requestLoad_keeps | apply fallPermit_keeps | apply Inv.core) | simp only [↓inv_mk] | split

theorem settleMuting_keeps {β : Bool} {κ : Base} (j : Nat) {s : State} (h : Inv β κ s) : Inv β κ (settleMuting j s) := by
  unfold settleMuting
  try dsimp only
  repeat' first | (with_reducible first | assumption | apply ite_keeps | apply onInst_keeps | apply endMuting_keeps | apply raise_keeps | apply requestLoad_keeps | apply Inv.core) | simp only [↓inv_mk] | split

theorem execMuteMaxExpiry_keeps {β : Bool} {κ : Base} (j : Nat) {s : State} (h : Inv β κ s) : Sat β κ (execMuteMaxExpiry j s)
      := by
  unfold execMuteMaxExpiry
  repeat' first | (with_reducible first | assumption | apply ite_keeps | apply next_keeps | apply settleMuting_keeps) | simp only [↓reply_mk] | split

theorem lockFaultAt_keeps {β : Bool} {κ : Base} (j : Nat) {s : State} (h : Inv β κ s) : Inv β κ (lockFaultAt j s) := by
  unfold lockFaultAt
  try dsimp only
  repeat' first | (with_reducible first | assumption | apply raise_keeps | apply onInst_keeps | apply Inv.core) | simp only [↓inv_mk] | split

theorem driveLock_keeps {β : Bool} {κ : Base} (j : Nat) (lock : Bool) {s : State} (h : Inv β κ s) : Inv β κ (driveLock j lock
      s) := by
  unfold driveLock
  try dsimp only
  repeat' first | (with_reducible first | assumption | apply ite_keeps | apply onInst_keeps | apply requestLoad_keeps | apply raise_keeps | apply Inv.core) | simp only [↓inv_mk] | split

theorem settleDrive_keeps {β : Bool} {κ : Base} (j : Nat) {s : State} (h : Inv β κ s) : Inv β κ (settleDrive j s) := by
  unfold settleDrive
  try dsimp only
  repeat' first | (with_reducible first | assumption | apply ite_keeps | apply lockFaultAt_keeps | apply onInst_keeps | apply Inv.core) | simp only [↓inv_mk] | split

theorem execLockFeedbackTimeout_keeps {β : Bool} {κ : Base} (j : Nat) {s : State} (h : Inv β κ s) : Sat β κ
      (execLockFeedbackTimeout j s) := by
  unfold execLockFeedbackTimeout
  repeat' first | (with_reducible first | assumption | apply ite_keeps | apply next_keeps | apply lockFaultAt_keeps) | simp only [↓reply_mk] | split

theorem execUnlockDelayExpiry_keeps {β : Bool} {κ : Base} (j : Nat) {s : State} (h : Inv β κ s) : Sat β κ
      (execUnlockDelayExpiry j s) := by
  unfold execUnlockDelayExpiry
  repeat' first | (with_reducible first | assumption | apply ite_keeps | apply next_keeps | apply driveLock_keeps) | simp only [↓reply_mk] | split

theorem settleDoor_keeps {β : Bool} {κ : Base} (j : Nat) {s : State} (h : Inv β κ s) : Inv β κ (settleDoor j s) := by
  unfold settleDoor
  try dsimp only
  repeat' first | (with_reducible first | assumption | apply ite_keeps | apply settleDrive_keeps | apply lockFaultAt_keeps | apply driveLock_keeps | apply onInst_keeps | apply Inv.core) | simp only [↓inv_mk] | split

theorem evalInst_keeps {β : Bool} {κ : Base} {s : State} (j : Nat) (h : Inv β κ s) : Inv β κ (evalInst s j) := by
  unfold evalInst
  try dsimp only
  repeat' first | (with_reducible first | assumption | apply ite_keeps | apply settleDoor_keeps | apply settleMuting_keeps | apply settleHands_keeps | apply fallPermit_keeps | apply giveReset_keeps) | split

theorem evalPair_keeps {β : Bool} {κ : Base} {s : State} (n : Nat) (h : Inv β κ s) : Inv β κ (evalPair s n) := by
  unfold evalPair
  try dsimp only
  repeat' first | (with_reducible first | assumption | apply ite_keeps | refine foldl_keeps ?_ fun _ _ _ => ?_ | apply record_keeps | apply onSes_keeps | apply onPair_keeps | apply Inv.core) | exact fun _ _ e => e | exact fun _ _ _ => rfl | exact fun _ e => e | exact fun _ _ => rfl | exact fun _ _ => ⟨rfl, rfl, rfl⟩ | exact Nat.le_succ _ | simp only [↓inv_mk] | split

theorem launchPair_keeps {β : Bool} {κ : Base} {s : State} (n : Nat) (h : Inv β κ s) : Inv β κ (launchPair s n) := by
  unfold launchPair; dsimp only
  split
  · rename_i hc
    simp only [Bool.and_eq_true, Bool.not_eq_true'] at hc
    refine onPair_keeps _ _ h fun hk => ?_
    rw [hc.1.2] at hk; exact nomatch hk
  · exact onPair_keeps _ _ h fun _ _ _ => rfl

theorem execMaxRampExpiry_keeps {β : Bool} {κ : Base} (n : Nat) {s : State} (h : Inv β κ s) : Sat β κ (execMaxRampExpiry n s)
      := by
  unfold execMaxRampExpiry
  repeat' first | (with_reducible first | assumption | apply ite_keeps | apply next_keeps | apply launchPair_keeps | apply evalPair_keeps) | simp only [↓reply_mk] | split

theorem pairFault_keeps {β : Bool} {κ : Base} (n : Nat) (kind : Nat) {s : State} (h : Inv β κ s) : Inv β κ (pairFault n kind s)
      := by
  unfold pairFault
  try dsimp only
  repeat' first | (with_reducible first | assumption | apply ite_keeps | apply enterKick_keeps | apply raise_keeps | apply pairs_upd | apply Inv.core) | exact fun _ _ e => e | exact fun _ _ _ => rfl | exact fun _ e => e | exact fun _ _ => rfl | exact fun _ _ => ⟨rfl, rfl, rfl⟩ | exact Nat.le_succ _ | simp only [↓inv_mk] | split

theorem readBack_keeps {β : Bool} {κ : Base} (sense : List (Nat × Nat × Nat)) (vsout : Nat) {s : State} (n : Nat) (h : Inv β κ
      s) : Inv β κ (readBack sense vsout s n) := by
  unfold readBack
  try dsimp only
  repeat' first | (with_reducible first | assumption | apply ite_keeps | apply onPair_keeps | apply raiseIf_keeps | apply pairFault_keeps | apply Inv.core) | exact fun _ _ e => e | exact fun _ _ _ => rfl | exact fun _ e => e | exact fun _ _ => rfl | exact fun _ _ => ⟨rfl, rfl, rfl⟩ | exact Nat.le_succ _ | simp only [↓inv_mk] | split

theorem execDarkTest_keeps {β : Bool} {κ : Base} (n : Nat) (vHigh : Nat) (vLow : Nat) (vsout : Nat) {s : State} (h : Inv β κ s)
      : Sat β κ (execDarkTest n vHigh vLow vsout s) := by
  unfold execDarkTest
  try dsimp only
  repeat' first | (with_reducible first | assumption | apply ite_keeps | apply next_keeps | apply pairFault_keeps | apply pairs_upd | apply Inv.core) | exact fun _ _ e => e | exact fun _ _ _ => rfl | exact fun _ e => e | exact fun _ _ => rfl | exact fun _ _ => ⟨rfl, rfl, rfl⟩ | exact Nat.le_succ _ | simp only [↓inv_mk] | simp only [↓reply_mk] | split

theorem execPairOvercurrent_keeps {β : Bool} {κ : Base} (n : Nat) {s : State} (h : Inv β κ s) : Sat β κ (execPairOvercurrent n
      s) := by
  unfold execPairOvercurrent
  repeat' first | (with_reducible first | assumption | apply ite_keeps | apply next_keeps | apply pairFault_keeps) | simp only [↓reply_mk] | split

theorem execVsoutRangeChange_keeps {β : Bool} {κ : Base} (inRange : Bool) {s : State} (h : Inv β κ s) : Sat β κ
      (execVsoutRangeChange inRange s) := by
  unfold execVsoutRangeChange
  try dsimp only
  repeat' first | (with_reducible first | assumption | apply ite_keeps | apply next_keeps | apply raise_keeps | apply pairs_map | apply Inv.core) | exact fun _ _ e => e | exact fun _ _ _ => rfl | exact fun _ e => e | exact fun _ _ => rfl | exact fun _ _ => ⟨rfl, rfl, rfl⟩ | exact Nat.le_succ _ | simp only [↓inv_mk] | simp only [↓reply_mk] | split

theorem compareFailed_keeps {β : Bool} {κ : Base} {s : State} (h : Inv β κ s) : Inv β κ (compareFailed s) := by
  unfold compareFailed
  try dsimp only
  repeat' first | (with_reducible first | assumption | apply enterKick_keeps | apply raise_keeps | apply pairs_map | apply Inv.core) | exact fun _ _ e => e | exact fun _ _ _ => rfl | exact fun _ e => e | exact fun _ _ => rfl | exact fun _ _ => ⟨rfl, rfl, rfl⟩ | exact Nat.le_succ _ | simp only [↓inv_mk] | split

theorem tripLoads_keeps {β : Bool} {κ : Base} (core : Nat) {s : State} (h : Inv β κ s) : Inv β κ (tripLoads core s) := by
  unfold tripLoads
  try dsimp only
  repeat' first | (with_reducible first | assumption | apply ite_keeps | apply enterKick_keeps | apply raise_keeps | apply record_keeps | apply loadsOff_keeps | apply Inv.core) | simp only [↓inv_mk] | split

theorem feedCore_keeps {β : Bool} {κ : Base} (core : Nat) {s : State} (h : Inv β κ s) : Inv β κ (feedCore core s) := by
  unfold feedCore
  try dsimp only
  repeat' first | (with_reducible first | assumption | apply Inv.core) | simp only [↓inv_mk] | split

theorem feedLoads_keeps {β : Bool} {κ : Base} (cores : List Nat) {s : State} (h : Inv β κ s) : Inv β κ (feedLoads cores s) := by
  unfold feedLoads
  try dsimp only
  repeat' first | (with_reducible first | assumption | apply ite_keeps | refine foldl_keeps ?_ fun _ _ _ => ?_ | apply feedCore_keeps | apply tripLoads_keeps | apply Inv.core) | simp only [↓inv_mk] | split

theorem execSafetyEdgeMissed_keeps {β : Bool} {κ : Base} (core : Nat) {s : State} (h : Inv β κ s) : Sat β κ
      (execSafetyEdgeMissed core s) := by
  unfold execSafetyEdgeMissed
  try dsimp only
  repeat' first | (with_reducible first | assumption | apply ite_keeps | apply next_keeps | apply setLate_keeps | apply feedLoads_keeps | apply compareFailed_keeps | apply Inv.core) | simp only [↓inv_mk] | simp only [↓reply_mk] | split

theorem execVddSafeOutOfRange_keeps {β : Bool} {κ : Base} {s : State} (h : Inv β κ s) : Sat β κ (execVddSafeOutOfRange s) := by
  unfold execVddSafeOutOfRange
  repeat' first | (with_reducible first | assumption | apply ite_keeps | apply next_keeps | apply enterKick_keeps | apply raise_keeps) | simp only [↓reply_mk] | split

theorem sendSafety_keeps {β : Bool} {κ : Base} (f : Bytes) {s : State} (h : Inv β κ s) : Inv β κ (sendSafety f s) := by
  unfold sendSafety
  try dsimp only
  repeat' first | (with_reducible first | assumption | apply Inv.core) | simp only [↓inv_mk] | split

theorem periodicFrame_keeps {β : Bool} {κ : Base} {s : State} (h : Inv β κ s) : Inv β κ (periodicFrame s) := by
  unfold periodicFrame
  try dsimp only
  repeat' first | (with_reducible first | assumption | apply ite_keeps | apply compareFailed_keeps | apply sendSafety_keeps | apply Inv.core) | simp only [↓inv_mk] | split

theorem advanceFrame_keeps {β : Bool} {κ : Base} {s : State} (h : Inv β κ s) : Inv β κ (advanceFrame s) := by
  unfold advanceFrame
  try dsimp only
  repeat' first | (with_reducible first | assumption | apply ite_keeps | apply sendSafety_keeps | apply Inv.core) | simp only [↓inv_mk] | split

theorem execSafetyFramePoint_keeps {β : Bool} {κ : Base} {s : State} (h : Inv β κ s) : Sat β κ (execSafetyFramePoint s) := by
  unfold execSafetyFramePoint
  repeat' first | (with_reducible first | assumption | apply ite_keeps | apply next_keeps | apply periodicFrame_keeps) | simp only [↓reply_mk] | split

theorem launchDemands_keeps {β : Bool} {κ : Base} {s : State} (h : Inv β κ s) : Inv β κ (launchDemands s) := by
  unfold launchDemands
  try dsimp only
  repeat' first | (with_reducible first | assumption | apply ite_keeps | apply Inv.core) | simp only [↓inv_mk] | split

theorem launchTick_keeps {β : Bool} {κ : Base} {s : State} (h : Inv β κ s) : Inv β κ (launchTick s) := by
  unfold launchTick
  repeat' first | (with_reducible first | assumption | apply ite_keeps | refine foldl_keeps ?_ fun _ _ _ => ?_ | apply feedLoads_keeps | apply compareFailed_keeps | apply advanceFrame_keeps | apply launchDemands_keeps | apply launchPair_keeps) | split

theorem evalInstances_keeps {β : Bool} {κ : Base} {s : State} (h : Inv β κ s) : Inv β κ (evalInstances s) := by
  unfold evalInstances
  repeat' first | (with_reducible first | assumption | apply ite_keeps | refine foldl_keeps ?_ fun _ _ _ => ?_ | apply evalInst_keeps) | split

theorem evalOutputs_keeps {β : Bool} {κ : Base} {s : State} (h : Inv β κ s) : Inv β κ (evalOutputs s) := by
  unfold evalOutputs
  try dsimp only
  repeat' first | (with_reducible first | assumption | refine foldl_keeps ?_ fun _ _ _ => ?_ | apply evalPair_keeps | apply Inv.core) | simp only [↓inv_mk] | split

theorem sampleLoops_keeps {β : Bool} {κ : Base} (loops : List Bool) {s : State} (h : Inv β κ s) : Inv β κ (sampleLoops loops s)
      := by
  unfold sampleLoops
  try dsimp only
  repeat' first | (with_reducible first | assumption | apply ite_keeps | refine foldl_keeps ?_ fun _ _ _ => ?_ | apply settleLoop_keeps | apply raiseIf_keeps | apply onChain_keeps | apply Inv.core) | simp only [↓inv_mk] | split

theorem safetyCauses_keeps {β : Bool} {κ : Base} {s : State} (h : Inv β κ s) : Inv β κ (safetyCauses s) := by
  unfold safetyCauses
  try dsimp only
  repeat' first | (with_reducible first | assumption | apply ite_keeps | apply goneKick_keeps | apply Inv.core) | simp only [↓inv_mk] | split

theorem safetyTick_keeps {β : Bool} {κ : Base} (s0 : List (Bool × Bool)) (s1 : List (Bool × Bool)) (loops : List Bool) (sense :
      List (Nat × Nat × Nat)) (vsout : Nat) {s : State} (h : Inv β κ s) : Inv β κ (safetyTick s0 s1 loops sense vsout s) := by
  unfold safetyTick
  try dsimp only
  repeat' first | (with_reducible first | assumption | apply ite_keeps | refine foldl_keeps ?_ fun _ _ _ => ?_ | apply launchTick_keeps | apply readBack_keeps | apply sampleInput_keeps | apply sampleLoops_keeps | apply settleConn_keeps | apply settlePress_keeps | apply evalOutputs_keeps | apply evalInstances_keeps | apply settleService_keeps | apply safetyCauses_keeps | apply Inv.core) | simp only [↓inv_mk] | split

theorem execSafetyTick_keeps {β : Bool} {κ : Base} (s0 : List (Bool × Bool)) (s1 : List (Bool × Bool)) (loops : List Bool)
      (sense : List (Nat × Nat × Nat)) (vsout : Nat) {s : State} (h : Inv β κ s) : Sat β κ (execSafetyTick s0 s1 loops sense vsout s) := by
  unfold execSafetyTick
  repeat' first | (with_reducible first | assumption | apply ite_keeps | apply next_keeps | apply safetyTick_keeps) | simp only [↓reply_mk] | split

theorem execFaultLoopOpen_keeps {β : Bool} {κ : Base} (c : Nat) {s : State} (h : Inv β κ s) : Sat β κ (execFaultLoopOpen c s)
      := by
  unfold execFaultLoopOpen
  repeat' first | (with_reducible first | assumption | apply ite_keeps | apply next_keeps | apply settleService_keeps | apply settleLoop_keeps) | simp only [↓reply_mk] | split

theorem execFaultLoopPermitReturn_keeps {β : Bool} {κ : Base} (c : Nat) {s : State} (h : Inv β κ s) : Sat β κ
      (execFaultLoopPermitReturn c s) := by
  unfold execFaultLoopPermitReturn
  repeat' first | (with_reducible first | assumption | apply ite_keeps | apply next_keeps | apply settleLoop_keeps) | simp only [↓reply_mk] | split

theorem settleLatch_keeps {β : Bool} {κ : Base} (c : Nat) {s : State} (h : Inv β κ s) : Inv β κ (settleLatch c s) := by
  unfold settleLatch
  try dsimp only
  repeat' first | (with_reducible first | assumption | apply ite_keeps | apply raise_keeps | apply onLoad_keeps | apply afterFault_keeps | apply askOn_keeps | apply Inv.core) | exact fun _ _ e => e | exact fun _ _ _ => rfl | exact fun _ e => e | exact fun _ _ => rfl | exact fun _ _ => ⟨rfl, rfl, rfl⟩ | exact Nat.le_succ _ | simp only [↓inv_mk] | split

theorem settleRetry_keeps {β : Bool} {κ : Base} (c : Nat) {s : State} (h : Inv β κ s) : Inv β κ (settleRetry c s) := by
  unfold settleRetry
  try dsimp only
  repeat' first | (with_reducible first | assumption | apply ite_keeps | apply askOn_keeps | apply onLoad_keeps | apply Inv.core) | exact fun _ _ e => e | exact fun _ _ _ => rfl | exact fun _ e => e | exact fun _ _ => rfl | exact fun _ _ => ⟨rfl, rfl, rfl⟩ | exact Nat.le_succ _ | simp only [↓inv_mk] | split

theorem settleReload_keeps {β : Bool} {κ : Base} (c : Nat) {s : State} (h : Inv β κ s) : Inv β κ (settleReload c s) := by
  unfold settleReload
  try dsimp only
  repeat' first | (with_reducible first | assumption | apply ite_keeps | apply raiseIf_keeps | apply onLoad_keeps | apply Inv.core) | exact fun _ _ e => e | exact fun _ _ _ => rfl | exact fun _ e => e | exact fun _ _ => rfl | exact fun _ _ => ⟨rfl, rfl, rfl⟩ | exact Nat.le_succ _ | simp only [↓inv_mk] | split

theorem settleReport_keeps {β : Bool} {κ : Base} (c : Nat) (vOut : Nat) {s : State} (h : Inv β κ s) : Inv β κ (settleReport c
      vOut s) := by
  unfold settleReport
  try dsimp only
  repeat' first | (with_reducible first | assumption | apply raiseIf_keeps | apply onLoad_keeps | apply Inv.core) | exact fun _ _ e => e | exact fun _ _ _ => rfl | exact fun _ e => e | exact fun _ _ => rfl | exact fun _ _ => ⟨rfl, rfl, rfl⟩ | exact Nat.le_succ _ | simp only [↓inv_mk] | split

theorem evalLoad_keeps {β : Bool} {κ : Base} (readings : List LoadReading) {s : State} (c : Nat) (h : Inv β κ s) : Inv β κ
      (evalLoad readings s c) := by
  unfold evalLoad
  try dsimp only
  repeat' first | (with_reducible first | assumption | apply ite_keeps | apply onLoad_keeps | apply settleLatch_keeps | apply loadFault_keeps | apply settleReload_keeps | apply settleRetry_keeps | apply settleReport_keeps) | exact fun _ _ e => e | exact fun _ _ _ => rfl | exact fun _ e => e | exact fun _ _ => rfl | exact fun _ _ => ⟨rfl, rfl, rfl⟩ | exact Nat.le_succ _ | split

theorem execLdcDiagnosticEval_keeps {β : Bool} {κ : Base} (vload : Nat) (readings : List LoadReading) {s : State} (h : Inv β κ
      s) : Sat β κ (execLdcDiagnosticEval vload readings s) := by
  unfold execLdcDiagnosticEval
  try dsimp only
  repeat' first | (with_reducible first | assumption | apply ite_keeps | refine foldl_keeps ?_ fun _ _ _ => ?_ | apply next_keeps | apply evalLoad_keeps | apply tryAdmit_keeps | apply Inv.core) | simp only [↓inv_mk] | simp only [↓reply_mk] | split

theorem execLdcShortToGround_keeps {β : Bool} {κ : Base} (c : Nat) {s : State} (h : Inv β κ s) : Sat β κ (execLdcShortToGround
      c s) := by
  unfold execLdcShortToGround
  repeat' first | (with_reducible first | assumption | apply ite_keeps | apply next_keeps | apply loadFault_keeps) | simp only [↓reply_mk] | split

theorem execLdcOvertemperature_keeps {β : Bool} {κ : Base} (c : Nat) {s : State} (h : Inv β κ s) : Sat β κ
      (execLdcOvertemperature c s) := by
  unfold execLdcOvertemperature
  repeat' first | (with_reducible first | assumption | apply ite_keeps | apply next_keeps | apply loadFault_keeps) | simp only [↓reply_mk] | split

theorem execLdcLatchClear_keeps {β : Bool} {κ : Base} (c : Nat) {s : State} (h : Inv β κ s) : Sat β κ (execLdcLatchClear c s)
      := by
  unfold execLdcLatchClear
  repeat' first | (with_reducible first | assumption | apply ite_keeps | apply next_keeps | apply settleLatch_keeps) | simp only [↓reply_mk] | split

theorem execLdcRetryDelayExpiry_keeps {β : Bool} {κ : Base} (c : Nat) {s : State} (h : Inv β κ s) : Sat β κ
      (execLdcRetryDelayExpiry c s) := by
  unfold execLdcRetryDelayExpiry
  repeat' first | (with_reducible first | assumption | apply ite_keeps | apply next_keeps | apply settleRetry_keeps) | simp only [↓reply_mk] | split

theorem execLdcRetryReload_keeps {β : Bool} {κ : Base} (c : Nat) {s : State} (h : Inv β κ s) : Sat β κ (execLdcRetryReload c s)
      := by
  unfold execLdcRetryReload
  repeat' first | (with_reducible first | assumption | apply ite_keeps | apply next_keeps | apply settleReload_keeps) | simp only [↓reply_mk] | split

theorem execLdcSwitchOnAdmitted_keeps {β : Bool} {κ : Base} (c : Nat) {s : State} (h : Inv β κ s) : Sat β κ
      (execLdcSwitchOnAdmitted c s) := by
  unfold execLdcSwitchOnAdmitted
  repeat' first | (with_reducible first | assumption | apply ite_keeps | apply next_keeps | apply tryAdmit_keeps) | simp only [↓reply_mk] | split

theorem execLoadWatchdogTrip_keeps {β : Bool} {κ : Base} (core : Nat) {s : State} (h : Inv β κ s) : Sat β κ
      (execLoadWatchdogTrip core s) := by
  unfold execLoadWatchdogTrip
  repeat' first | (with_reducible first | assumption | apply ite_keeps | apply next_keeps | apply tripLoads_keeps) | simp only [↓reply_mk] | split

theorem execLoadWatchdogTest_keeps {β : Bool} {κ : Base} (openUs : Nat) (closeUs : Nat) {s : State} (h : Inv β κ s) : Sat β κ
      (execLoadWatchdogTest openUs closeUs s) := by
  unfold execLoadWatchdogTest
  try dsimp only
  repeat' first | (with_reducible first | assumption | apply ite_keeps | apply next_keeps | apply raise_keeps | apply record_keeps | apply Inv.core) | simp only [↓inv_mk] | simp only [↓reply_mk] | split

theorem execVloadRangeChange_keeps {β : Bool} {κ : Base} (inRange : Bool) {s : State} (h : Inv β κ s) : Sat β κ
      (execVloadRangeChange inRange s) := by
  unfold execVloadRangeChange
  try dsimp only
  repeat' first | (with_reducible first | assumption | apply ite_keeps | refine foldl_keeps ?_ fun _ _ _ => ?_ | apply next_keeps | apply raise_keeps | apply record_keeps | apply askOn_keeps | apply loadsOff_keeps | apply Inv.core) | simp only [↓inv_mk] | simp only [↓reply_mk] | split

theorem execLdcGetChannel_keeps {β : Bool} {κ : Base} (r : Req) (c : Nat) {s : State} (h : Inv β κ s) : Sat β κ
      (execLdcGetChannel r c s) := by
  unfold execLdcGetChannel
  try dsimp only
  repeat' first | (with_reducible first | assumption | apply ite_keeps | refine checked_keeps ?_ fun _ _ => ?_ | refine command_keeps ?_ fun _ _ => ?_ | apply next_keeps) | simp only [↓reply_mk] | split

theorem execLdcSetChannel_keeps {β : Bool} {κ : Base} (r : Req) (c : Nat) (request : Nat) {s : State} (h : Inv β κ s) : Sat β κ
      (execLdcSetChannel r c request s) := by
  unfold execLdcSetChannel
  try dsimp only
  repeat' first | (with_reducible first | assumption | refine checked_keeps ?_ fun _ _ => ?_ | refine command_keeps ?_ fun _ _ => ?_ | apply next_keeps | apply requestLoad_keeps) | simp only [↓reply_mk] | split

theorem execLdcSetDuty_keeps {β : Bool} {κ : Base} (r : Req) (g : Nat) (duty : Nat) {s : State} (h : Inv β κ s) : Sat β κ
      (execLdcSetDuty r g duty s) := by
  unfold execLdcSetDuty
  try dsimp only
  repeat' first | (with_reducible first | assumption | refine checked_keeps ?_ fun _ _ => ?_ | refine command_keeps ?_ fun _ _ => ?_ | apply next_keeps | apply newPulses_keeps | apply Inv.core) | simp only [↓inv_mk] | simp only [↓reply_mk] | split

theorem execLdcClearFault_keeps {β : Bool} {κ : Base} (r : Req) (mask : Nat) {s : State} (h : Inv β κ s) : Sat β κ
      (execLdcClearFault r mask s) := by
  unfold execLdcClearFault
  try dsimp only
  repeat' first | (with_reducible first | assumption | refine checked_keeps ?_ fun _ _ => ?_ | refine command_keeps ?_ fun _ _ => ?_ | refine foldl_keeps ?_ fun _ _ _ => ?_ | apply next_keeps | apply clearLoad_keeps) | simp only [↓reply_mk] | split

theorem execLdcGetPackage_keeps {β : Bool} {κ : Base} (r : Req) {s : State} (h : Inv β κ s) : Sat β κ (execLdcGetPackage r s)
      := by
  unfold execLdcGetPackage
  try dsimp only
  repeat' first | (with_reducible first | assumption | refine command_keeps ?_ fun _ _ => ?_ | apply next_keeps | apply loads_map) | exact fun _ _ e => e | exact fun _ _ _ => rfl | exact fun _ e => e | exact fun _ _ => rfl | exact fun _ _ => ⟨rfl, rfl, rfl⟩ | exact Nat.le_succ _ | simp only [↓reply_mk] | split

end Sys2Proof.Machine
end

