-- ==== Sys2Proof/Laws/KeepSpoke.lean ====
section
/-!
SUPPORT. Keeping the sound state and the queue (Laws/Keep.lean): the buffer stack, the vehicle links, Spoke-line and the sessions' shared operations.
-/
namespace Sys2Proof.Machine

theorem sendChain_keeps {β : Bool} {κ : Base} (c : Nat) (cmd : Nat) (addr : Nat) (fromB : Bool) (body : Bytes) {s : State} (h :
      Inv β κ s) : Inv β κ (sendChain c cmd addr fromB body s) := by
  unfold sendChain
  try dsimp only
  repeat' first | (with_reducible first | assumption | apply ite_keeps | apply onChain_keeps | apply Inv.core) | simp only [↓inv_mk] | split

theorem onComps_keeps {β : Bool} {κ : Base} (c : Nat) (p : Nat → Bool) (f : Comp → Comp) {s : State} (h : Inv β κ s) : Inv β κ
      (onComps c p f s) := by
  unfold onComps
  try dsimp only
  repeat' first | (with_reducible first | assumption | apply ite_keeps | apply onChain_keeps | apply Inv.core) | simp only [↓inv_mk] | split

theorem sendReadAll_keeps {β : Bool} {κ : Base} (c : Nat) (fromB : Bool) {s : State} (h : Inv β κ s) : Inv β κ (sendReadAll c
      fromB s) := by
  unfold sendReadAll
  try dsimp only
  repeat' first | (with_reducible first | assumption | apply sendChain_keeps | apply onChain_keeps | apply Inv.core) | simp only [↓inv_mk] | split

theorem sendConfig_keeps {β : Bool} {κ : Base} (c : Nat) {s : State} (h : Inv β κ s) : Inv β κ (sendConfig c s) := by
  unfold sendConfig
  repeat' first | (with_reducible first | assumption | apply sendChain_keeps) | split

theorem sendEnumerate_keeps {β : Bool} {κ : Base} (c : Nat) {s : State} (h : Inv β κ s) : Inv β κ (sendEnumerate c s) := by
  unfold sendEnumerate
  try dsimp only
  repeat' first | (with_reducible first | assumption | apply sendChain_keeps | apply onChain_keeps | apply Inv.core) | simp only [↓inv_mk] | split

theorem startSweep_keeps {β : Bool} {κ : Base} {s : State} (c : Nat) (h : Inv β κ s) : Inv β κ (startSweep s c) := by
  unfold startSweep
  try dsimp only
  repeat' first | (with_reducible first | assumption | apply ite_keeps | apply onChain_keeps | apply sendEnumerate_keeps | apply onComps_keeps | apply sendReadAll_keeps | apply sendChain_keeps | apply Inv.core) | simp only [↓inv_mk] | split

theorem execStackSweep_keeps {β : Bool} {κ : Base} {s : State} (h : Inv β κ s) : Sat β κ (execStackSweep s) := by
  unfold execStackSweep
  try dsimp only
  repeat' first | (with_reducible first | assumption | apply ite_keeps | refine foldl_keeps ?_ fun _ _ _ => ?_ | apply next_keeps | apply startSweep_keeps) | simp only [↓reply_mk] | split

theorem takeSweep_keeps {β : Bool} {κ : Base} (k : Nat) (e : Bytes) {s : State} (h : Inv β κ s) : Inv β κ (takeSweep k e s) := by
  unfold takeSweep
  try dsimp only
  repeat' first | (with_reducible first | assumption | apply raiseIf_keeps | apply onComps_keeps | apply onString_keeps | apply Inv.core) | simp only [↓inv_mk] | split

theorem judgeString_keeps {β : Bool} {κ : Base} (c : Nat) {s : State} (k : Nat) (h : Inv β κ s) : Inv β κ (judgeString c s k)
      := by
  unfold judgeString
  try dsimp only
  repeat' first | (with_reducible first | assumption | apply ite_keeps | apply takeSweep_keeps | apply Inv.core) | simp only [↓inv_mk] | split

theorem finishSweep_keeps {β : Bool} {κ : Base} (c : Nat) {s : State} (h : Inv β κ s) : Inv β κ (finishSweep c s) := by
  unfold finishSweep
  try dsimp only
  repeat' first | (with_reducible first | assumption | apply ite_keeps | refine foldl_keeps ?_ fun _ _ _ => ?_ | apply onChain_keeps | apply raiseIf_keeps | apply onComps_keeps | apply settleService_keeps | apply judgeString_keeps | apply deliverStack_keeps | apply Inv.core) | simp only [↓inv_mk] | split

theorem takeSlot_keeps {β : Bool} {κ : Base} (c : Nat) {s : State} (x : Nat × Bytes) (h : Inv β κ s) : Inv β κ (takeSlot c s x)
      := by
  unfold takeSlot
  try dsimp only
  repeat' first | (with_reducible first | assumption | apply ite_keeps | apply onComp_keeps | apply raiseIf_keeps | apply Inv.core) | simp only [↓inv_mk] | split

theorem noteBlanks_keeps {β : Bool} {κ : Base} (c : Nat) (slots : List (Nat × Bytes)) {s : State} (h : Inv β κ s) : Inv β κ
      (noteBlanks c slots s) := by
  unfold noteBlanks
  try dsimp only
  repeat' first | (with_reducible first | assumption | apply ite_keeps | apply raise_keeps | apply onComps_keeps | apply onChain_keeps | apply Inv.core) | simp only [↓inv_mk] | split

theorem breakFound_keeps {β : Bool} {κ : Base} (c : Nat) (position : Nat) {s : State} (h : Inv β κ s) : Inv β κ (breakFound c
      position s) := by
  unfold breakFound
  try dsimp only
  repeat' first | (with_reducible first | assumption | apply ite_keeps | apply raise_keeps | apply record_keeps | apply onChain_keeps | apply Inv.core) | simp only [↓inv_mk] | split

theorem wholeAgain_keeps {β : Bool} {κ : Base} (c : Nat) {s : State} (h : Inv β κ s) : Inv β κ (wholeAgain c s) := by
  unfold wholeAgain
  try dsimp only
  repeat' first | (with_reducible first | assumption | apply ite_keeps | apply raise_keeps | apply onChain_keeps | apply Inv.core) | simp only [↓inv_mk] | split

theorem goPartial_keeps {β : Bool} {κ : Base} (c : Nat) {s : State} (h : Inv β κ s) : Inv β κ (goPartial c s) := by
  unfold goPartial
  try dsimp only
  repeat' first | (with_reducible first | assumption | refine foldl_keeps ?_ fun _ _ _ => ?_ | apply sendReadAll_keeps | apply raise_keeps | apply onChain_keeps | apply Inv.core) | simp only [↓inv_mk] | split

theorem endReread_keeps {β : Bool} {κ : Base} (c : Nat) {s : State} (h : Inv β κ s) : Inv β κ (endReread c s) := by
  unfold endReread
  repeat' first | (with_reducible first | assumption | apply finishSweep_keeps | apply breakFound_keeps) | split

theorem keepSlot_keeps {β : Bool} {κ : Base} (c : Nat) {s : State} (x : Nat × Bytes) (h : Inv β κ s) : Inv β κ (keepSlot c s x)
      := by
  unfold keepSlot
  try dsimp only
  repeat' first | (with_reducible first | assumption | apply ite_keeps | apply onComp_keeps | apply Inv.core) | simp only [↓inv_mk] | split

theorem execReadAllReturn_keeps {β : Bool} {κ : Base} (c : Nat) (atB : Bool) (frame : Bytes) {s : State} (h : Inv β κ s) : Sat
      β κ (execReadAllReturn c atB frame s) := by
  unfold execReadAllReturn
  try dsimp only
  repeat' first | (with_reducible first | assumption | apply ite_keeps | refine foldl_keeps ?_ fun _ _ _ => ?_ | apply next_keeps | apply keepSlot_keeps | apply takeSlot_keeps | apply endReread_keeps | apply finishSweep_keeps | apply noteBlanks_keeps | apply wholeAgain_keeps | apply goPartial_keeps | apply Inv.core) | simp only [↓inv_mk] | simp only [↓reply_mk] | split

theorem execReadAllTimeout_keeps {β : Bool} {κ : Base} (c : Nat) {s : State} (h : Inv β κ s) : Sat β κ (execReadAllTimeout c s)
      := by
  unfold execReadAllTimeout
  try dsimp only
  repeat' first | (with_reducible first | assumption | apply ite_keeps | apply next_keeps | apply goPartial_keeps | apply endReread_keeps | apply Inv.core) | simp only [↓inv_mk] | simp only [↓reply_mk] | split

theorem takeInfo_keeps {β : Bool} {κ : Base} (c : Nat) {s : State} (x : Companion) (h : Inv β κ s) : Inv β κ (takeInfo c s x)
      := by
  unfold takeInfo
  try dsimp only
  repeat' first | (with_reducible first | assumption | apply ite_keeps | apply onComp_keeps | apply sendChain_keeps | apply raiseIf_keeps | apply raise_keeps | apply record_keeps | apply Inv.core) | simp only [↓inv_mk] | split

theorem enumerated_keeps {β : Bool} {κ : Base} (c : Nat) (companions : List Companion) {s : State} (h : Inv β κ s) : Inv β κ
      (enumerated c companions s) := by
  unfold enumerated
  try dsimp only
  repeat' first | (with_reducible first | assumption | apply ite_keeps | refine foldl_keeps ?_ fun _ _ _ => ?_ | apply started_keeps | apply onChain_keeps | apply raise_keeps | apply onComps_keeps | apply sendConfig_keeps | apply takeInfo_keeps | apply Inv.core) | simp only [↓inv_mk] | split

theorem miscounted_keeps {β : Bool} {κ : Base} (c : Nat) (counter : Nat) {s : State} (h : Inv β κ s) : Inv β κ (miscounted c
      counter s) := by
  unfold miscounted
  try dsimp only
  repeat' first | (with_reducible first | assumption | apply ite_keeps | apply onChain_keeps | apply onComps_keeps | apply settleService_keeps | apply raise_keeps | apply record_keeps | apply Inv.core) | simp only [↓inv_mk] | split

theorem execEnumerateReturn_keeps {β : Bool} {κ : Base} (c : Nat) (counter : Nat) (turned : Bool) (companions : List Companion)
      {s : State} (h : Inv β κ s) : Sat β κ (execEnumerateReturn c counter turned companions s) := by
  unfold execEnumerateReturn
  try dsimp only
  repeat' first | (with_reducible first | assumption | apply ite_keeps | apply next_keeps | apply breakFound_keeps | apply onChain_keeps | apply enumerated_keeps | apply miscounted_keeps | apply Inv.core) | simp only [↓inv_mk] | simp only [↓reply_mk] | split

theorem execEnumerationRetry_keeps {β : Bool} {κ : Base} (c : Nat) {s : State} (h : Inv β κ s) : Sat β κ (execEnumerationRetry
      c s) := by
  unfold execEnumerationRetry
  try dsimp only
  repeat' first | (with_reducible first | assumption | apply ite_keeps | apply next_keeps | apply sendEnumerate_keeps) | simp only [↓reply_mk] | split

theorem balanceComp_keeps {β : Bool} {κ : Base} (k : Nat) (e : Bytes) {s : State} (i : Nat) (h : Inv β κ s) : Inv β κ
      (balanceComp k e s i) := by
  unfold balanceComp
  try dsimp only
  repeat' first | (with_reducible first | assumption | apply ite_keeps | apply raise_keeps | apply onComp_keeps | apply sendChain_keeps | apply Inv.core) | simp only [↓inv_mk] | split

theorem balanceString_keeps {β : Bool} {κ : Base} {s : State} (k : Nat) (h : Inv β κ s) : Inv β κ (balanceString s k) := by
  unfold balanceString
  try dsimp only
  repeat' first | (with_reducible first | assumption | apply ite_keeps | refine foldl_keeps ?_ fun _ _ _ => ?_ | apply balanceComp_keeps | apply Inv.core) | simp only [↓inv_mk] | split

theorem execBalanceCycle_keeps {β : Bool} {κ : Base} {s : State} (h : Inv β κ s) : Sat β κ (execBalanceCycle s) := by
  unfold execBalanceCycle
  repeat' first | (with_reducible first | assumption | apply ite_keeps | refine foldl_keeps ?_ fun _ _ _ => ?_ | apply next_keeps | apply balanceString_keeps) | simp only [↓reply_mk] | split

theorem startStack_keeps {β : Bool} {κ : Base} {s : State} (h : Inv β κ s) : Inv β κ (startStack s) := by
  unfold startStack
  try dsimp only
  repeat' first | (with_reducible first | assumption | apply ite_keeps | apply Inv.core) | simp only [↓inv_mk] | split

theorem integrateString_keeps {β : Bool} {κ : Base} {s : State} (k : Nat) (h : Inv β κ s) : Inv β κ (integrateString s k) := by
  unfold integrateString
  try dsimp only
  repeat' first | (with_reducible first | assumption | apply onString_keeps | apply Inv.core) | simp only [↓inv_mk] | split

theorem execStkGetStatus_keeps {β : Bool} {κ : Base} (r : Req) {s : State} (h : Inv β κ s) : Sat β κ (execStkGetStatus r s) := by
  unfold execStkGetStatus
  try dsimp only
  repeat' first | (with_reducible first | assumption | refine command_keeps ?_ fun _ _ => ?_ | apply next_keeps) | simp only [↓reply_mk] | split

theorem execStkGetCompanion_keeps {β : Bool} {κ : Base} (r : Req) (c : Nat) (p : Nat) {s : State} (h : Inv β κ s) : Sat β κ
      (execStkGetCompanion r c p s) := by
  unfold execStkGetCompanion
  try dsimp only
  repeat' first | (with_reducible first | assumption | apply ite_keeps | refine checked_keeps ?_ fun _ _ => ?_ | refine command_keeps ?_ fun _ _ => ?_ | apply next_keeps | apply Inv.core) | simp only [↓inv_mk] | simp only [↓reply_mk] | split

theorem execStkSetSoc_keeps {β : Bool} {κ : Base} (r : Req) (k : Nat) (soc : Nat) {s : State} (h : Inv β κ s) : Sat β κ
      (execStkSetSoc r k soc s) := by
  unfold execStkSetSoc
  try dsimp only
  repeat' first | (with_reducible first | assumption | refine checked_keeps ?_ fun _ _ => ?_ | refine command_keeps ?_ fun _ _ => ?_ | apply next_keeps | apply onString_keeps | apply Inv.core) | simp only [↓inv_mk] | simp only [↓reply_mk] | split

theorem execStkClearFault_keeps {β : Bool} {κ : Base} (r : Req) (c : Nat) (p : Nat) {s : State} (h : Inv β κ s) : Sat β κ
      (execStkClearFault r c p s) := by
  unfold execStkClearFault
  try dsimp only
  repeat' first | (with_reducible first | assumption | refine checked_keeps ?_ fun _ _ => ?_ | refine command_keeps ?_ fun _ _ => ?_ | apply next_keeps | apply sendChain_keeps) | simp only [↓reply_mk] | split

theorem putBurst_keeps {β : Bool} {κ : Base} (kind : Nat) (backoff : Nat) (b : Bytes) (symbols : List (List Point)) {s : State}
      (h : Inv β κ s) : Inv β κ (putBurst kind backoff b symbols s) := by
  unfold putBurst
  try dsimp only
  repeat' first | (with_reducible first | assumption | apply Inv.core) | simp only [↓inv_mk] | split

theorem putShort_keeps {β : Bool} {κ : Base} (kind : Nat) (words : Nat) (b : Bytes) {s : State} (h : Inv β κ s) : Inv β κ
      (putShort kind words b s) := by
  unfold putShort
  repeat' first | (with_reducible first | assumption | apply putBurst_keeps) | split

theorem sendClear_keeps {β : Bool} {κ : Base} (kind : Nat) (dst : Nat) (words : Nat) (text : Bytes) {s : State} (h : Inv β κ s)
      : Inv β κ (sendClear kind dst words text s) := by
  unfold sendClear
  try dsimp only
  repeat' first | (with_reducible first | assumption | apply putShort_keeps) | split

theorem sendSlot_keeps {β : Bool} {κ : Base} (kind : Nat) (dst : Nat) (words : Nat) (text : Bytes) {s : State} (h : Inv β κ s)
      : Inv β κ (sendSlot kind dst words text s) := by
  unfold sendSlot
  try dsimp only
  repeat' first | (with_reducible first | assumption | apply putShort_keeps) | split

theorem sendEth_keeps {β : Bool} {κ : Base} (kind : Nat) (dst : Nat) (text : Bytes) {s : State} (h : Inv β κ s) : Inv β κ
      (sendEth kind dst text s) := by
  unfold sendEth
  try dsimp only
  repeat' first | (with_reducible first | assumption | apply Inv.core) | simp only [↓inv_mk] | split

theorem onSpkLink_keeps {β : Bool} {κ : Base} (peer : Nat) (f : SpkLink → SpkLink) {s : State} (h : Inv β κ s) : Inv β κ
      (onSpkLink peer f s) := by
  unfold onSpkLink
  try dsimp only
  repeat' first | (with_reducible first | assumption | apply ite_keeps | apply Inv.core) | simp only [↓inv_mk] | split

theorem spkCount_keeps {β : Bool} {κ : Base} (peer : Nat) (i : Nat) (n : Nat) {s : State} (h : Inv β κ s) : Inv β κ (spkCount
      peer i n s) := by
  unfold spkCount
  try dsimp only
  repeat' first | (with_reducible first | assumption | apply onSpkLink_keeps | apply Inv.core) | simp only [↓inv_mk] | split

theorem queueFrame_keeps {β : Bool} {κ : Base} (peer : Nat) (prio : Nat) (type : Nat) (data : Bytes) {s : State} (h : Inv β κ
      s) : Inv β κ (queueFrame peer prio type data s) := by
  unfold queueFrame
  try dsimp only
  repeat' first | (with_reducible first | assumption | apply onSpkLink_keeps | apply Inv.core) | simp only [↓inv_mk] | split

theorem sendGrantsEth_keeps {β : Bool} {κ : Base} {s : State} (h : Inv β κ s) : Inv β κ (sendGrantsEth s) := by
  unfold sendGrantsEth
  repeat' first | (with_reducible first | assumption | apply sendEth_keeps) | split

theorem sendRequestsEth_keeps {β : Bool} {κ : Base} {s : State} (h : Inv β κ s) : Inv β κ (sendRequestsEth s) := by
  unfold sendRequestsEth
  repeat' first | (with_reducible first | assumption | apply sendEth_keeps) | split

theorem linkCount_keeps {β : Bool} {κ : Base} (slot : Nat) (i : Nat) {s : State} (h : Inv β κ s) : Inv β κ (linkCount slot i s)
      := by
  unfold linkCount
  try dsimp only
  repeat' first | (with_reducible first | assumption | apply onLink_keeps | apply Inv.core) | simp only [↓inv_mk] | split

theorem answer_keeps {β : Bool} {κ : Base} (slot : Nat) (a : VehicleAnswer) {s : State} (h : Inv β κ s) : Inv β κ (answer slot
      a s) := by
  unfold answer
  try dsimp only
  repeat' first | (with_reducible first | assumption | apply onLink_keeps | apply Inv.core) | simp only [↓inv_mk] | split

theorem linkUp_keeps {β : Bool} {κ : Base} (slot : Nat) {s : State} (h : Inv β κ s) : Inv β κ (linkUp slot s) := by
  unfold linkUp
  try dsimp only
  repeat' first | (with_reducible first | assumption | apply ite_keeps | apply raise_keeps | apply onLink_keeps | apply Inv.core) | simp only [↓inv_mk] | split

theorem linkDown_keeps {β : Bool} {κ : Base} (slot : Nat) {s : State} (h : Inv β κ s) : Inv β κ (linkDown slot s) := by
  unfold linkDown
  try dsimp only
  repeat' first | (with_reducible first | assumption | apply ite_keeps | apply raise_keeps | apply onLink_keeps | apply Inv.core) | simp only [↓inv_mk] | split

theorem slacEnd_keeps {β : Bool} {κ : Base} (slot : Nat) {s : State} (h : Inv β κ s) : Inv β κ (slacEnd slot s) := by
  unfold slacEnd
  try dsimp only
  repeat' first | (with_reducible first | assumption | apply ite_keeps | apply onLink_keeps | apply linkDown_keeps | apply raise_keeps | apply Inv.core) | simp only [↓inv_mk] | split

theorem settleMatch_keeps {β : Bool} {κ : Base} (slot : Nat) {s : State} (h : Inv β κ s) : Inv β κ (settleMatch slot s) := by
  unfold settleMatch
  try dsimp only
  repeat' first | (with_reducible first | assumption | apply ite_keeps | apply slacEnd_keeps) | split

theorem linkFault_keeps {β : Bool} {κ : Base} (slot : Nat) {s : State} (h : Inv β κ s) : Inv β κ (linkFault slot s) := by
  unfold linkFault
  try dsimp only
  repeat' first | (with_reducible first | assumption | apply raise_keeps | apply onLink_keeps | apply Inv.core) | simp only [↓inv_mk] | split

theorem confirmPilot_keeps {β : Bool} {κ : Base} (slot : Nat) (v : Nat) {s : State} (h : Inv β κ s) : Inv β κ (confirmPilot
      slot v s) := by
  unfold confirmPilot
  try dsimp only
  repeat' first | (with_reducible first | assumption | apply ite_keeps | apply raise_keeps | apply onLink_keeps | apply settleMatch_keeps | apply linkFault_keeps | apply Inv.core) | simp only [↓inv_mk] | split

theorem settlePilot_keeps {β : Bool} {κ : Base} (slot : Nat) {s : State} (h : Inv β κ s) : Inv β κ (settlePilot slot s) := by
  unfold settlePilot
  repeat' first | (with_reducible first | assumption | apply ite_keeps | apply confirmPilot_keeps) | split

theorem confirmProx_keeps {β : Bool} {κ : Base} (slot : Nat) (c : Nat) {s : State} (h : Inv β κ s) : Inv β κ (confirmProx slot
      c s) := by
  unfold confirmProx
  try dsimp only
  repeat' first | (with_reducible first | assumption | apply ite_keeps | apply raise_keeps | apply onLink_keeps | apply linkCount_keeps | apply linkFault_keeps | apply linkDown_keeps | apply Inv.core) | simp only [↓inv_mk] | split

theorem settleProx_keeps {β : Bool} {κ : Base} (slot : Nat) {s : State} (h : Inv β κ s) : Inv β κ (settleProx slot s) := by
  unfold settleProx
  repeat' first | (with_reducible first | assumption | apply ite_keeps | apply confirmProx_keeps) | split

theorem sampleProx_keeps {β : Bool} {κ : Base} (slot : Nat) (pps : Nat) {s : State} (h : Inv β κ s) : Inv β κ (sampleProx slot
      pps s) := by
  unfold sampleProx
  try dsimp only
  repeat' first | (with_reducible first | assumption | apply settleProx_keeps | apply onLink_keeps | apply Inv.core) | simp only [↓inv_mk] | split

theorem nextDrive_keeps {β : Bool} {κ : Base} (slot : Nat) {s : State} (h : Inv β κ s) : Inv β κ (nextDrive slot s) := by
  unfold nextDrive
  try dsimp only
  repeat' first | (with_reducible first | assumption | apply settleMatch_keeps | apply onLink_keeps | apply Inv.core) | simp only [↓inv_mk] | split

theorem takeRaw_keeps {β : Bool} {κ : Base} (slot : Nat) (raw : Nat) {s : State} (h : Inv β κ s) : Inv β κ (takeRaw slot raw s)
      := by
  unfold takeRaw
  try dsimp only
  repeat' first | (with_reducible first | assumption | apply settlePilot_keeps | apply onLink_keeps | apply Inv.core) | simp only [↓inv_mk] | split

theorem samplePilot_keeps {β : Bool} {κ : Base} (slot : Nat) (vPlus : Int) (vMinus : Int) {s : State} (h : Inv β κ s) : Inv β κ
      (samplePilot slot vPlus vMinus s) := by
  unfold samplePilot
  try dsimp only
  repeat' first | (with_reducible first | assumption | apply ite_keeps | apply onLink_keeps | apply settleMatch_keeps | apply takeRaw_keeps | apply linkCount_keeps | apply Inv.core) | simp only [↓inv_mk] | split

theorem countSlacInit_keeps {β : Bool} {κ : Base} (slot : Nat) {s : State} (h : Inv β κ s) : Inv β κ (countSlacInit slot s) := by
  unfold countSlacInit
  try dsimp only
  repeat' first | (with_reducible first | assumption | apply ite_keeps | apply raiseIf_keeps | apply onLink_keeps | apply Inv.core) | simp only [↓inv_mk] | split

theorem execPilotPeriodEnd_keeps {β : Bool} {κ : Base} (slot : Nat) (vPlus : Int) (vMinus : Int) (pps : Nat) {s : State} (h :
      Inv β κ s) : Sat β κ (execPilotPeriodEnd slot vPlus vMinus pps s) := by
  unfold execPilotPeriodEnd
  repeat' first | (with_reducible first | assumption | apply ite_keeps | apply next_keeps | apply nextDrive_keeps | apply takeRaw_keeps | apply countSlacInit_keeps | apply samplePilot_keeps | apply sampleProx_keeps) | simp only [↓reply_mk] | split

theorem execPilotStateConfirmed_keeps {β : Bool} {κ : Base} (slot : Nat) {s : State} (h : Inv β κ s) : Sat β κ
      (execPilotStateConfirmed slot s) := by
  unfold execPilotStateConfirmed
  repeat' first | (with_reducible first | assumption | apply ite_keeps | apply next_keeps | apply settlePilot_keeps) | simp only [↓reply_mk] | split

theorem execProximityClassConfirmed_keeps {β : Bool} {κ : Base} (slot : Nat) {s : State} (h : Inv β κ s) : Sat β κ
      (execProximityClassConfirmed slot s) := by
  unfold execProximityClassConfirmed
  repeat' first | (with_reducible first | assumption | apply ite_keeps | apply next_keeps | apply settleProx_keeps) | simp only [↓reply_mk] | split

theorem execOutletCCodeConfirmed_keeps {β : Bool} {κ : Base} {s : State} (h : Inv β κ s) : Sat β κ (execOutletCCodeConfirmed s)
      := by
  unfold execOutletCCodeConfirmed
  repeat' first | (with_reducible first | assumption | apply ite_keeps | apply next_keeps | apply settlePilot_keeps) | simp only [↓reply_mk] | split

theorem execCmSlacParamReq_keeps {β : Bool} {κ : Base} (slot : Nat) (mac : Bytes) (runId : Bytes) {s : State} (h : Inv β κ s) :
      Sat β κ (execCmSlacParamReq slot mac runId s) := by
  unfold execCmSlacParamReq
  try dsimp only
  repeat' first | (with_reducible first | assumption | apply ite_keeps | apply next_keeps | apply linkCount_keeps | apply answer_keeps | apply onLink_keeps | apply Inv.core) | simp only [↓inv_mk] | simp only [↓reply_mk] | split

theorem execSlacSoundsReceived_keeps {β : Bool} {κ : Base} (slot : Nat) (runId : Bytes) (sounds : List (List Nat)) {s : State}
      (h : Inv β κ s) : Sat β κ (execSlacSoundsReceived slot runId sounds s) := by
  unfold execSlacSoundsReceived
  try dsimp only
  repeat' first | (with_reducible first | assumption | apply ite_keeps | apply next_keeps | apply answer_keeps | apply onLink_keeps | apply linkCount_keeps | apply Inv.core) | simp only [↓inv_mk] | simp only [↓reply_mk] | split

theorem execCmValidate_keeps {β : Bool} {κ : Base} (slot : Nat) {s : State} (h : Inv β κ s) : Sat β κ (execCmValidate slot s)
      := by
  unfold execCmValidate
  repeat' first | (with_reducible first | assumption | apply ite_keeps | apply next_keeps | apply answer_keeps | apply linkCount_keeps) | simp only [↓reply_mk] | split

theorem execCmSlacMatchReq_keeps {β : Bool} {κ : Base} (slot : Nat) (mac : Bytes) (runId : Bytes) {s : State} (h : Inv β κ s) :
      Sat β κ (execCmSlacMatchReq slot mac runId s) := by
  unfold execCmSlacMatchReq
  try dsimp only
  repeat' first | (with_reducible first | assumption | apply ite_keeps | apply next_keeps | apply linkCount_keeps | apply linkUp_keeps | apply answer_keeps | apply raise_keeps | apply onLink_keeps | apply drawn_keeps | apply record_keeps | apply Inv.core) | simp only [↓inv_mk] | simp only [↓reply_mk] | split

theorem execSlacTimerExpiry_keeps {β : Bool} {κ : Base} (slot : Nat) {s : State} (h : Inv β κ s) : Sat β κ (execSlacTimerExpiry
      slot s) := by
  unfold execSlacTimerExpiry
  repeat' first | (with_reducible first | assumption | apply ite_keeps | apply next_keeps | apply raise_keeps) | simp only [↓reply_mk] | split

theorem execT1sFrameReceived_keeps {β : Bool} {κ : Base} (slot : Nat) (event : T1sEvent) {s : State} (h : Inv β κ s) : Sat β κ
      (execT1sFrameReceived slot event s) := by
  unfold execT1sFrameReceived
  try dsimp only
  repeat' first | (with_reducible first | assumption | apply ite_keeps | apply next_keeps | apply linkUp_keeps | apply linkCount_keeps | apply onLink_keeps | apply linkFault_keeps | apply Inv.core) | simp only [↓inv_mk] | simp only [↓reply_mk] | split

theorem execT1sLinkTimeout_keeps {β : Bool} {κ : Base} (slot : Nat) {s : State} (h : Inv β κ s) : Sat β κ (execT1sLinkTimeout
      slot s) := by
  unfold execT1sLinkTimeout
  repeat' first | (with_reducible first | assumption | apply ite_keeps | apply next_keeps | apply linkDown_keeps) | simp only [↓reply_mk] | split

theorem execBridgeGpioChange_keeps {β : Bool} {κ : Base} (gpio : Nat) (level : Bool) {s : State} (h : Inv β κ s) : Sat β κ
      (execBridgeGpioChange gpio level s) := by
  unfold execBridgeGpioChange
  try dsimp only
  repeat' first | (with_reducible first | assumption | apply ite_keeps | refine foldl_keeps ?_ fun _ _ _ => ?_ | apply next_keeps | apply raiseIf_keeps | apply linkUp_keeps | apply linkDown_keeps | apply Inv.core) | simp only [↓inv_mk] | simp only [↓reply_mk] | split

theorem execOutGetLink_keeps {β : Bool} {κ : Base} (r : Req) (slot : Nat) {s : State} (h : Inv β κ s) : Sat β κ (execOutGetLink
      r slot s) := by
  unfold execOutGetLink
  try dsimp only
  repeat' first | (with_reducible first | assumption | refine checked_keeps ?_ fun _ _ => ?_ | refine command_keeps ?_ fun _ _ => ?_ | apply next_keeps) | simp only [↓reply_mk] | split

theorem execOutGetLinkStats_keeps {β : Bool} {κ : Base} (r : Req) (slot : Nat) {s : State} (h : Inv β κ s) : Sat β κ
      (execOutGetLinkStats r slot s) := by
  unfold execOutGetLinkStats
  try dsimp only
  repeat' first | (with_reducible first | assumption | refine checked_keeps ?_ fun _ _ => ?_ | refine command_keeps ?_ fun _ _ => ?_ | apply next_keeps) | simp only [↓reply_mk] | split

theorem execOutClearLinkStats_keeps {β : Bool} {κ : Base} (r : Req) (slot : Nat) {s : State} (h : Inv β κ s) : Sat β κ
      (execOutClearLinkStats r slot s) := by
  unfold execOutClearLinkStats
  try dsimp only
  repeat' first | (with_reducible first | assumption | refine checked_keeps ?_ fun _ _ => ?_ | refine command_keeps ?_ fun _ _ => ?_ | apply next_keeps | apply onLink_keeps | apply Inv.core) | simp only [↓inv_mk] | simp only [↓reply_mk] | split

theorem execOutSetPilotTest_keeps {β : Bool} {κ : Base} (r : Req) (slot : Nat) (drive : Nat) {s : State} (h : Inv β κ s) : Sat
      β κ (execOutSetPilotTest r slot drive s) := by
  unfold execOutSetPilotTest
  try dsimp only
  repeat' first | (with_reducible first | assumption | apply ite_keeps | refine checked_keeps ?_ fun _ _ => ?_ | refine command_keeps ?_ fun _ _ => ?_ | apply next_keeps | apply onLink_keeps | apply Inv.core) | simp only [↓inv_mk] | simp only [↓reply_mk] | split

theorem recordRing_keeps {β : Bool} {κ : Base} (what : Nat) {s : State} (h : Inv β κ s) : Inv β κ (recordRing what s) := by
  unfold recordRing
  repeat' first | (with_reducible first | assumption | apply record_keeps) | split

theorem putRecord_keeps {β : Bool} {κ : Base} (r : MRec) {s : State} (h : Inv β κ s) : Inv β κ (putRecord r s) := by
  unfold putRecord
  try dsimp only
  repeat' first | (with_reducible first | assumption | apply ite_keeps | apply raise_keeps | apply recordRing_keeps | apply meterCommit_keeps | apply Inv.core) | simp only [↓inv_mk] | split

theorem mergeRing_keeps {β : Bool} {κ : Base} {s t : State} (h : Inv β κ s) (e : mergeRing s = some t) : Inv β κ t := by
  unfold mergeRing at e
  split at e
  · exact nomatch e
  · cases e; exact recordRing_keeps _ (by simp only [↓inv_mk]; exact h.core)

theorem putSession_keeps {β : Bool} {κ : Base} (r : MRec) {s : State} (h : Inv β κ s) : Inv β κ (putSession r s) := by
  unfold putSession
  refine ite_keeps (putRecord_keeps _ h) ?_
  split
  · exact putRecord_keeps _ (mergeRing_keeps h ‹_›)
  · exact enterKick_keeps _ (by simp only [↓inv_mk]; exact h.core)

theorem putWaiting_keeps {β : Bool} {κ : Base} {s : State} (h : Inv β κ s) : Inv β κ (putWaiting s) := by
  unfold putWaiting
  try dsimp only
  repeat' first | (with_reducible first | assumption | refine foldl_keeps ?_ fun _ _ _ => ?_ | apply putSession_keeps | apply Inv.core) | simp only [↓inv_mk] | split

theorem openSessionRec_keeps {β : Bool} {κ : Base} (slot : Nat) {s : State} (h : Inv β κ s) : Inv β κ (openSessionRec slot s)
      := by
  unfold openSessionRec
  try dsimp only
  repeat' first | (with_reducible first | assumption | apply ite_keeps | apply Inv.core) | simp only [↓inv_mk] | split

theorem closeSessionRec_keeps {β : Bool} {κ : Base} (slot : Nat) {s : State} (h : Inv β κ s) : Inv β κ (closeSessionRec slot s)
      := by
  unfold closeSessionRec
  try dsimp only
  repeat' first | (with_reducible first | assumption | apply putSession_keeps | apply Inv.core) | simp only [↓inv_mk] | split

theorem startInterval_keeps {β : Bool} {κ : Base} (p : Nat) (flags : Nat) {s : State} (h : Inv β κ s) : Inv β κ (startInterval
      p flags s) := by
  unfold startInterval
  try dsimp only
  repeat' first | (with_reducible first | assumption | apply ite_keeps | apply onPoint_keeps | apply Inv.core) | simp only [↓inv_mk] | split

theorem closeInterval_keeps {β : Bool} {κ : Base} (p : Nat) (extra : Nat) (after : Nat) {s : State} (h : Inv β κ s) : Inv β κ
      (closeInterval p extra after s) := by
  unfold closeInterval
  try dsimp only
  repeat' first | (with_reducible first | assumption | apply ite_keeps | apply startInterval_keeps | apply putRecord_keeps | apply onPoint_keeps | apply Inv.core) | simp only [↓inv_mk] | split

theorem settleIntervals_keeps {β : Bool} {κ : Base} {s : State} (h : Inv β κ s) : Inv β κ (settleIntervals s) := by
  unfold settleIntervals
  try dsimp only
  repeat' first | (with_reducible first | assumption | apply ite_keeps | refine foldl_keeps ?_ fun _ _ _ => ?_ | apply closeInterval_keeps) | split

theorem execIntervalClose_keeps {β : Bool} {κ : Base} (point : Nat) {s : State} (h : Inv β κ s) : Sat β κ (execIntervalClose
      point s) := by
  unfold execIntervalClose
  repeat' first | (with_reducible first | assumption | apply ite_keeps | apply next_keeps | apply closeInterval_keeps) | simp only [↓reply_mk] | split

theorem wallQuality_keeps {β : Bool} {κ : Base} (good : Bool) {s : State} (h : Inv β κ s) : Inv β κ (wallQuality good s) := by
  unfold wallQuality
  try dsimp only
  repeat' first | (with_reducible first | assumption | apply ite_keeps | apply raise_keeps | apply record_keeps | apply Inv.core) | simp only [↓inv_mk] | split

theorem stepWall_keeps {β : Bool} {κ : Base} {s : State} (h : Inv β κ s) : Inv β κ (stepWall s) := by
  unfold stepWall
  try dsimp only
  repeat' first | (with_reducible first | assumption | apply ite_keeps | refine foldl_keeps ?_ fun _ _ _ => ?_ | apply onPoint_keeps | apply putRecord_keeps | apply wallQuality_keeps | apply startInterval_keeps | apply raise_keeps | apply recordLegal_keeps | apply Inv.core) | simp only [↓inv_mk] | split

theorem execWallTimeStepEffect_keeps {β : Bool} {κ : Base} {s : State} (h : Inv β κ s) : Sat β κ (execWallTimeStepEffect s) := by
  unfold execWallTimeStepEffect
  repeat' first | (with_reducible first | assumption | apply ite_keeps | apply next_keeps | apply stepWall_keeps) | simp only [↓reply_mk] | split

theorem command2_keeps {β : Bool} {κ : Base} (slot : Nat) (pos : Bool) (neg : Bool) {s : State} (h : Inv β κ s) : Inv β κ
      (command2 slot pos neg s) := by
  unfold command2
  try dsimp only
  repeat' first | (with_reducible first | assumption | apply onSes_keeps | apply requestPair_keeps | apply Inv.core) | simp only [↓inv_mk] | split

theorem driveWant_keeps {β : Bool} {κ : Base} (slot : Nat) {s : State} (h : Inv β κ s) : Inv β κ (driveWant slot s) := by
  unfold driveWant
  try dsimp only
  repeat' first | (with_reducible first | assumption | apply ite_keeps | apply command2_keeps | apply Inv.core) | simp only [↓inv_mk] | split

theorem wantContacts_keeps {β : Bool} {κ : Base} (slot : Nat) (pos : Bool) (neg : Bool) {s : State} (h : Inv β κ s) : Inv β κ
      (wantContacts slot pos neg s) := by
  unfold wantContacts
  try dsimp only
  repeat' first | (with_reducible first | assumption | apply ite_keeps | apply onSes_keeps | apply driveWant_keeps | apply Inv.core) | simp only [↓inv_mk] | split

theorem toEnded_keeps {β : Bool} {κ : Base} (slot : Nat) {s : State} (h : Inv β κ s) : Inv β κ (toEnded slot s) := by
  unfold toEnded
  try dsimp only
  repeat' first | (with_reducible first | assumption | apply raise_keeps | apply onLink_keeps | apply onSes_keeps | apply Inv.core) | simp only [↓inv_mk] | split

theorem deferCheck_keeps {β : Bool} {κ : Base} (slot : Nat) {s : State} (h : Inv β κ s) : Inv β κ (deferCheck slot s) := by
  unfold deferCheck
  try dsimp only
  repeat' first | (with_reducible first | assumption | refine checked_keeps ?_ fun _ _ => ?_ | apply raise_keeps | apply Inv.core) | simp only [↓inv_mk] | split

theorem stopped_keeps {β : Bool} {κ : Base} (slot : Nat) {s : State} (h : Inv β κ s) : Inv β κ (stopped slot s) := by
  unfold stopped
  try dsimp only
  repeat' first | (with_reducible first | assumption | apply ite_keeps | apply closeSessionRec_keeps | apply toEnded_keeps | apply deferCheck_keeps | apply wantContacts_keeps | apply onSes_keeps | apply Inv.core) | simp only [↓inv_mk] | split

theorem settleStopped_keeps {β : Bool} {κ : Base} (slot : Nat) {s : State} (h : Inv β κ s) : Inv β κ (settleStopped slot s) := by
  unfold settleStopped
  repeat' first | (with_reducible first | assumption | apply ite_keeps | apply stopped_keeps) | split

theorem openAtOnce_keeps {β : Bool} {κ : Base} (slot : Nat) {s : State} (h : Inv β κ s) : Inv β κ (openAtOnce slot s) := by
  unfold openAtOnce
  try dsimp only
  repeat' first | (with_reducible first | assumption | apply ite_keeps | apply command2_keeps | apply onSes_keeps | apply Inv.core) | simp only [↓inv_mk] | split

theorem openInWindow_keeps {β : Bool} {κ : Base} (slot : Nat) {s : State} (h : Inv β κ s) : Inv β κ (openInWindow slot s) := by
  unfold openInWindow
  try dsimp only
  repeat' first | (with_reducible first | assumption | apply ite_keeps | apply wantContacts_keeps | apply onSes_keeps | apply Inv.core) | simp only [↓inv_mk] | split

theorem forcedOpen_keeps {β : Bool} {κ : Base} (slot : Nat) {s : State} (h : Inv β κ s) : Inv β κ (forcedOpen slot s) := by
  unfold forcedOpen
  try dsimp only
  repeat' first | (with_reducible first | assumption | apply raise_keeps | apply record_keeps | apply onSes_keeps | apply Inv.core) | simp only [↓inv_mk] | split

theorem settleOpen_keeps {β : Bool} {κ : Base} (slot : Nat) {s : State} (h : Inv β κ s) : Inv β κ (settleOpen slot s) := by
  unfold settleOpen
  try dsimp only
  repeat' first | (with_reducible first | assumption | apply ite_keeps | apply openInWindow_keeps | apply openAtOnce_keeps | apply Inv.core) | simp only [↓inv_mk] | split

theorem notify_keeps {β : Bool} {κ : Base} (slot : Nat) (code : Nat) {s : State} (h : Inv β κ s) : Inv β κ (notify slot code s)
      := by
  unfold notify
  try dsimp only
  repeat' first | (with_reducible first | assumption | apply onSes_keeps | apply Inv.core) | simp only [↓inv_mk] | split

theorem endEarly_keeps {β : Bool} {κ : Base} (slot : Nat) (code : Nat) {s : State} (h : Inv β κ s) : Inv β κ (endEarly slot
      code s) := by
  unfold endEarly
  repeat' first | (with_reducible first | assumption | apply toEnded_keeps | apply raise_keeps | apply notify_keeps | apply onSes_keeps) | split

theorem beginStop_keeps {β : Bool} {κ : Base} (slot : Nat) (code : Nat) {s : State} (h : Inv β κ s) : Inv β κ (beginStop slot
      code s) := by
  unfold beginStop
  try dsimp only
  repeat' first | (with_reducible first | assumption | apply ite_keeps | apply raise_keeps | apply notify_keeps | apply onSes_keeps | apply settleStopped_keeps | apply settleOpen_keeps | apply Inv.core) | simp only [↓inv_mk] | split

theorem noteCause_keeps {β : Bool} {κ : Base} (slot : Nat) (code : Nat) {s : State} (h : Inv β κ s) : Inv β κ (noteCause slot
      code s) := by
  unfold noteCause
  try dsimp only
  repeat' first | (with_reducible first | assumption | apply record_keeps | apply onSes_keeps | apply Inv.core) | simp only [↓inv_mk] | split

theorem endCause_keeps {β : Bool} {κ : Base} (slot : Nat) (code : Nat) {s : State} (h : Inv β κ s) : Inv β κ (endCause slot
      code s) := by
  unfold endCause
  try dsimp only
  repeat' first | (with_reducible first | assumption | apply ite_keeps | apply endEarly_keeps | apply beginStop_keeps | apply noteCause_keeps | apply onSes_keeps | apply settleStopped_keeps | apply Inv.core) | simp only [↓inv_mk] | split

theorem endCauses_keeps {β : Bool} {κ : Base} (slot : Nat) (causes : List Nat) {s : State} (h : Inv β κ s) : Inv β κ (endCauses
      slot causes s) := by
  unfold endCauses
  try dsimp only
  repeat' first | (with_reducible first | assumption | refine foldl_keeps ?_ fun _ _ _ => ?_ | apply endCause_keeps) | split

theorem startWeld_keeps {β : Bool} {κ : Base} (slot : Nat) {s : State} (h : Inv β κ s) : Inv β κ (startWeld slot s) := by
  unfold startWeld
  try dsimp only
  repeat' first | (with_reducible first | assumption | apply wantContacts_keeps | apply onSes_keeps | apply Inv.core) | simp only [↓inv_mk] | split

theorem weldFound_keeps {β : Bool} {κ : Base} (slot : Nat) (which : Nat) {s : State} (h : Inv β κ s) : Inv β κ (weldFound slot
      which s) := by
  unfold weldFound
  try dsimp only
  repeat' first | (with_reducible first | assumption | apply ite_keeps | apply onSes_keeps | apply raise_keeps | apply notify_keeps | apply openAtOnce_keeps | apply onLink_keeps | apply Inv.core) | simp only [↓inv_mk] | split

theorem weldPassed_keeps {β : Bool} {κ : Base} (slot : Nat) {s : State} (h : Inv β κ s) : Inv β κ (weldPassed slot s) := by
  unfold weldPassed
  try dsimp only
  repeat' first | (with_reducible first | assumption | apply ite_keeps | refine checked_keeps ?_ fun _ _ => ?_ | apply onSes_keeps | apply wantContacts_keeps | apply openInWindow_keeps | apply Inv.core) | simp only [↓inv_mk] | split

theorem weldRead_keeps {β : Bool} {κ : Base} (slot : Nat) {s : State} (h : Inv β κ s) : Inv β κ (weldRead slot s) := by
  unfold weldRead
  try dsimp only
  repeat' first | (with_reducible first | assumption | apply ite_keeps | apply onSes_keeps | apply wantContacts_keeps | apply weldFound_keeps | apply weldPassed_keeps | apply Inv.core) | simp only [↓inv_mk] | split

theorem contactConfirmed_keeps {β : Bool} {κ : Base} (slot : Nat) {s : State} (h : Inv β κ s) : Inv β κ (contactConfirmed slot
      s) := by
  unfold contactConfirmed
  try dsimp only
  repeat' first | (with_reducible first | assumption | apply ite_keeps | apply onSes_keeps | apply openSessionRec_keeps | apply settleStopped_keeps | apply toEnded_keeps | apply Inv.core) | simp only [↓inv_mk] | split

theorem sendRequest_keeps {β : Bool} {κ : Base} (slot : Nat) {s : State} (h : Inv β κ s) : Inv β κ (sendRequest slot s) := by
  unfold sendRequest
  try dsimp only
  repeat' first | (with_reducible first | assumption | apply ite_keeps | apply onSes_keeps | apply deliverRequest_keeps | apply queueFrame_keeps | apply sendRequestsEth_keeps | apply Inv.core) | simp only [↓inv_mk] | split

theorem raiseReneg_keeps {β : Bool} {κ : Base} (slot : Nat) {s : State} (h : Inv β κ s) : Inv β κ (raiseReneg slot s) := by
  unfold raiseReneg
  try dsimp only
  repeat' first | (with_reducible first | assumption | apply raise_keeps | apply onSes_keeps | apply Inv.core) | simp only [↓inv_mk] | split

theorem takeGrant_keeps {β : Bool} {κ : Base} (slot : Nat) (b : Bytes) {s : State} (h : Inv β κ s) : Inv β κ (takeGrant slot b
      s) := by
  unfold takeGrant
  try dsimp only
  repeat' first | (with_reducible first | assumption | apply ite_keeps | apply onSes_keeps | apply raise_keeps | apply goneKick_keeps | apply raiseReneg_keeps | apply Inv.core) | simp only [↓inv_mk] | split

theorem receiveGrant_keeps {β : Bool} {κ : Base} (b : Bytes) {s : State} (h : Inv β κ s) : Inv β κ (receiveGrant b s) := by
  unfold receiveGrant
  try dsimp only
  repeat' first | (with_reducible first | assumption | apply ite_keeps | apply takeGrant_keeps | apply Inv.core) | simp only [↓inv_mk] | split

theorem losePost_keeps {β : Bool} {κ : Base} (post : Nat) {s : State} (h : Inv β κ s) : Inv β κ (losePost post s) := by
  unfold losePost
  try dsimp only
  repeat' first | (with_reducible first | assumption | apply ite_keeps | refine foldl_keeps ?_ fun _ _ _ => ?_ | apply onOut_keeps | apply Inv.core) | simp only [↓inv_mk] | split

theorem dropNode_keeps {β : Bool} {κ : Base} (node : Nat) (state : Nat) {s : State} (h : Inv β κ s) : Inv β κ (dropNode node
      state s) := by
  unfold dropNode
  try dsimp only
  repeat' first | (with_reducible first | assumption | apply ite_keeps | apply raise_keeps | apply Inv.core) | simp only [↓inv_mk] | split

theorem settleNode_keeps {β : Bool} {κ : Base} (node : Nat) {s : State} (h : Inv β κ s) : Inv β κ (settleNode node s) := by
  unfold settleNode
  try dsimp only
  repeat' first | (with_reducible first | assumption | apply ite_keeps | apply dropNode_keeps) | split

theorem settlePost_keeps {β : Bool} {κ : Base} (post : Nat) {s : State} (h : Inv β κ s) : Inv β κ (settlePost post s) := by
  unfold settlePost
  try dsimp only
  repeat' first | (with_reducible first | assumption | apply ite_keeps | apply losePost_keeps) | split

theorem countNodes_keeps {β : Bool} {κ : Base} {s : State} (h : Inv β κ s) : Inv β κ (countNodes s) := by
  unfold countNodes
  try dsimp only
  repeat' first | (with_reducible first | assumption | apply Inv.core) | simp only [↓inv_mk] | split

theorem settleNodes_keeps {β : Bool} {κ : Base} {s : State} (h : Inv β κ s) : Inv β κ (settleNodes s) := by
  unfold settleNodes
  try dsimp only
  repeat' first | (with_reducible first | assumption | apply ite_keeps | refine foldl_keeps ?_ fun _ _ _ => ?_ | apply settlePost_keeps | apply settleNode_keeps | apply spkCount_keeps) | split

theorem ageNodes_keeps {β : Bool} {κ : Base} {s : State} (h : Inv β κ s) : Inv β κ (ageNodes s) := by
  unfold ageNodes
  try dsimp only
  repeat' first | (with_reducible first | assumption | apply settleNodes_keeps | apply countNodes_keeps | apply Inv.core) | simp only [↓inv_mk] | split

theorem execNodeSilent_keeps {β : Bool} {κ : Base} (node : Nat) {s : State} (h : Inv β κ s) : Sat β κ (execNodeSilent node s)
      := by
  unfold execNodeSilent
  repeat' first | (with_reducible first | assumption | apply ite_keeps | apply next_keeps | apply settleNode_keeps) | simp only [↓reply_mk] | split

theorem execPostLost_keeps {β : Bool} {κ : Base} (post : Nat) {s : State} (h : Inv β κ s) : Sat β κ (execPostLost post s) := by
  unfold execPostLost
  repeat' first | (with_reducible first | assumption | apply ite_keeps | apply next_keeps | apply settlePost_keeps) | simp only [↓reply_mk] | split

theorem admitNode_keeps {β : Bool} {κ : Base} (n : Node) {s : State} (h : Inv β κ s) : Inv β κ (admitNode n s) := by
  unfold admitNode
  try dsimp only
  repeat' first | (with_reducible first | assumption | apply ite_keeps | refine foldl_keeps ?_ fun _ _ _ => ?_ | apply raise_keeps | apply onOut_keeps | apply Inv.core) | simp only [↓inv_mk] | split

theorem listAnswer_keeps {β : Bool} {κ : Base} (a : Bytes × Nat × Nat) {s : State} (h : Inv β κ s) : Inv β κ (listAnswer a s)
      := by
  unfold listAnswer
  try dsimp only
  repeat' first | (with_reducible first | assumption | apply ite_keeps | apply Inv.core) | simp only [↓inv_mk] | split

theorem decideJoin_keeps {β : Bool} {κ : Base} (all : List JoinReq) {s : State} (r : JoinReq) (h : Inv β κ s) : Inv β κ
      (decideJoin all s r) := by
  unfold decideJoin
  try dsimp only
  repeat' first | (with_reducible first | assumption | apply ite_keeps | apply admitNode_keeps | apply raise_keeps | apply recordIf_keeps | apply listAnswer_keeps | apply queueFrame_keeps) | split

theorem takeJoin_keeps {β : Bool} {κ : Base} {s : State} (r : JoinReq) (h : Inv β κ s) : Inv β κ (takeJoin s r) := by
  unfold takeJoin
  try dsimp only
  repeat' first | (with_reducible first | assumption | apply ite_keeps | apply Inv.core) | simp only [↓inv_mk] | split

theorem decideJoins_keeps {β : Bool} {κ : Base} {s : State} (h : Inv β κ s) : Inv β κ (decideJoins s) := by
  unfold decideJoins
  try dsimp only
  repeat' first | (with_reducible first | assumption | apply ite_keeps | refine foldl_keeps ?_ fun _ _ _ => ?_ | apply decideJoin_keeps | apply Inv.core) | simp only [↓inv_mk] | split

theorem execJoinRequest_keeps {β : Bool} {κ : Base} (requests : List JoinReq) {s : State} (h : Inv β κ s) : Sat β κ
      (execJoinRequest requests s) := by
  unfold execJoinRequest
  repeat' first | (with_reducible first | assumption | apply ite_keeps | refine foldl_keeps ?_ fun _ _ _ => ?_ | apply next_keeps | apply decideJoins_keeps | apply takeJoin_keeps) | simp only [↓reply_mk] | split

theorem takeDecision_keeps {β : Bool} {κ : Base} (src : Nat) {s : State} (d : Bytes × Nat × Nat × Nat) (h : Inv β κ s) : Inv β
      κ (takeDecision src s d) := by
  unfold takeDecision
  try dsimp only
  repeat' first | (with_reducible first | assumption | apply ite_keeps | apply raise_keeps | apply listAnswer_keeps | apply Inv.core) | simp only [↓inv_mk] | split

theorem execJoinDecision_keeps {β : Bool} {κ : Base} (hub : Nat) (decisions : List (Bytes × Nat × Nat × Nat)) {s : State} (h :
      Inv β κ s) : Sat β κ (execJoinDecision hub decisions s) := by
  unfold execJoinDecision
  repeat' first | (with_reducible first | assumption | apply ite_keeps | refine foldl_keeps ?_ fun _ _ _ => ?_ | apply next_keeps | apply takeDecision_keeps) | simp only [↓reply_mk] | split

theorem takeNotice_keeps {β : Bool} {κ : Base} (post : Nat) {s : State} (h : Inv β κ s) : Inv β κ (takeNotice post s) := by
  unfold takeNotice
  try dsimp only
  repeat' first | (with_reducible first | assumption | apply ite_keeps | apply raise_keeps | apply losePost_keeps | apply Inv.core) | simp only [↓inv_mk] | split

theorem execPowerFailNotice_keeps {β : Bool} {κ : Base} (post : Nat) {s : State} (h : Inv β κ s) : Sat β κ (execPowerFailNotice
      post s) := by
  unfold execPowerFailNotice
  repeat' first | (with_reducible first | assumption | apply ite_keeps | apply next_keeps | apply takeNotice_keeps) | simp only [↓reply_mk] | split

theorem startPeriod_keeps {β : Bool} {κ : Base} (origin : Nat) {s : State} (h : Inv β κ s) : Inv β κ (startPeriod origin s) := by
  unfold startPeriod
  try dsimp only
  repeat' first | (with_reducible first | assumption | apply ite_keeps | apply decideJoins_keeps | apply ageNodes_keeps | apply Inv.core) | simp only [↓inv_mk] | split

theorem freeRunNow_keeps {β : Bool} {κ : Base} {s : State} (h : Inv β κ s) : Inv β κ (freeRunNow s) := by
  unfold freeRunNow
  try dsimp only
  repeat' first | (with_reducible first | assumption | apply ite_keeps | apply raise_keeps | apply Inv.core) | simp only [↓inv_mk] | split

theorem masterEdge_keeps {β : Bool} {κ : Base} (time : Nat) {s : State} (h : Inv β κ s) : Inv β κ (masterEdge time s) := by
  unfold masterEdge
  try dsimp only
  repeat' first | (with_reducible first | assumption | apply ite_keeps | apply freeRunNow_keeps | apply startPeriod_keeps | apply Inv.core) | simp only [↓inv_mk] | split

theorem execZxEdge_keeps {β : Bool} {κ : Base} (time : Nat) (width : Nat) {s : State} (h : Inv β κ s) : Sat β κ (execZxEdge
      time width s) := by
  unfold execZxEdge
  try dsimp only
  repeat' first | (with_reducible first | assumption | apply ite_keeps | apply next_keeps | apply masterEdge_keeps | apply Inv.core) | simp only [↓inv_mk] | simp only [↓reply_mk] | split

theorem execZxFreeRun_keeps {β : Bool} {κ : Base} {s : State} (h : Inv β κ s) : Sat β κ (execZxFreeRun s) := by
  unfold execZxFreeRun
  try dsimp only
  repeat' first | (with_reducible first | assumption | apply ite_keeps | apply next_keeps | apply freeRunNow_keeps | apply Inv.core) | simp only [↓inv_mk] | simp only [↓reply_mk] | split

theorem execZxResync_keeps {β : Bool} {κ : Base} {s : State} (h : Inv β κ s) : Sat β κ (execZxResync s) := by
  unfold execZxResync
  try dsimp only
  repeat' first | (with_reducible first | assumption | apply ite_keeps | apply next_keeps | apply raise_keeps | apply Inv.core) | simp only [↓inv_mk] | simp only [↓reply_mk] | split

theorem execBeaconTransmit_keeps {β : Bool} {κ : Base} {s : State} (h : Inv β κ s) : Sat β κ (execBeaconTransmit s) := by
  unfold execBeaconTransmit
  try dsimp only
  repeat' first | (with_reducible first | assumption | apply ite_keeps | apply next_keeps | apply startPeriod_keeps | apply sendClear_keeps | apply Inv.core) | simp only [↓inv_mk] | simp only [↓reply_mk] | split

theorem askJoin_keeps {β : Bool} {κ : Base} {s : State} (h : Inv β κ s) : Inv β κ (askJoin s) := by
  unfold askJoin
  repeat' first | (with_reducible first | assumption | apply ite_keeps | apply queueFrame_keeps) | split

theorem dropMissing_keeps {β : Bool} {κ : Base} (b : Beacon) {s : State} (h : Inv β κ s) : Inv β κ (dropMissing b s) := by
  unfold dropMissing
  try dsimp only
  repeat' first | (with_reducible first | assumption | apply ite_keeps | refine foldl_keeps ?_ fun _ _ _ => ?_ | apply dropNode_keeps) | split

theorem takeMap_keeps {β : Bool} {κ : Base} (b : Beacon) {s : State} (h : Inv β κ s) : Inv β κ (takeMap b s) := by
  unfold takeMap
  try dsimp only
  repeat' first | (with_reducible first | assumption | apply ite_keeps | apply raiseIf_keeps | apply goneKick_keeps | apply raise_keeps | apply enterKick_keeps | apply Inv.core) | simp only [↓inv_mk] | split

theorem takeBeacon_keeps {β : Bool} {κ : Base} (time : Nat) (b : Beacon) {s : State} (h : Inv β κ s) : Inv β κ (takeBeacon time
      b s) := by
  unfold takeBeacon
  try dsimp only
  repeat' first | (with_reducible first | assumption | apply raiseIf_keeps | apply decideJoins_keeps | apply dropMissing_keeps | apply ageNodes_keeps | apply askJoin_keeps | apply takeMap_keeps | apply Inv.core) | simp only [↓inv_mk] | split

theorem execBeaconReceived_keeps {β : Bool} {κ : Base} (time : Nat) (beacon : Bytes) {s : State} (h : Inv β κ s) : Sat β κ
      (execBeaconReceived time beacon s) := by
  unfold execBeaconReceived
  try dsimp only
  repeat' first | (with_reducible first | assumption | apply ite_keeps | apply next_keeps | apply takeBeacon_keeps | apply raise_keeps | apply raiseIf_keeps | apply Inv.core) | simp only [↓inv_mk] | simp only [↓reply_mk] | split

theorem execBeaconLost_keeps {β : Bool} {κ : Base} {s : State} (h : Inv β κ s) : Sat β κ (execBeaconLost s) := by
  unfold execBeaconLost
  try dsimp only
  repeat' first | (with_reducible first | assumption | apply ite_keeps | apply next_keeps | apply raise_keeps | apply spkCount_keeps | apply Inv.core) | simp only [↓inv_mk] | simp only [↓reply_mk] | split

theorem execSlotTransmit_keeps {β : Bool} {κ : Base} {s : State} (h : Inv β κ s) : Sat β κ (execSlotTransmit s) := by
  unfold execSlotTransmit
  try dsimp only
  repeat' first | (with_reducible first | assumption | apply ite_keeps | apply next_keeps | apply sendSlot_keeps | apply Inv.core) | simp only [↓inv_mk] | simp only [↓reply_mk] | split

theorem heardNode_keeps {β : Bool} {κ : Base} (src : Nat) (spoke : Bool) {s : State} (h : Inv β κ s) : Inv β κ (heardNode src
      spoke s) := by
  unfold heardNode
  try dsimp only
  repeat' first | (with_reducible first | assumption | apply ite_keeps | apply Inv.core) | simp only [↓inv_mk] | split

theorem requestFrom_keeps {β : Bool} {κ : Base} (src : Nat) {s : State} (b : Bytes) (h : Inv β κ s) : Inv β κ (requestFrom src
      s b) := by
  unfold requestFrom
  try dsimp only
  repeat' first | (with_reducible first | assumption | apply ite_keeps | apply deliverRequest_keeps) | split

theorem takeRecords_keeps {β : Bool} {κ : Base} (src : Nat) (hub : Bool) (text : Bytes) {s : State} (h : Inv β κ s) : Inv β κ
      (takeRecords src hub text s) := by
  unfold takeRecords
  try dsimp only
  repeat' first | (with_reducible first | assumption | apply ite_keeps | refine foldl_keeps ?_ fun _ _ _ => ?_ | apply receiveGrant_keeps | apply requestFrom_keeps) | split

theorem execSlotReceived_keeps {β : Bool} {κ : Base} (m : SlotMsg) {s : State} (h : Inv β κ s) : Sat β κ (execSlotReceived m s)
      := by
  unfold execSlotReceived
  try dsimp only
  repeat' first | (with_reducible first | assumption | apply ite_keeps | refine foldl_keeps ?_ fun _ _ _ => ?_ | apply next_keeps | apply heardNode_keeps | apply onSpkLink_keeps | apply receiveCopy_keeps | apply takeRecords_keeps) | simp only [↓reply_mk] | split

theorem takeIsland_keeps {β : Bool} {κ : Base} (head : Bytes) (text : Bytes) {s : State} (h : Inv β κ s) : Inv β κ (takeIsland
      head text s) := by
  unfold takeIsland
  repeat' first | (with_reducible first | assumption | apply ite_keeps | apply takeNotice_keeps | apply takeRecords_keeps) | split

theorem execIslandEth0Frame_keeps {β : Bool} {κ : Base} (m : SlotMsg) {s : State} (h : Inv β κ s) : Sat β κ
      (execIslandEth0Frame m s) := by
  unfold execIslandEth0Frame
  try dsimp only
  repeat' first | (with_reducible first | assumption | apply ite_keeps | apply next_keeps | apply takeIsland_keeps | apply heardNode_keeps | apply onSpkLink_keeps | apply Inv.core) | simp only [↓inv_mk] | simp only [↓reply_mk] | split

theorem windowContacts_keeps {β : Bool} {κ : Base} {s : State} (h : Inv β κ s) : Inv β κ (windowContacts s) := by
  unfold windowContacts
  try dsimp only
  repeat' first | (with_reducible first | assumption | apply ite_keeps | refine foldl_keeps ?_ fun _ _ _ => ?_ | apply driveWant_keeps) | split

theorem execSwitchingWindowOpen_keeps {β : Bool} {κ : Base} {s : State} (h : Inv β κ s) : Sat β κ (execSwitchingWindowOpen s)
      := by
  unfold execSwitchingWindowOpen
  try dsimp only
  repeat' first | (with_reducible first | assumption | apply ite_keeps | apply next_keeps | apply windowContacts_keeps | apply windowMatrix_keeps | apply Inv.core) | simp only [↓inv_mk] | simp only [↓reply_mk] | split

theorem execNoBeacon60s_keeps {β : Bool} {κ : Base} {s : State} (h : Inv β κ s) : Sat β κ (execNoBeacon60s s) := by
  unfold execNoBeacon60s
  try dsimp only
  repeat' first | (with_reducible first | assumption | apply ite_keeps | apply next_keeps | apply Inv.core) | simp only [↓inv_mk] | simp only [↓reply_mk] | split

theorem execVlineRangeChange_keeps {β : Bool} {κ : Base} (inRange : Bool) {s : State} (h : Inv β κ s) : Sat β κ
      (execVlineRangeChange inRange s) := by
  unfold execVlineRangeChange
  try dsimp only
  repeat' first | (with_reducible first | assumption | apply next_keeps | apply raiseIf_keeps | apply Inv.core) | simp only [↓inv_mk] | simp only [↓reply_mk] | split

end Sys2Proof.Machine
end

