-- ==== Sys2Proof/Laws/KeepCmd.lean ====
section
/-!
SUPPORT. Keeping the sound state and the queue (Laws/Keep.lean): the safety configuration commands, heat, metering, the register window and keys.
-/
namespace Sys2Proof.Machine

theorem execSafGetStatus_keeps {β : Bool} {κ : Base} (r : Req) {s : State} (h : Inv β κ s) : Sat β κ (execSafGetStatus r s) := by
  unfold execSafGetStatus
  try dsimp only
  repeat' first | (with_reducible first | assumption | refine command_keeps ?_ fun _ _ => ?_ | apply next_keeps) | simp only [↓reply_mk] | split

theorem execSafGetInstance_keeps {β : Bool} {κ : Base} (r : Req) (index : Nat) {s : State} (h : Inv β κ s) : Sat β κ
      (execSafGetInstance r index s) := by
  unfold execSafGetInstance
  try dsimp only
  repeat' first | (with_reducible first | assumption | apply ite_keeps | refine checked_keeps ?_ fun _ _ => ?_ | refine command_keeps ?_ fun _ _ => ?_ | apply next_keeps) | simp only [↓reply_mk] | split

theorem execSafGetPair_keeps {β : Bool} {κ : Base} (r : Req) (pair : Nat) {s : State} (h : Inv β κ s) : Sat β κ (execSafGetPair
      r pair s) := by
  unfold execSafGetPair
  try dsimp only
  repeat' first | (with_reducible first | assumption | refine checked_keeps ?_ fun _ _ => ?_ | refine command_keeps ?_ fun _ _ => ?_ | apply next_keeps) | simp only [↓reply_mk] | split

theorem commandReset_keeps {β : Bool} {κ : Base} (mask : Nat) (part : Nat) {s : State} (h : Inv β κ s) : Inv β κ (commandReset
      mask part s) := by
  unfold commandReset
  try dsimp only
  repeat' first | (with_reducible first | assumption | apply ite_keeps | refine foldl_keeps ?_ fun _ _ _ => ?_ | apply kickReset_keeps | apply giveReset_keeps | apply raise_keeps) | split

theorem execSafReset_keeps {β : Bool} {κ : Base} (r : Req) (mask : Nat) (part : Nat) {s : State} (h : Inv β κ s) : Sat β κ
      (execSafReset r mask part s) := by
  unfold execSafReset
  try dsimp only
  repeat' first | (with_reducible first | assumption | refine checked_keeps ?_ fun _ _ => ?_ | refine command_keeps ?_ fun _ _ => ?_ | apply next_keeps | apply commandReset_keeps) | simp only [↓reply_mk] | split

theorem execSafSetOutput_keeps {β : Bool} {κ : Base} (r : Req) (pair : Nat) (request : Nat) {s : State} (h : Inv β κ s) : Sat β
      κ (execSafSetOutput r pair request s) := by
  unfold execSafSetOutput
  try dsimp only
  repeat' first | (with_reducible first | assumption | refine checked_keeps ?_ fun _ _ => ?_ | refine command_keeps ?_ fun _ _ => ?_ | apply next_keeps | apply requestPair_keeps) | simp only [↓reply_mk] | split

theorem execSafDoorLock_keeps {β : Bool} {κ : Base} (r : Req) (index : Nat) (action : Nat) {s : State} (h : Inv β κ s) : Sat β
      κ (execSafDoorLock r index action s) := by
  unfold execSafDoorLock
  try dsimp only
  repeat' first | (with_reducible first | assumption | apply ite_keeps | refine checked_keeps ?_ fun _ _ => ?_ | refine command_keeps ?_ fun _ _ => ?_ | apply next_keeps | apply driveLock_keeps | apply onInst_keeps | apply fallPermit_keeps | apply Inv.core) | simp only [↓inv_mk] | simp only [↓reply_mk] | split

theorem settleLockout_keeps {β : Bool} {κ : Base} {s : State} (h : Inv β κ s) : Inv β κ (settleLockout s) := by
  unfold settleLockout
  try dsimp only
  repeat' first | (with_reducible first | assumption | apply ite_keeps | apply raise_keeps | apply Inv.core) | simp only [↓inv_mk] | split

theorem wrongPassword_keeps {β : Bool} {κ : Base} {s : State} (h : Inv β κ s) : Inv β κ (wrongPassword s) := by
  unfold wrongPassword
  try dsimp only
  repeat' first | (with_reducible first | assumption | apply ite_keeps | apply raise_keeps | apply record_keeps | apply Inv.core) | simp only [↓inv_mk] | split

theorem rightPassword_keeps {β : Bool} {κ : Base} {s : State} (h : Inv β κ s) : Inv β κ (rightPassword s) := by
  unfold rightPassword
  try dsimp only
  repeat' first | (with_reducible first | assumption | apply Inv.core) | simp only [↓inv_mk] | split

theorem withPassword_keeps {β : Bool} {κ : Base} {p : Bytes} {f : State → Reply} {s : State} (h : Inv β κ s)
    (hf : ∀ s, Inv β κ s → RInv β κ (f s)) : RInv β κ (withPassword p s f) := by
  unfold withPassword; split
  · exact hf _ (rightPassword_keeps h)
  · exact wrongPassword_keeps h

theorem writeCopy_keeps {β : Bool} {κ : Base} (t : SafeSet) (acked : Bool) {s : State} (h : Inv β κ s) : Inv β κ (writeCopy t
      acked s) := by
  unfold writeCopy
  try dsimp only
  repeat' first | (with_reducible first | assumption | apply Inv.core) | simp only [↓inv_mk] | split

theorem restartSafety_keeps {β : Bool} {κ : Base} {s : State} (h : Inv β κ s) : Inv β κ (restartSafety s) :=
  { h.weak with off := fun e hk => ⟨fun p hp => by rw [List.eq_of_mem_replicate hp], (h.off e hk).2⟩ }

theorem execSafCfgGet_keeps {β : Bool} {κ : Base} (r : Req) {s : State} (h : Inv β κ s) : Sat β κ (execSafCfgGet r s) := by
  unfold execSafCfgGet
  try dsimp only
  repeat' first | (with_reducible first | assumption | apply ite_keeps | refine command_keeps ?_ fun _ _ => ?_ | apply next_keeps | apply Inv.core) | simp only [↓inv_mk] | simp only [↓reply_mk] | split

theorem execSafCfgRead_keeps {β : Bool} {κ : Base} (r : Req) (copy : Nat) (kind : Nat) (index : Nat) {s : State} (h : Inv β κ
      s) : Sat β κ (execSafCfgRead r copy kind index s) := by
  unfold execSafCfgRead
  try dsimp only
  repeat' first | (with_reducible first | assumption | refine checked_keeps ?_ fun _ _ => ?_ | refine command_keeps ?_ fun _ _ => ?_ | apply next_keeps) | simp only [↓reply_mk] | split

theorem execSafCfgGetLog_keeps {β : Bool} {κ : Base} (r : Req) (first : Nat) (n : Nat) {s : State} (h : Inv β κ s) : Sat β κ
      (execSafCfgGetLog r first n s) := by
  unfold execSafCfgGetLog
  try dsimp only
  repeat' first | (with_reducible first | assumption | refine checked_keeps ?_ fun _ _ => ?_ | refine command_keeps ?_ fun _ _ => ?_ | apply next_keeps) | simp only [↓reply_mk] | split

theorem endEdit_keeps {β : Bool} {κ : Base} {s : State} (h : Inv β κ s) : Inv β κ (endEdit s) := by
  unfold endEdit
  try dsimp only
  repeat' first | (with_reducible first | assumption | apply ite_keeps | apply raise_keeps | apply Inv.core) | simp only [↓inv_mk] | split

theorem endEditOf_keeps {β : Bool} {κ : Base} (ch : Nat) (handle : Option Nat) {s : State} (h : Inv β κ s) : Inv β κ (endEditOf
      ch handle s) := by
  unfold endEditOf
  try dsimp only
  repeat' first | (with_reducible first | assumption | apply ite_keeps | apply endEdit_keeps | apply Inv.core) | simp only [↓inv_mk] | split

theorem execSafCfgOpen_keeps {β : Bool} {κ : Base} (r : Req) (password : Bytes) {s : State} (h : Inv β κ s) : Sat β κ
      (execSafCfgOpen r password s) := by
  unfold execSafCfgOpen
  try dsimp only
  repeat' first | (with_reducible first | assumption | refine checked_keeps ?_ fun _ _ => ?_ | refine withPassword_keeps ?_ fun _ _ => ?_ | refine command_keeps ?_ fun _ _ => ?_ | apply next_keeps | apply settleLockout_keeps | apply raise_keeps | apply Inv.core) | simp only [↓inv_mk] | simp only [↓reply_mk] | split

theorem execSafCfgWrite_keeps {β : Bool} {κ : Base} (r : Req) (kind : Nat) (index : Nat) (block : Bytes) {s : State} (h : Inv β
      κ s) : Sat β κ (execSafCfgWrite r kind index block s) := by
  unfold execSafCfgWrite
  try dsimp only
  repeat' first | (with_reducible first | assumption | refine checked_keeps ?_ fun _ _ => ?_ | refine command_keeps ?_ fun _ _ => ?_ | apply next_keeps | apply Inv.core) | simp only [↓inv_mk] | simp only [↓reply_mk] | split

theorem recordCommit_keeps {β : Bool} {κ : Base} (r : Req) (old : SafeSet) (new : SafeSet) (held : Bool) {s : State} (h : Inv β
      κ s) : Inv β κ (recordCommit r old new held s) := by
  unfold recordCommit
  try dsimp only
  repeat' first | (with_reducible first | assumption | apply ite_keeps | refine foldl_keeps ?_ fun _ _ _ => ?_ | apply recordIf_keeps | apply record_keeps) | split

theorem commitSet_keeps {β : Bool} {κ : Base} (r : Req) (t : SafeSet) {s : State} (h : Inv β κ s) : RInv β κ (commitSet r t s)
      := by
  unfold commitSet
  try dsimp only
  repeat' first | (with_reducible first | assumption | apply recordCommit_keeps | apply restartSafety_keeps | apply writeCopy_keeps | apply enterKick_keeps | apply goneKick_keeps | apply raise_keeps | apply Inv.core) | simp only [↓inv_mk] | simp only [↓reply_mk] | split

theorem execSafCfgCommit_keeps {β : Bool} {κ : Base} (r : Req) {s : State} (h : Inv β κ s) : Sat β κ (execSafCfgCommit r s) := by
  unfold execSafCfgCommit
  try dsimp only
  repeat' first | (with_reducible first | assumption | refine checked_keeps ?_ fun _ _ => ?_ | refine command_keeps ?_ fun _ _ => ?_ | apply next_keeps | apply commitSet_keeps) | simp only [↓reply_mk] | split

theorem execSafCfgClose_keeps {β : Bool} {κ : Base} (r : Req) {s : State} (h : Inv β κ s) : Sat β κ (execSafCfgClose r s) := by
  unfold execSafCfgClose
  try dsimp only
  repeat' first | (with_reducible first | assumption | refine checked_keeps ?_ fun _ _ => ?_ | refine command_keeps ?_ fun _ _ => ?_ | apply next_keeps | apply endEdit_keeps) | simp only [↓reply_mk] | split

theorem settleEdit_keeps {β : Bool} {κ : Base} {s : State} (h : Inv β κ s) : Inv β κ (settleEdit s) := by
  unfold settleEdit
  try dsimp only
  repeat' first | (with_reducible first | assumption | apply ite_keeps | apply endEdit_keeps | apply Inv.core) | simp only [↓inv_mk] | split

theorem execEditSessionTimeout_keeps {β : Bool} {κ : Base} {s : State} (h : Inv β κ s) : Sat β κ (execEditSessionTimeout s) := by
  unfold execEditSessionTimeout
  repeat' first | (with_reducible first | assumption | apply next_keeps | apply settleEdit_keeps) | simp only [↓reply_mk] | split

theorem execPasswordLockoutEnd_keeps {β : Bool} {κ : Base} {s : State} (h : Inv β κ s) : Sat β κ (execPasswordLockoutEnd s) := by
  unfold execPasswordLockoutEnd
  repeat' first | (with_reducible first | assumption | apply next_keeps | apply settleLockout_keeps) | simp only [↓reply_mk] | split

theorem execSafCfgAck_keeps {β : Bool} {κ : Base} (r : Req) (signature : Nat) (password : Bytes) {s : State} (h : Inv β κ s) :
      Sat β κ (execSafCfgAck r signature password s) := by
  unfold execSafCfgAck
  try dsimp only
  repeat' first | (with_reducible first | assumption | apply ite_keeps | refine command_keeps ?_ fun _ _ => ?_ | apply next_keeps | apply settleLockout_keeps | apply raise_keeps | apply record_keeps | apply wrongPassword_keeps | apply goneKick_keeps | apply writeCopy_keeps | apply rightPassword_keeps) | simp only [↓reply_mk] | split

theorem storePassword_keeps {β : Bool} {κ : Base} (p : Bytes) {s : State} (h : Inv β κ s) : Inv β κ (storePassword p s) := by
  unfold storePassword
  try dsimp only
  repeat' first | (with_reducible first | assumption | apply record_keeps | apply drawn_keeps | apply Inv.core) | simp only [↓inv_mk] | split

theorem execSafCfgSetPassword_keeps {β : Bool} {κ : Base} (r : Req) (old : Bytes) (new : Bytes) {s : State} (h : Inv β κ s) :
      Sat β κ (execSafCfgSetPassword r old new s) := by
  unfold execSafCfgSetPassword
  try dsimp only
  repeat' first | (with_reducible first | assumption | apply ite_keeps | refine checked_keeps ?_ fun _ _ => ?_ | refine withPassword_keeps ?_ fun _ _ => ?_ | refine command_keeps ?_ fun _ _ => ?_ | apply next_keeps | apply settleLockout_keeps | apply storePassword_keeps | apply Inv.core) | simp only [↓inv_mk] | simp only [↓reply_mk] | split

theorem onOutHeat_keeps {β : Bool} {κ : Base} (slot : Nat) (f : OutletHeat → OutletHeat) {s : State} (h : Inv β κ s) : Inv β κ
      (onOutHeat slot f s) := by
  unfold onOutHeat
  try dsimp only
  repeat' first | (with_reducible first | assumption | apply Inv.core) | simp only [↓inv_mk] | split

theorem onInput_keeps {β : Bool} {κ : Base} (kind : Nat) (i : Nat) (f : Input → Input) {s : State} (h : Inv β κ s) : Inv β κ
      (onInput kind i f s) := by
  unfold onInput
  try dsimp only
  repeat' first | (with_reducible first | assumption | apply onOutHeat_keeps | apply Inv.core) | simp only [↓inv_mk] | split

theorem failInput_keeps {β : Bool} {κ : Base} (kind : Nat) (i : Nat) {s : State} (h : Inv β κ s) : Inv β κ (failInput kind i s)
      := by
  unfold failInput
  try dsimp only
  repeat' first | (with_reducible first | assumption | apply record_keeps | apply raiseIf_keeps | apply raise_keeps | apply onInput_keeps | apply Inv.core) | simp only [↓inv_mk] | split

theorem recoverInput_keeps {β : Bool} {κ : Base} (kind : Nat) (i : Nat) {s : State} (h : Inv β κ s) : Inv β κ (recoverInput
      kind i s) := by
  unfold recoverInput
  try dsimp only
  repeat' first | (with_reducible first | assumption | apply ite_keeps | apply raise_keeps | apply onInput_keeps | apply Inv.core) | simp only [↓inv_mk] | split

theorem takeReading_keeps {β : Bool} {κ : Base} (kind : Nat) (i : Nat) (raw : Option Int) (v : Option Int) {s : State} (h : Inv
      β κ s) : Inv β κ (takeReading kind i raw v s) := by
  unfold takeReading
  try dsimp only
  repeat' first | (with_reducible first | assumption | apply ite_keeps | apply onInput_keeps | apply recoverInput_keeps | apply raiseIf_keeps | apply failInput_keeps | apply Inv.core) | simp only [↓inv_mk] | split

theorem keepFailed_keeps {β : Bool} {κ : Base} {s : State} (h : Inv β κ s) : Inv β κ (keepFailed s) := by
  unfold keepFailed
  try dsimp only
  repeat' first | (with_reducible first | assumption | apply Inv.core) | simp only [↓inv_mk] | split

theorem onThreshold_keeps {β : Bool} {κ : Base} (i : Nat) (f : Threshold → Threshold) {s : State} (h : Inv β κ s) : Inv β κ
      (onThreshold i f s) := by
  unfold onThreshold
  try dsimp only
  repeat' first | (with_reducible first | assumption | apply Inv.core) | simp only [↓inv_mk] | split

theorem noteThreshold_keeps {β : Bool} {κ : Base} (i : Nat) (state : Nat) {s : State} (h : Inv β κ s) : Inv β κ (noteThreshold
      i state s) := by
  unfold noteThreshold
  repeat' first | (with_reducible first | assumption | apply raise_keeps | apply record_keeps) | split

theorem crossThreshold_keeps {β : Bool} {κ : Base} (i : Nat) {s : State} (h : Inv β κ s) : Inv β κ (crossThreshold i s) := by
  unfold crossThreshold
  try dsimp only
  repeat' first | (with_reducible first | assumption | apply ite_keeps | apply noteThreshold_keeps | apply onThreshold_keeps | apply Inv.core) | simp only [↓inv_mk] | split

theorem rearmThreshold_keeps {β : Bool} {κ : Base} (i : Nat) {s : State} (h : Inv β κ s) : Inv β κ (rearmThreshold i s) := by
  unfold rearmThreshold
  try dsimp only
  repeat' first | (with_reducible first | assumption | apply ite_keeps | apply noteThreshold_keeps | apply onThreshold_keeps | apply Inv.core) | simp only [↓inv_mk] | split

theorem evalThreshold_keeps {β : Bool} {κ : Base} (i : Nat) {s : State} (h : Inv β κ s) : Inv β κ (evalThreshold i s) := by
  unfold evalThreshold
  try dsimp only
  repeat' first | (with_reducible first | assumption | apply ite_keeps | apply onThreshold_keeps | apply rearmThreshold_keeps | apply crossThreshold_keeps | apply Inv.core) | simp only [↓inv_mk] | split

theorem settlePeriod_keeps {β : Bool} {κ : Base} (kind : Nat) (i : Nat) {s : State} (h : Inv β κ s) : Inv β κ (settlePeriod
      kind i s) := by
  unfold settlePeriod
  try dsimp only
  repeat' first | (with_reducible first | assumption | apply ite_keeps | apply onInput_keeps | apply Inv.core) | simp only [↓inv_mk] | split

theorem keepHist_keeps {β : Bool} {κ : Base} (kind : Nat) (i : Nat) {s : State} (h : Inv β κ s) : Inv β κ (keepHist kind i s)
      := by
  unfold keepHist
  try dsimp only
  repeat' first | (with_reducible first | assumption | apply onInput_keeps | apply Inv.core) | simp only [↓inv_mk] | split

theorem settleStops_keeps {β : Bool} {κ : Base} {s : State} (h : Inv β κ s) : Inv β κ (settleStops s) := by
  unfold settleStops
  try dsimp only
  repeat' first | (with_reducible first | assumption | apply ite_keeps | refine foldl_keeps ?_ fun _ _ _ => ?_ | apply raise_keeps | apply onOutHeat_keeps | apply Inv.core) | simp only [↓inv_mk] | split

theorem readMean_keeps {β : Bool} {κ : Base} (slot : Nat) {s : State} (h : Inv β κ s) : Inv β κ (readMean slot s) := by
  unfold readMean
  try dsimp only
  repeat' first | (with_reducible first | assumption | apply ite_keeps | refine foldl_keeps ?_ fun _ _ _ => ?_ | apply onOutHeat_keeps | apply Inv.core) | simp only [↓inv_mk] | split

theorem convertInputs_keeps {β : Bool} {κ : Base} (ohms : List (Option Nat)) (edges : List (Nat × Nat)) (due : List (Nat ×
      Nat)) {s : State} (h : Inv β κ s) : Inv β κ (convertInputs ohms edges due s) := by
  unfold convertInputs
  try dsimp only
  repeat' first | (with_reducible first | assumption | refine foldl_keeps ?_ fun _ _ _ => ?_ | apply takeReading_keeps | apply readMean_keeps | apply onOutHeat_keeps | apply Inv.core) | simp only [↓inv_mk] | split

theorem execHeatSamplePoint_keeps {β : Bool} {κ : Base} (ohms : List (Option Nat)) (edges : List (Nat × Nat)) {s : State} (h :
      Inv β κ s) : Sat β κ (execHeatSamplePoint ohms edges s) := by
  unfold execHeatSamplePoint
  try dsimp only
  repeat' first | (with_reducible first | assumption | apply ite_keeps | refine foldl_keeps ?_ fun _ _ _ => ?_ | apply next_keeps | apply convertInputs_keeps | apply keepHist_keeps | apply evalThreshold_keeps | apply settlePeriod_keeps | apply keepFailed_keeps | apply settleStops_keeps) | simp only [↓reply_mk] | split

theorem execThresholdCrossed_keeps {β : Bool} {κ : Base} (index : Nat) {s : State} (h : Inv β κ s) : Sat β κ
      (execThresholdCrossed index s) := by
  unfold execThresholdCrossed
  repeat' first | (with_reducible first | assumption | apply next_keeps | apply settleStops_keeps | apply crossThreshold_keeps) | simp only [↓reply_mk] | split

theorem execThresholdRearmed_keeps {β : Bool} {κ : Base} (index : Nat) {s : State} (h : Inv β κ s) : Sat β κ
      (execThresholdRearmed index s) := by
  unfold execThresholdRearmed
  repeat' first | (with_reducible first | assumption | apply next_keeps | apply settleStops_keeps | apply rearmThreshold_keeps) | simp only [↓reply_mk] | split

theorem execSensorRecovered_keeps {β : Bool} {κ : Base} (kind : Nat) (index : Nat) {s : State} (h : Inv β κ s) : Sat β κ
      (execSensorRecovered kind index s) := by
  unfold execSensorRecovered
  repeat' first | (with_reducible first | assumption | apply next_keeps | apply recoverInput_keeps) | simp only [↓reply_mk] | split

theorem ceilBoundary_keeps {β : Bool} {κ : Base} (slot : Nat) {s : State} (h : Inv β κ s) : Inv β κ (ceilBoundary slot s) := by
  unfold ceilBoundary
  try dsimp only
  repeat' first | (with_reducible first | assumption | apply ite_keeps | apply raiseIf_keeps | apply readMean_keeps | apply onOutHeat_keeps | apply Inv.core) | simp only [↓inv_mk] | split

theorem ceilings_keeps {β : Bool} {κ : Base} {s : State} (h : Inv β κ s) : Inv β κ (ceilings s) := by
  unfold ceilings
  try dsimp only
  repeat' first | (with_reducible first | assumption | refine foldl_keeps ?_ fun _ _ _ => ?_ | apply ceilBoundary_keeps) | split

theorem heatSlots_keeps {β : Bool} {κ : Base} (slot : Nat) {s : State} (h : Inv β κ s) : Inv β κ (heatSlots slot s) := by
  unfold heatSlots
  try dsimp only
  repeat' first | (with_reducible first | assumption | apply ite_keeps | apply onOutHeat_keeps | apply Inv.core) | simp only [↓inv_mk] | split

theorem settleDiePeriod_keeps {β : Bool} {κ : Base} {s : State} (h : Inv β κ s) : Inv β κ (settleDiePeriod s) := by
  unfold settleDiePeriod
  try dsimp only
  repeat' first | (with_reducible first | assumption | apply ite_keeps | apply Inv.core) | simp only [↓inv_mk] | split

theorem execDieSample_keeps {β : Bool} {κ : Base} (readings : List (Option Int)) {s : State} (h : Inv β κ s) : Sat β κ
      (execDieSample readings s) := by
  unfold execDieSample
  try dsimp only
  repeat' first | (with_reducible first | assumption | apply ite_keeps | refine foldl_keeps ?_ fun _ _ _ => ?_ | apply next_keeps | apply takeReading_keeps | apply raiseIf_keeps | apply keepFailed_keeps | apply settleDiePeriod_keeps | apply Inv.core) | simp only [↓inv_mk] | simp only [↓reply_mk] | split

theorem execDieThermalShutdown_keeps {β : Bool} {κ : Base} {s : State} (h : Inv β κ s) : Sat β κ (execDieThermalShutdown s) := by
  unfold execDieThermalShutdown
  try dsimp only
  repeat' first | (with_reducible first | assumption | apply ite_keeps | apply next_keeps | apply resetPart_keeps | apply Inv.core) | simp only [↓inv_mk] | simp only [↓reply_mk] | split

theorem execShutdownSupervisorReading_keeps {β : Bool} {κ : Base} (readings : List (Option Int)) {s : State} (h : Inv β κ s) :
      Sat β κ (execShutdownSupervisorReading readings s) := by
  unfold execShutdownSupervisorReading
  try dsimp only
  repeat' first | (with_reducible first | assumption | apply ite_keeps | refine foldl_keeps ?_ fun _ _ _ => ?_ | apply next_keeps | apply Inv.core) | simp only [↓inv_mk] | simp only [↓reply_mk] | split

theorem startFailed_keeps {β : Bool} {κ : Base} (ended : Bool) {s : State} (f : Nat × Nat × Int × Int) (h : Inv β κ s) : Inv β
      κ (startFailed ended s f) := by
  unfold startFailed
  try dsimp only
  repeat' first | (with_reducible first | assumption | apply ite_keeps | apply recordIf_keeps | apply onInput_keeps | apply Inv.core) | simp only [↓inv_mk] | split

theorem startHeat_keeps {β : Bool} {κ : Base} {s : State} (h : Inv β κ s) : Inv β κ (startHeat s) := by
  unfold startHeat
  try dsimp only
  repeat' first | (with_reducible first | assumption | refine foldl_keeps ?_ fun _ _ _ => ?_ | apply startFailed_keeps | apply onThreshold_keeps | apply raiseIf_keeps | apply keepFailed_keeps) | split

theorem execHeatGetInput_keeps {β : Bool} {κ : Base} (r : Req) (kind : Nat) (index : Nat) {s : State} (h : Inv β κ s) : Sat β κ
      (execHeatGetInput r kind index s) := by
  unfold execHeatGetInput
  try dsimp only
  repeat' first | (with_reducible first | assumption | refine checked_keeps ?_ fun _ _ => ?_ | refine command_keeps ?_ fun _ _ => ?_ | apply next_keeps) | simp only [↓reply_mk] | split

theorem execHeatGetOutlet_keeps {β : Bool} {κ : Base} (r : Req) (slot : Nat) {s : State} (h : Inv β κ s) : Sat β κ
      (execHeatGetOutlet r slot s) := by
  unfold execHeatGetOutlet
  try dsimp only
  repeat' first | (with_reducible first | assumption | refine checked_keeps ?_ fun _ _ => ?_ | refine command_keeps ?_ fun _ _ => ?_ | apply next_keeps) | simp only [↓reply_mk] | split

theorem execHeatGetThresholds_keeps {β : Bool} {κ : Base} (r : Req) (first : Nat) (count : Nat) {s : State} (h : Inv β κ s) :
      Sat β κ (execHeatGetThresholds r first count s) := by
  unfold execHeatGetThresholds
  try dsimp only
  repeat' first | (with_reducible first | assumption | refine checked_keeps ?_ fun _ _ => ?_ | refine command_keeps ?_ fun _ _ => ?_ | apply next_keeps | apply count_keeps) | simp only [↓reply_mk] | split

theorem execHeatAckSensor_keeps {β : Bool} {κ : Base} (r : Req) (kind : Nat) (index : Nat) {s : State} (h : Inv β κ s) : Sat β
      κ (execHeatAckSensor r kind index s) := by
  unfold execHeatAckSensor
  try dsimp only
  repeat' first | (with_reducible first | assumption | refine checked_keeps ?_ fun _ _ => ?_ | refine command_keeps ?_ fun _ _ => ?_ | apply next_keeps | apply onInput_keeps | apply Inv.core) | simp only [↓inv_mk] | simp only [↓reply_mk] | split

theorem execHeatGetDie_keeps {β : Bool} {κ : Base} (r : Req) {s : State} (h : Inv β κ s) : Sat β κ (execHeatGetDie r s) := by
  unfold execHeatGetDie
  try dsimp only
  repeat' first | (with_reducible first | assumption | refine command_keeps ?_ fun _ _ => ?_ | apply next_keeps) | simp only [↓reply_mk] | split

theorem channelChanged_keeps {β : Bool} {κ : Base} (c : Nat) (faulted : Bool) {s : State} (h : Inv β κ s) : Inv β κ
      (channelChanged c faulted s) := by
  unfold channelChanged
  try dsimp only
  repeat' first | (with_reducible first | assumption | apply ite_keeps | apply raise_keeps | apply onChannel_keeps | apply recordLegal_keeps | apply enterKick_keeps | apply goneKick_keeps | apply Inv.core) | simp only [↓inv_mk] | split

theorem settleChannel_keeps {β : Bool} {κ : Base} (c : Nat) {s : State} (h : Inv β κ s) : Inv β κ (settleChannel c s) := by
  unfold settleChannel
  try dsimp only
  repeat' first | (with_reducible first | assumption | apply ite_keeps | apply channelChanged_keeps) | split

theorem sampleChannel_keeps {β : Bool} {κ : Base} (c : Nat) (bits : List Bool) {s : State} (h : Inv β κ s) : Inv β κ
      (sampleChannel c bits s) := by
  unfold sampleChannel
  try dsimp only
  repeat' first | (with_reducible first | assumption | apply ite_keeps | apply onChannel_keeps | apply settleChannel_keeps | apply raise_keeps | apply record_keeps | apply Inv.core) | simp only [↓inv_mk] | split

theorem addPulse_keeps {β : Bool} {κ : Base} (n : Nat) (p : Nat) (qty : Nat) (e : Nat) {s : State} (h : Inv β κ s) : Inv β κ
      (addPulse n p qty e s) := by
  unfold addPulse
  try dsimp only
  repeat' first | (with_reducible first | assumption | apply ite_keeps | apply Inv.core) | simp only [↓inv_mk] | split

theorem addEnergy_keeps {β : Bool} {κ : Base} (p : Nat) (qty : Nat) (e : Nat) {s : State} (h : Inv β κ s) : Inv β κ (addEnergy
      p qty e s) := by
  unfold addEnergy
  try dsimp only
  repeat' first | (with_reducible first | assumption | apply ite_keeps | apply onPoint_keeps | apply addPulse_keeps | apply Inv.core) | simp only [↓inv_mk] | split

theorem settleDirection_keeps {β : Bool} {κ : Base} (p : Nat) {s : State} (h : Inv β κ s) : Inv β κ (settleDirection p s) := by
  unfold settleDirection
  try dsimp only
  repeat' first | (with_reducible first | assumption | apply ite_keeps | apply onPoint_keeps | apply raise_keeps | apply record_keeps | apply onOpenRecs_keeps | apply Inv.core) | simp only [↓inv_mk] | split

theorem runDirection_keeps {β : Bool} {κ : Base} (p : Nat) (d : Nat) {s : State} (h : Inv β κ s) : Inv β κ (runDirection p d s)
      := by
  unfold runDirection
  try dsimp only
  repeat' first | (with_reducible first | assumption | apply ite_keeps | apply settleDirection_keeps | apply onPoint_keeps | apply Inv.core) | simp only [↓inv_mk] | split

theorem addLoss_keeps {β : Bool} {κ : Base} (p : Nat) (qty : Nat) (i : Int) {s : State} (h : Inv β κ s) : Inv β κ (addLoss p
      qty i s) := by
  unfold addLoss
  try dsimp only
  repeat' first | (with_reducible first | assumption | apply ite_keeps | apply onPoint_keeps | apply onOpenRecs_keeps | apply Inv.core) | simp only [↓inv_mk] | split

theorem sampleDc_keeps {β : Bool} {κ : Base} (p : Nat) {s : State} (h : Inv β κ s) : Inv β κ (sampleDc p s) := by
  unfold sampleDc
  try dsimp only
  repeat' first | (with_reducible first | assumption | apply ite_keeps | apply runDirection_keeps | apply addLoss_keeps | apply addEnergy_keeps | apply Inv.core) | simp only [↓inv_mk] | split

theorem endCycle_keeps {β : Bool} {κ : Base} (p : Nat) {s : State} (h : Inv β κ s) : Inv β κ (endCycle p s) := by
  unfold endCycle
  try dsimp only
  repeat' first | (with_reducible first | assumption | apply ite_keeps | apply onPoint_keeps | apply onOpenRecs_keeps | apply runDirection_keeps | apply addEnergy_keeps | apply Inv.core) | simp only [↓inv_mk] | split

theorem sampleAc_keeps {β : Bool} {κ : Base} (p : Nat) {s : State} (h : Inv β κ s) : Inv β κ (sampleAc p s) := by
  unfold sampleAc
  try dsimp only
  repeat' first | (with_reducible first | assumption | apply ite_keeps | apply onPoint_keeps | apply endCycle_keeps | apply Inv.core) | simp only [↓inv_mk] | split

theorem samplePoint_keeps {β : Bool} {κ : Base} (p : Nat) {s : State} (h : Inv β κ s) : Inv β κ (samplePoint p s) := by
  unfold samplePoint
  try dsimp only
  repeat' first | (with_reducible first | assumption | apply ite_keeps | apply onOpenRecs_keeps | apply onPoint_keeps | apply sampleAc_keeps | apply sampleDc_keeps | apply Inv.core) | simp only [↓inv_mk] | split

theorem meterSample_keeps {β : Bool} {κ : Base} (bits : List (List Bool)) {s : State} (h : Inv β κ s) : Inv β κ (meterSample
      bits s) := by
  unfold meterSample
  try dsimp only
  repeat' first | (with_reducible first | assumption | apply ite_keeps | refine foldl_keeps ?_ fun _ _ _ => ?_ | apply settleIntervals_keeps | apply stepWall_keeps | apply sampleChannel_keeps | apply samplePoint_keeps | apply heatSlots_keeps | apply Inv.core) | simp only [↓inv_mk] | split

theorem execMeterChannelFaulted_keeps {β : Bool} {κ : Base} (channel : Nat) {s : State} (h : Inv β κ s) : Sat β κ
      (execMeterChannelFaulted channel s) := by
  unfold execMeterChannelFaulted
  repeat' first | (with_reducible first | assumption | apply ite_keeps | apply next_keeps | apply settleChannel_keeps) | simp only [↓reply_mk] | split

theorem execMeterChannelValid_keeps {β : Bool} {κ : Base} (channel : Nat) {s : State} (h : Inv β κ s) : Sat β κ
      (execMeterChannelValid channel s) := by
  unfold execMeterChannelValid
  repeat' first | (with_reducible first | assumption | apply ite_keeps | apply next_keeps | apply settleChannel_keeps) | simp only [↓reply_mk] | split

theorem execDirectionEstablished_keeps {β : Bool} {κ : Base} (point : Nat) {s : State} (h : Inv β κ s) : Sat β κ
      (execDirectionEstablished point s) := by
  unfold execDirectionEstablished
  repeat' first | (with_reducible first | assumption | apply ite_keeps | apply next_keeps | apply settleDirection_keeps) | simp only [↓reply_mk] | split

theorem deliverMeter_keeps {β : Bool} {κ : Base} {s : State} (h : Inv β κ s) : Inv β κ (deliverMeter s) := by
  unfold deliverMeter
  try dsimp only
  repeat' first | (with_reducible first | assumption | apply ite_keeps | apply Inv.core) | simp only [↓inv_mk] | split

theorem execTestPulseStart_keeps {β : Bool} {κ : Base} (output : Nat) {s : State} (h : Inv β κ s) : Sat β κ (execTestPulseStart
      output s) := by
  unfold execTestPulseStart
  try dsimp only
  repeat' first | (with_reducible first | assumption | apply ite_keeps | apply next_keeps | apply Inv.core) | simp only [↓inv_mk] | simp only [↓reply_mk] | split

theorem execTestPulseEnd_keeps {β : Bool} {κ : Base} (output : Nat) {s : State} (h : Inv β κ s) : Sat β κ (execTestPulseEnd
      output s) := by
  unfold execTestPulseEnd
  try dsimp only
  repeat' first | (with_reducible first | assumption | apply ite_keeps | apply next_keeps | apply Inv.core) | simp only [↓inv_mk] | simp only [↓reply_mk] | split

theorem execMtrGetRegisters_keeps {β : Bool} {κ : Base} (r : Req) (point : Nat) {s : State} (h : Inv β κ s) : Sat β κ
      (execMtrGetRegisters r point s) := by
  unfold execMtrGetRegisters
  try dsimp only
  repeat' first | (with_reducible first | assumption | refine checked_keeps ?_ fun _ _ => ?_ | refine command_keeps ?_ fun _ _ => ?_ | apply next_keeps) | simp only [↓reply_mk] | split

theorem execMtrGetPoint_keeps {β : Bool} {κ : Base} (r : Req) (point : Nat) {s : State} (h : Inv β κ s) : Sat β κ
      (execMtrGetPoint r point s) := by
  unfold execMtrGetPoint
  try dsimp only
  repeat' first | (with_reducible first | assumption | apply ite_keeps | refine checked_keeps ?_ fun _ _ => ?_ | refine command_keeps ?_ fun _ _ => ?_ | apply next_keeps | apply Inv.core) | simp only [↓inv_mk] | simp only [↓reply_mk] | split

theorem execMtrGetRecord_keeps {β : Bool} {κ : Base} (r : Req) (mseq : Nat) {s : State} (h : Inv β κ s) : Sat β κ
      (execMtrGetRecord r mseq s) := by
  unfold execMtrGetRecord
  try dsimp only
  repeat' first | (with_reducible first | assumption | apply ite_keeps | refine checked_keeps ?_ fun _ _ => ?_ | refine command_keeps ?_ fun _ _ => ?_ | apply next_keeps | apply recordLegal_keeps | apply Inv.core) | simp only [↓inv_mk] | simp only [↓reply_mk] | split

theorem execMtrRenderRecord_keeps {β : Bool} {κ : Base} (r : Req) (mseq : Nat) (format : Nat) (offset : Nat) {s : State} (h :
      Inv β κ s) : Sat β κ (execMtrRenderRecord r mseq format offset s) := by
  unfold execMtrRenderRecord
  try dsimp only
  repeat' first | (with_reducible first | assumption | apply ite_keeps | refine checked_keeps ?_ fun _ _ => ?_ | refine command_keeps ?_ fun _ _ => ?_ | apply next_keeps | apply accept_keeps | apply Inv.core) | simp only [↓inv_mk] | simp only [↓reply_mk] | split

theorem renderWork_keeps {β : Bool} {κ : Base} (ch : Nat) (m : MRec) (mseq : Nat) (format : Nat) (offset : Nat) {s : State} (h
      : Inv β κ s) : RInv β κ (renderWork ch m mseq format offset s) := by
  unfold renderWork
  try dsimp only
  repeat' first | (with_reducible first | assumption | apply ite_keeps | apply Inv.core) | simp only [↓inv_mk] | simp only [↓reply_mk] | split

theorem ackRecords_keeps {β : Bool} {κ : Base} (mseq : Nat) {s : State} (h : Inv β κ s) : Inv β κ (ackRecords mseq s) := by
  unfold ackRecords
  try dsimp only
  repeat' first | (with_reducible first | assumption | apply ite_keeps | apply raiseIf_keeps | apply goneKick_keeps | apply meterCommit_keeps | apply putWaiting_keeps | apply Inv.core) | simp only [↓inv_mk] | split

theorem execMtrAckRecords_keeps {β : Bool} {κ : Base} (r : Req) (mseq : Nat) {s : State} (h : Inv β κ s) : Sat β κ
      (execMtrAckRecords r mseq s) := by
  unfold execMtrAckRecords
  try dsimp only
  repeat' first | (with_reducible first | assumption | refine checked_keeps ?_ fun _ _ => ?_ | refine command_keeps ?_ fun _ _ => ?_ | apply next_keeps | apply ackRecords_keeps) | simp only [↓reply_mk] | split

theorem execMtrSetWallTime_keeps {β : Bool} {κ : Base} (r : Req) (mode : Nat) (wall : Int) {s : State} (h : Inv β κ s) : Sat β
      κ (execMtrSetWallTime r mode wall s) := by
  unfold execMtrSetWallTime
  try dsimp only
  repeat' first | (with_reducible first | assumption | apply ite_keeps | refine checked_keeps ?_ fun _ _ => ?_ | refine command_keeps ?_ fun _ _ => ?_ | apply next_keeps | apply wallQuality_keeps | apply raise_keeps | apply record_keeps | apply Inv.core) | simp only [↓inv_mk] | simp only [↓reply_mk] | split

theorem execMtrWriteParameters_keeps {β : Bool} {κ : Base} (r : Req) (kind : Nat) (index : Nat) (block : Bytes) {s : State} (h
      : Inv β κ s) : Sat β κ (execMtrWriteParameters r kind index block s) := by
  unfold execMtrWriteParameters
  try dsimp only
  repeat' first | (with_reducible first | assumption | refine command_keeps ?_ fun _ _ => ?_ | apply next_keeps | apply raise_keeps | apply recordLegal_keeps | apply Inv.core) | simp only [↓inv_mk] | simp only [↓reply_mk] | split

theorem execMtrSealParameters_keeps {β : Bool} {κ : Base} (r : Req) {s : State} (h : Inv β κ s) : Sat β κ
      (execMtrSealParameters r s) := by
  unfold execMtrSealParameters
  try dsimp only
  repeat' first | (with_reducible first | assumption | refine command_keeps ?_ fun _ _ => ?_ | apply next_keeps | apply raise_keeps | apply recordLegal_keeps | apply Inv.core) | simp only [↓inv_mk] | simp only [↓reply_mk] | split

theorem execMtrGetLegalId_keeps {β : Bool} {κ : Base} (r : Req) {s : State} (h : Inv β κ s) : Sat β κ (execMtrGetLegalId r s)
      := by
  unfold execMtrGetLegalId
  try dsimp only
  repeat' first | (with_reducible first | assumption | refine command_keeps ?_ fun _ _ => ?_ | apply next_keeps) | simp only [↓reply_mk] | split

theorem execMtrReadParameters_keeps {β : Bool} {κ : Base} (r : Req) (kind : Nat) (index : Nat) {s : State} (h : Inv β κ s) :
      Sat β κ (execMtrReadParameters r kind index s) := by
  unfold execMtrReadParameters
  try dsimp only
  repeat' first | (with_reducible first | assumption | refine checked_keeps ?_ fun _ _ => ?_ | refine command_keeps ?_ fun _ _ => ?_ | apply next_keeps) | simp only [↓reply_mk] | split

theorem interruptedSession_keeps {β : Bool} {κ : Base} (slot : Nat) {s : State} (h : Inv β κ s) : Inv β κ (interruptedSession
      slot s) := by
  unfold interruptedSession
  try dsimp only
  repeat' first | (with_reducible first | assumption | apply ite_keeps | apply putSession_keeps | apply Inv.core) | simp only [↓inv_mk] | split

theorem interruptedInterval_keeps {β : Bool} {κ : Base} (c : MCommit) (p : Nat) {s : State} (h : Inv β κ s) : Inv β κ
      (interruptedInterval c p s) := by
  unfold interruptedInterval
  try dsimp only
  repeat' first | (with_reducible first | assumption | apply ite_keeps | apply putRecord_keeps | apply onPoint_keeps | apply Inv.core) | simp only [↓inv_mk] | split

theorem startMeter_keeps {β : Bool} {κ : Base} {s : State} (h : Inv β κ s) : Inv β κ (startMeter s) := by
  unfold startMeter
  try dsimp only
  repeat' first | (with_reducible first | assumption | apply ite_keeps | refine foldl_keeps ?_ fun _ _ _ => ?_ | apply enterKick_keeps | apply recordLegal_keeps | apply putWaiting_keeps | apply interruptedInterval_keeps | apply onPoint_keeps | apply startInterval_keeps | apply meterCommit_keeps | apply Inv.core) | simp only [↓inv_mk] | split

theorem resetChannel_keeps {β : Bool} {κ : Base} (ch : Nat) {s : State} (h : Inv β κ s) : Inv β κ (resetChannel ch s) :=
  raise_keeps _ (count_keeps _ _ (endEditOf_keeps _ _ (onChan_keeps _ _
    (by simp only [↓inv_mk]; exact h.core) fun _ _ => rfl)))

theorem endConnection_keeps {β : Bool} {κ : Base} (ch : Nat) {s : State} (h : Inv β κ s) : Inv β κ (endConnection ch s) := by
  unfold endConnection
  try dsimp only
  repeat' first | (with_reducible first | assumption | apply raise_keeps | apply resetChannel_keeps | apply onChan_keeps | apply Inv.core) | exact fun _ e => e | simp only [↓inv_mk] | split

theorem refusePointer_keeps {β : Bool} {κ : Base} (ch : Nat) {s : State} (h : Inv β κ s) : Inv β κ (refusePointer ch s) := by
  unfold refusePointer
  repeat' first | (with_reducible first | assumption | apply raise_keeps | apply count_keeps | apply winErr_keeps) | split

theorem writeReqProd_keeps {β : Bool} {κ : Base} (ch : Nat) (v : Nat) {s : State} (h : Inv β κ s) : Inv β κ (writeReqProd ch v
      s) := by
  unfold writeReqProd
  try dsimp only
  repeat' first | (with_reducible first | assumption | apply ite_keeps | apply onChan_keeps | apply refusePointer_keeps | apply Inv.core) | exact fun _ e => e | simp only [↓inv_mk] | split

theorem writeRspCons_keeps {β : Bool} {κ : Base} (ch : Nat) (v : Nat) {s : State} (h : Inv β κ s) : Inv β κ (writeRspCons ch v
      s) := by
  unfold writeRspCons
  try dsimp only
  repeat' first | (with_reducible first | assumption | apply ite_keeps | apply onChan_keeps | apply refusePointer_keeps | apply Inv.core) | exact fun _ e => e | simp only [↓inv_mk] | split

theorem writeEnable_keeps {β : Bool} {κ : Base} (ch : Nat) (on : Bool) {s : State} (h : Inv β κ s) : Inv β κ (writeEnable ch on
      s) := by
  unfold writeEnable
  try dsimp only
  repeat' first | (with_reducible first | assumption | apply ite_keeps | apply onChan_keeps | apply resetChannel_keeps | apply Inv.core) | exact fun _ e => e | simp only [↓inv_mk] | split

theorem writeCtrl_keeps {β : Bool} {κ : Base} (ch : Nat) (v : Word) {s : State} (h : Inv β κ s) : Inv β κ (writeCtrl ch v s) := by
  unfold writeCtrl
  try dsimp only
  repeat' first | (with_reducible first | assumption | apply ite_keeps | apply onChan_keeps | apply resetChannel_keeps | apply Inv.core) | exact fun _ e => e | simp only [↓inv_mk] | split

theorem writeEn_keeps {β : Bool} {κ : Base} (m : Nat) (v : Word) {s : State} (h : Inv β κ s) : Inv β κ (writeEn m v s) := by
  unfold writeEn
  try dsimp only
  repeat' first | (with_reducible first | assumption | apply ite_keeps | apply Inv.core) | simp only [↓inv_mk] | split

theorem clearPend_keeps {β : Bool} {κ : Base} (m : Nat) (value : Word) (set : Word) {s : State} (h : Inv β κ s) : Inv β κ
      (clearPend m value set s) := by
  unfold clearPend
  try dsimp only
  repeat' first | (with_reducible first | assumption | refine foldl_keeps ?_ fun _ _ _ => ?_ | apply raiseIf_keeps | apply Inv.core) | simp only [↓inv_mk] | split

theorem clearErr_keeps {β : Bool} {κ : Base} (value : Word) (set : Word) {s : State} (h : Inv β κ s) : Inv β κ (clearErr value
      set s) := by
  unfold clearErr
  try dsimp only
  repeat' first | (with_reducible first | assumption | apply Inv.core) | simp only [↓inv_mk] | split

theorem writeReg_keeps {β : Bool} {κ : Base} (r : Reg) (v : Word) {s : State} (h : Inv β κ s) : Inv β κ (writeReg r v s) := by
  unfold writeReg
  try dsimp only
  repeat' first | (with_reducible first | assumption | apply winErr_keeps | apply clearErr_keeps | apply clearPend_keeps | apply writeEn_keeps | apply writeCtrl_keeps | apply writeReqProd_keeps | apply writeRspCons_keeps | apply Inv.core) | simp only [↓inv_mk] | split

theorem winErrs_keeps {β : Bool} {κ : Base} (l : List Nat) {s : State} (h : Inv β κ s) : Inv β κ (winErrs l s) := by
  unfold winErrs
  try dsimp only
  repeat' first | (with_reducible first | assumption | refine foldl_keeps ?_ fun _ _ _ => ?_ | apply winErr_keeps) | split

theorem writePiece_keeps {β : Bool} {κ : Base} (p : Nat × Nat) (d : Bytes) {s : State} (h : Inv β κ s) : Inv β κ (writePiece p
      d s) := by
  unfold writePiece; split
  · split
    · split
      · exact writeReg_keeps _ _ h
      · exact h
    · exact ring_keeps _ _ h
  · exact winErrs_keeps _ h

theorem writePieces_keeps {β : Bool} {κ : Base} (l : List (Nat × Nat)) (d : Bytes) {s : State} (h : Inv β κ s) : Inv β κ
      (writePieces l d s) := by
  induction l generalizing d s with
  | nil => exact h
  | cons p l ih => exact ih _ (writePiece_keeps _ _ h)

theorem execRegisterWrite_keeps {β : Bool} {κ : Base} (address : Nat) (data : Bytes) {s : State} (h : Inv β κ s) : Sat β κ
      (execRegisterWrite address data s) := by
  unfold execRegisterWrite
  repeat' first | (with_reducible first | assumption | apply ite_keeps | apply next_keeps | apply writePieces_keeps) | simp only [↓reply_mk] | split

theorem execErroneousWindowRead_keeps {β : Bool} {κ : Base} (address : Nat) (count : Nat) {s : State} (h : Inv β κ s) : Sat β κ
      (execErroneousWindowRead address count s) := by
  unfold execErroneousWindowRead
  try dsimp only
  repeat' first | (with_reducible first | assumption | apply ite_keeps | apply next_keeps | apply winErrs_keeps | apply count_keeps | apply Inv.core) | simp only [↓inv_mk] | simp only [↓reply_mk] | split

theorem execQspiUnknownInstruction_keeps {β : Bool} {κ : Base} (_instruction : Nat) (_data : Bytes) {s : State} (h : Inv β κ s)
      : Sat β κ (execQspiUnknownInstruction _instruction _data s) := by
  unfold execQspiUnknownInstruction
  repeat' first | (with_reducible first | assumption | apply next_keeps) | simp only [↓reply_mk] | split

theorem execChnReqProdWrite_keeps {β : Bool} {κ : Base} (ch : Nat) (value : Word) {s : State} (h : Inv β κ s) : Sat β κ
      (execChnReqProdWrite ch value s) := by
  unfold execChnReqProdWrite
  repeat' first | (with_reducible first | assumption | apply ite_keeps | apply next_keeps | apply writeReg_keeps) | simp only [↓reply_mk] | split

theorem execChnRspConsWrite_keeps {β : Bool} {κ : Base} (ch : Nat) (value : Word) {s : State} (h : Inv β κ s) : Sat β κ
      (execChnRspConsWrite ch value s) := by
  unfold execChnRspConsWrite
  repeat' first | (with_reducible first | assumption | apply ite_keeps | apply next_keeps | apply writeReg_keeps) | simp only [↓reply_mk] | split

theorem execChnCtrlReset_keeps {β : Bool} {κ : Base} (ch : Nat) {s : State} (h : Inv β κ s) : Sat β κ (execChnCtrlReset ch s)
      := by
  unfold execChnCtrlReset
  repeat' first | (with_reducible first | assumption | apply ite_keeps | apply next_keeps | apply resetChannel_keeps) | simp only [↓reply_mk] | split

theorem execChnCtrlEnable_keeps {β : Bool} {κ : Base} (ch : Nat) (on : Bool) {s : State} (h : Inv β κ s) : Sat β κ
      (execChnCtrlEnable ch on s) := by
  unfold execChnCtrlEnable
  repeat' first | (with_reducible first | assumption | apply ite_keeps | apply next_keeps | apply writeEnable_keeps) | simp only [↓reply_mk] | split

theorem execWinErrClear_keeps {β : Bool} {κ : Base} (value : Word) (set : Word) {s : State} (h : Inv β κ s) : Sat β κ
      (execWinErrClear value set s) := by
  unfold execWinErrClear
  repeat' first | (with_reducible first | assumption | apply ite_keeps | apply next_keeps | apply clearErr_keeps) | simp only [↓reply_mk] | split

theorem execEvPendClear_keeps {β : Bool} {κ : Base} (m : Nat) (value : Word) (set : Word) {s : State} (h : Inv β κ s) : Sat β κ
      (execEvPendClear m value set s) := by
  unfold execEvPendClear
  repeat' first | (with_reducible first | assumption | apply ite_keeps | apply next_keeps | apply clearPend_keeps) | simp only [↓reply_mk] | split

theorem execBellCtrlWrite_keeps {β : Bool} {κ : Base} (value : Word) {s : State} (h : Inv β κ s) : Sat β κ (execBellCtrlWrite
      value s) := by
  unfold execBellCtrlWrite
  repeat' first | (with_reducible first | assumption | apply ite_keeps | apply next_keeps | apply writeReg_keeps) | simp only [↓reply_mk] | split

theorem endUses_keeps {β : Bool} {κ : Base} (n : Nat) {s : State} (h : Inv β κ s) : Inv β κ (endUses n s) := by
  unfold endUses
  try dsimp only
  repeat' first | (with_reducible first | assumption | apply ite_keeps | refine foldl_keeps ?_ fun _ _ _ => ?_ | apply endConnection_keeps | apply linkDown_keeps | apply chans_map | apply Inv.core) | exact fun _ _ e => e | exact fun _ _ _ => rfl | exact fun _ e => e | exact fun _ _ => rfl | exact fun _ _ => ⟨rfl, rfl, rfl⟩ | exact Nat.le_succ _ | simp only [↓inv_mk] | split

theorem writeSlot_keeps {β : Bool} {κ : Base} (n : Nat) (key : KeyCopy) {s : State} (h : Inv β κ s) : Inv β κ (writeSlot n key
      s) := by
  unfold writeSlot
  try dsimp only
  repeat' first | (with_reducible first | assumption | apply ite_keeps | apply endUses_keeps | apply raise_keeps | apply slots_upd | apply Inv.core) | exact fun _ _ e => e | exact fun _ _ _ => rfl | exact fun _ e => e | exact fun _ _ => rfl | exact fun _ _ => ⟨rfl, rfl, rfl⟩ | exact Nat.le_succ _ | simp only [↓inv_mk] | split

theorem installKey_keeps {β : Bool} {κ : Base} (n : Nat) (key : KeyCopy) {s : State} (h : Inv β κ s) : Inv β κ (installKey n
      key s) := by
  unfold installKey
  try dsimp only
  repeat' first | (with_reducible first | assumption | apply writeSlot_keeps | apply record_keeps | apply Inv.core) | simp only [↓inv_mk] | split

theorem revokeSlot_keeps {β : Bool} {κ : Base} (n : Nat) {s : State} (h : Inv β κ s) : Inv β κ (revokeSlot n s) := by
  unfold revokeSlot
  try dsimp only
  repeat' first | (with_reducible first | assumption | apply raise_keeps | apply record_keeps | apply writeSlot_keeps | apply Inv.core) | simp only [↓inv_mk] | split

theorem eraseSlot_keeps {β : Bool} {κ : Base} (n : Nat) {s : State} (h : Inv β κ s) : Inv β κ (eraseSlot n s) := by
  unfold eraseSlot
  try dsimp only
  repeat' first | (with_reducible first | assumption | apply raise_keeps | apply record_keeps | apply endUses_keeps | apply slots_upd | apply Inv.core) | exact fun _ _ e => e | exact fun _ _ _ => rfl | exact fun _ e => e | exact fun _ _ => rfl | exact fun _ _ => ⟨rfl, rfl, rfl⟩ | exact Nat.le_succ _ | simp only [↓inv_mk] | split

theorem resolveSlot_keeps {β : Bool} {κ : Base} {s : State} (n : Nat) (h : Inv β κ s) : Inv β κ (resolveSlot s n) := by
  unfold resolveSlot
  try dsimp only
  repeat' first | (with_reducible first | assumption | apply ite_keeps | apply raise_keeps | apply record_keeps | apply slots_upd | apply Inv.core) | exact fun _ _ e => e | exact fun _ _ _ => rfl | exact fun _ e => e | exact fun _ _ => rfl | exact fun _ _ => ⟨rfl, rfl, rfl⟩ | exact Nat.le_succ _ | simp only [↓inv_mk] | split

theorem resolveSlots_keeps {β : Bool} {κ : Base} {s : State} (h : Inv β κ s) : Inv β κ (resolveSlots s) := by
  unfold resolveSlots
  repeat' first | (with_reducible first | assumption | refine foldl_keeps ?_ fun _ _ _ => ?_ | apply resolveSlot_keeps) | split

theorem wipeKeys_keeps {β : Bool} {κ : Base} {s : State} (h : Inv β κ s) : Inv β κ (wipeKeys s) :=
  { h with slots := (List.length_map _).trans (List.length_zipIdx.trans h.slots) }

theorem execKeyGetSlot_keeps {β : Bool} {κ : Base} (r : Req) (slot : Nat) {s : State} (h : Inv β κ s) : Sat β κ (execKeyGetSlot
      r slot s) := by
  unfold execKeyGetSlot
  try dsimp only
  repeat' first | (with_reducible first | assumption | apply ite_keeps | refine checked_keeps ?_ fun _ _ => ?_ | refine command_keeps ?_ fun _ _ => ?_ | apply next_keeps | apply Inv.core) | simp only [↓inv_mk] | simp only [↓reply_mk] | split

theorem startWrite_keeps {β : Bool} {κ : Base} (k : Cmd) (r : Req) (slot : Nat) (key : KeyCopy) {s : State} (h : Inv β κ s) :
      RInv β κ (startWrite k r slot key s) := by
  unfold startWrite
  try dsimp only
  repeat' first | (with_reducible first | assumption | apply ite_keeps | apply accept_keeps | apply installKey_keeps | apply Inv.core) | simp only [↓inv_mk] | simp only [↓reply_mk] | split

theorem execKeyGenerate_keeps {β : Bool} {κ : Base} (r : Req) (slot : Nat) (attr : KeyAttr) (label : Bytes) {s : State} (h :
      Inv β κ s) : Sat β κ (execKeyGenerate r slot attr label s) := by
  unfold execKeyGenerate
  try dsimp only
  repeat' first | (with_reducible first | assumption | refine checked_keeps ?_ fun _ _ => ?_ | refine command_keeps ?_ fun _ _ => ?_ | apply next_keeps | apply startWrite_keeps | apply drawn_keeps | apply Inv.core) | simp only [↓inv_mk] | simp only [↓reply_mk] | split

theorem putImport_keeps {β : Bool} {κ : Base} (ch : Nat) (slot : Nat) (data : Option Bytes) {s : State} (h : Inv β κ s) : Inv β
      κ (putImport ch slot data s) := by
  unfold putImport
  try dsimp only
  repeat' first | (with_reducible first | assumption | apply Inv.core) | simp only [↓inv_mk] | split

theorem execKeyImport_keeps {β : Bool} {κ : Base} (r : Req) (slot : Nat) (attr : KeyAttr) (label : Bytes) (offset : Nat) (final
      : Nat) (data : Bytes) {s : State} (h : Inv β κ s) : Sat β κ (execKeyImport r slot attr label offset final data s) := by
  unfold execKeyImport
  try dsimp only
  repeat' first | (with_reducible first | assumption | apply ite_keeps | refine checked_keeps ?_ fun _ _ => ?_ | refine command_keeps ?_ fun _ _ => ?_ | apply next_keeps | apply installKey_keeps | apply putImport_keeps | apply Inv.core) | simp only [↓inv_mk] | simp only [↓reply_mk] | split

theorem execKeyDerive_keeps {β : Bool} {κ : Base} (r : Req) (parent : Nat) (child : Nat) (attr : KeyAttr) (label : Bytes) {s :
      State} (h : Inv β κ s) : Sat β κ (execKeyDerive r parent child attr label s) := by
  unfold execKeyDerive
  try dsimp only
  repeat' first | (with_reducible first | assumption | apply ite_keeps | refine checked_keeps ?_ fun _ _ => ?_ | refine command_keeps ?_ fun _ _ => ?_ | apply next_keeps | apply startWrite_keeps | apply Inv.core) | simp only [↓inv_mk] | simp only [↓reply_mk] | split

theorem execKeyRevoke_keeps {β : Bool} {κ : Base} (r : Req) (slot : Nat) {s : State} (h : Inv β κ s) : Sat β κ (execKeyRevoke r
      slot s) := by
  unfold execKeyRevoke
  try dsimp only
  repeat' first | (with_reducible first | assumption | refine checked_keeps ?_ fun _ _ => ?_ | refine command_keeps ?_ fun _ _ => ?_ | apply next_keeps | apply revokeSlot_keeps | apply Inv.core) | simp only [↓inv_mk] | simp only [↓reply_mk] | split

theorem execKeyErase_keeps {β : Bool} {κ : Base} (r : Req) (slot : Nat) {s : State} (h : Inv β κ s) : Sat β κ (execKeyErase r
      slot s) := by
  unfold execKeyErase
  try dsimp only
  repeat' first | (with_reducible first | assumption | refine checked_keeps ?_ fun _ _ => ?_ | refine command_keeps ?_ fun _ _ => ?_ | apply next_keeps | apply eraseSlot_keeps) | simp only [↓reply_mk] | split

theorem execKeyExport_keeps {β : Bool} {κ : Base} (r : Req) (slot : Nat) {s : State} (h : Inv β κ s) : Sat β κ (execKeyExport r
      slot s) := by
  unfold execKeyExport
  try dsimp only
  repeat' first | (with_reducible first | assumption | apply ite_keeps | refine checked_keeps ?_ fun _ _ => ?_ | refine command_keeps ?_ fun _ _ => ?_ | apply next_keeps | apply Inv.core) | simp only [↓inv_mk] | simp only [↓reply_mk] | split

theorem execKeySign_keeps {β : Bool} {κ : Base} (r : Req) (slot : Nat) (digest : Bytes) {s : State} (h : Inv β κ s) : Sat β κ
      (execKeySign r slot digest s) := by
  unfold execKeySign
  try dsimp only
  repeat' first | (with_reducible first | assumption | apply ite_keeps | refine checked_keeps ?_ fun _ _ => ?_ | refine command_keeps ?_ fun _ _ => ?_ | apply next_keeps | apply accept_keeps | apply Inv.core) | simp only [↓inv_mk] | simp only [↓reply_mk] | split

theorem execKeyAttest_keeps {β : Bool} {κ : Base} (r : Req) (nonce : Bytes) {s : State} (h : Inv β κ s) : Sat β κ
      (execKeyAttest r nonce s) := by
  unfold execKeyAttest
  try dsimp only
  repeat' first | (with_reducible first | assumption | refine checked_keeps ?_ fun _ _ => ?_ | refine command_keeps ?_ fun _ _ => ?_ | apply next_keeps | apply accept_keeps | apply Inv.core) | simp only [↓inv_mk] | simp only [↓reply_mk] | split

theorem execKeyGetCertificate_keeps {β : Bool} {κ : Base} (r : Req) (which : Nat) (offset : Nat) {s : State} (h : Inv β κ s) :
      Sat β κ (execKeyGetCertificate r which offset s) := by
  unfold execKeyGetCertificate
  try dsimp only
  repeat' first | (with_reducible first | assumption | refine checked_keeps ?_ fun _ _ => ?_ | refine command_keeps ?_ fun _ _ => ?_ | apply next_keeps) | simp only [↓reply_mk] | split

theorem openCred_keeps {β : Bool} {κ : Base} (r : Req) (kind : Nat) (slot : Nat) (eph : Bytes) {s : State} (h : Inv β κ s) :
      RInv β κ (openCred r kind slot eph s) := by
  unfold openCred
  try dsimp only
  repeat' first | (with_reducible first | assumption | apply record_keeps | apply drawn_keeps | apply onChan_keeps | apply Inv.core) | exact fun _ e => e | simp only [↓inv_mk] | simp only [↓reply_mk] | split

theorem execSysOpenCredential_keeps {β : Bool} {κ : Base} (r : Req) (kind : Nat) (slot : Nat) (eph : Bytes) (sig : Sig) {s :
      State} (h : Inv β κ s) : Sat β κ (execSysOpenCredential r kind slot eph sig s) := by
  unfold execSysOpenCredential
  try dsimp only
  repeat' first | (with_reducible first | assumption | apply ite_keeps | refine command_keeps ?_ fun _ _ => ?_ | apply next_keeps | apply record_keeps | apply openCred_keeps | apply Inv.core) | simp only [↓inv_mk] | simp only [↓reply_mk] | split

theorem execSysCloseCredential_keeps {β : Bool} {κ : Base} (r : Req) (handle : Nat) {s : State} (h : Inv β κ s) : Sat β κ
      (execSysCloseCredential r handle s) := by
  unfold execSysCloseCredential
  try dsimp only
  repeat' first | (with_reducible first | assumption | refine checked_keeps ?_ fun _ _ => ?_ | refine command_keeps ?_ fun _ _ => ?_ | apply next_keeps | apply onChan_keeps | apply Inv.core) | exact fun _ e => e | simp only [↓inv_mk] | simp only [↓reply_mk] | split

end Sys2Proof.Machine
end

