-- ==== Sys2Proof/Laws/KeepPart.lean ====
section
/-!
SUPPORT. Keeping the sound state and the queue (Laws/Keep.lean): the recorder, the pair and the peloton, images, system, sessions and boot.
-/
namespace Sys2Proof.Machine

/-- A partition may change where the LEGAL partition keeps its records in NOR and its floor. -/
theorem onPart_keeps {b : Bool} {q : Base} (p : Nat) (f : Part → Part) {s : State} (h : Inv b q s)
    (hf : p - 1 = 0 → ∀ p, (f p).nor = p.nor ∧ (f p).floor = p.floor ∧ (f p).oldest = p.oldest) : Inv b q (onPart p f s) := by
  unfold onPart; simp only [↓inv_mk]; exact parts_upd h hf

theorem makeRoom_keeps {b : Bool} {q : Base} (p : Nat) {s : State} (h : Inv b q s) : Inv b q (makeRoom p s) := by
  unfold makeRoom; dsimp only; split
  · exact h
  · rename_i e
    simp only [Bool.or_eq_true, decide_eq_true_eq, not_or, Nat.not_le] at e
    exact raise_keeps _ (onPart_keeps _ _ h fun h0 => by omega)

theorem commitPart_keeps {β : Bool} {κ : Base} (d : Draft) (params : Bytes) (more : Bool) {s : State} (h : Inv β κ s) : Inv β κ
      (commitPart d params more s) := by
  unfold commitPart
  try dsimp only
  repeat' first | (with_reducible first | assumption | apply ite_keeps | apply makeRoom_keeps | apply onPart_keeps | apply area_app | apply Inv.core) | exact fun _ _ e => e | exact fun _ _ _ => rfl | exact fun _ e => e | exact fun _ _ => rfl | exact fun _ _ => ⟨rfl, rfl, rfl⟩ | exact Nat.le_succ _ | simp only [↓inv_mk] | split

theorem commitParts_keeps {β : Bool} {κ : Base} (d : Draft) (n : Nat) (p : Bytes) {s : State} (h : Inv β κ s) : Inv β κ
      (commitParts d n p s) := by
  induction n generalizing p s with
  | zero => exact h
  | succ n ih => exact ih _ (commitPart_keeps _ _ _ h)

theorem commitDraft_keeps {β : Bool} {κ : Base} (d : Draft) {s : State} (h : Inv β κ s) : Inv β κ (commitDraft d s) := by
  unfold commitDraft
  repeat' first | (with_reducible first | assumption | apply commitParts_keeps) | split

theorem commitQueue_keeps {β : Bool} {κ : Base} (l : List Draft) (n : Nat) {s : State} (h : Inv β κ s) : Inv β κ (commitQueue l
      n s) := by
  induction l generalizing n s with
  | nil => unfold commitQueue; simp only [↓inv_mk]; exact h.core
  | cons d l ih =>
    unfold commitQueue
    refine ite_keeps (ih _ (commitDraft_keeps _ h)) ?_
    simp only [↓inv_mk]; exact h.core

theorem enterWaiting_keeps {β : Bool} {κ : Base} {s : State} (h : Inv β κ s) : Inv β κ (enterWaiting s) := by
  unfold enterWaiting
  try dsimp only
  repeat' first | (with_reducible first | assumption | apply Inv.core) | simp only [↓inv_mk] | split

theorem reportDrops_keeps {β : Bool} {κ : Base} {s : State} (h : Inv β κ s) : Inv β κ (reportDrops s) := by
  unfold reportDrops
  try dsimp only
  repeat' first | (with_reducible first | assumption | apply ite_keeps | apply intake_keeps | apply Inv.core) | simp only [↓inv_mk] | split

theorem closeWindows_keeps {β : Bool} {κ : Base} {s : State} (h : Inv β κ s) : Inv β κ (closeWindows s) := by
  unfold closeWindows
  try dsimp only
  repeat' first | (with_reducible first | assumption | apply ite_keeps | refine foldl_keeps ?_ fun _ _ _ => ?_ | apply closeWindow_keeps) | split

theorem execRateLimitWindowEnd_keeps {β : Bool} {κ : Base} (code : Nat) {s : State} (h : Inv β κ s) : Sat β κ
      (execRateLimitWindowEnd code s) := by
  unfold execRateLimitWindowEnd
  try dsimp only
  repeat' first | (with_reducible first | assumption | apply ite_keeps | apply next_keeps | apply closeWindow_keeps) | simp only [↓reply_mk] | split

/-- The LEGAL floor may rise. -/
theorem floor_keeps {β : Bool} {κ : Base} (p n : Nat) (c : Option Clear) {s : State} (h : Inv β κ s) (hn : (part s p).floor ≤ n) :
    Inv β κ (onPart p (fun q => { q with floor := n }) { s with recd.clear := c }) := by
  refine { h with legal := fun x hx => ?_, parts := ⟨(upd_length _ _ _).trans h.14.1, part0_upd (P := fun p => p.oldest = 0) h.14.2 fun _ hp => hp⟩ }
  have hl := h.13 x hx
  unfold State.holdsLegal State.legalRecords legalOf at *
  exact part0_upd (P := fun p => x ∈ p.nor ++ s.nvRec.area.filter (fun x => partOf x.code == 1) ∨ x.pidx < p.floor) hl
    fun e hp => hp.imp_right fun hp => by
      unfold part at hn; rw [e] at hn; exact Nat.lt_of_lt_of_le hp hn

theorem settleClearRec_keeps {β : Bool} {κ : Base} {s : State} (h : Inv β κ s) : Inv β κ (settleClearRec s) := by
  unfold settleClearRec; split
  · exact h
  · dsimp only
    refine ite_keeps h (raise_keeps _ (commitDraft_keeps _ (floor_keeps _ _ _ h ?_)))
    split
    · rename_i e
      have hm := List.mem_of_getLast? e
      rw [List.mem_filter] at hm
      have h2 := hm.1
      unfold partRecords at h2
      rw [List.mem_filter] at h2
      have h3 := of_decide_eq_true h2.2
      omega
    · exact Nat.le_refl _

theorem execRecordClearEffect_keeps {β : Bool} {κ : Base} {s : State} (h : Inv β κ s) : Sat β κ (execRecordClearEffect s) := by
  unfold execRecordClearEffect
  repeat' first | (with_reducible first | assumption | apply ite_keeps | apply next_keeps | apply settleClearRec_keeps) | simp only [↓reply_mk] | split

theorem finishClear_keeps {β : Bool} {κ : Base} {s : State} (h : Inv β κ s) : Inv β κ (finishClear s) := by
  unfold finishClear; split
  · rename_i c _
    refine { h with legal := fun x hx => ?_, parts := ⟨(upd_length _ _ _).trans h.14.1, part0_upd (P := fun p => p.oldest = 0) h.14.2 fun e hp => (if_pos (by omega : c.part ≤ 1)).trans hp⟩ }
    have hl := h.13 x hx
    unfold State.holdsLegal State.legalRecords legalOf at *
    refine part0_upd (P := fun p => x ∈ p.nor ++ s.nvRec.area.filter (fun x => partOf x.code == 1) ∨ x.pidx < p.floor) hl fun e hp => ?_
    simp only [List.mem_append] at hp ⊢
    rcases hp with (hp | hp) | hp
    · by_cases hf : (part s c.part).floor ≤ x.pidx
      · exact .inl (.inl (List.mem_filter.2 ⟨hp, by simpa using hf⟩))
      · unfold part at hf; rw [e] at hf; exact .inr (Nat.lt_of_not_le hf)
    · exact .inl (.inr hp)
    · exact .inr hp
  · exact h

theorem recorderEpoch_keeps {β : Bool} {κ : Base} {s : State} (h : Inv β κ s) : Inv β κ (recorderEpoch s) := by
  unfold recorderEpoch
  try dsimp only
  repeat' first | (with_reducible first | assumption | apply reportDrops_keeps | apply closeWindows_keeps | apply enterWaiting_keeps | apply settleClearRec_keeps | apply commitQueue_keeps) | split

theorem flushOne_keeps {β : Bool} {κ : Base} {s : State} (d : Draft) (h : Inv β κ s) : Inv β κ (flushOne s d) := by
  unfold flushOne
  try dsimp only
  repeat' first | (with_reducible first | assumption | apply ite_keeps | apply commitDraft_keeps | apply onPart_keeps | apply Inv.core) | exact fun _ _ e => e | exact fun _ _ _ => rfl | exact fun _ e => e | exact fun _ _ => rfl | exact fun _ _ => ⟨rfl, rfl, rfl⟩ | exact Nat.le_succ _ | simp only [↓inv_mk] | split

theorem flushRecords_keeps {β : Bool} {κ : Base} (last : Draft) {s : State} (h : Inv β κ s) : Inv β κ (flushRecords last s) := by
  unfold flushRecords
  try dsimp only
  repeat' first | (with_reducible first | assumption | refine foldl_keeps ?_ fun _ _ _ => ?_ | apply flushOne_keeps | apply commitDraft_keeps | apply Inv.core) | simp only [↓inv_mk] | split

theorem startRecorder_keeps {β : Bool} {κ : Base} {s : State} (h : Inv β κ s) : Inv β κ (startRecorder s) := by
  unfold startRecorder
  try dsimp only
  repeat' first | (with_reducible first | assumption | apply ite_keeps | apply intake_keeps | apply Inv.core) | simp only [↓inv_mk] | split

theorem execNorRecordCopy_keeps {β : Bool} {κ : Base} (n : Nat) {s : State} (h : Inv β κ s) : Sat β κ (execNorRecordCopy n s)
      := by
  refine next_keeps { h with legal := fun x hx => ?_, parts := ?_ }
  · have hl := h.13 x hx
    have h1 := h.14
    unfold State.holdsLegal State.legalRecords legalOf State.partsOk at *
    dsimp only
    generalize s.nvRec.parts = l at *
    generalize s.nvRec.area = a at *
    cases l with
    | nil => exact nomatch h1.1
    | cons p l =>
      have ho : p.oldest = 0 := h1.2
      simp only [nth, List.zipIdx_cons, List.map_cons, List.getD_cons_zero, ho, Nat.zero_le, decide_true, Bool.and_true, List.mem_append] at hl ⊢
      rcases hl with (hl | hl) | hl
      · exact .inl (.inl (.inl hl))
      · rw [← List.take_append_drop n a, List.filter_append, List.mem_append] at hl
        rcases hl with hl | hl
        · exact .inl (.inl (.inr hl))
        · exact .inl (.inr hl)
      · exact .inr hl
  · have h1 := h.14
    unfold State.partsOk at *
    refine ⟨(List.length_map _).trans (List.length_zipIdx.trans h1.1), ?_⟩
    dsimp only
    generalize s.nvRec.parts = l at *
    cases l with
    | nil => exact nomatch h1.1
    | cons p l => exact h1.2

theorem execRecGetInfo_keeps {β : Bool} {κ : Base} (r : Req) {s : State} (h : Inv β κ s) : Sat β κ (execRecGetInfo r s) := by
  unfold execRecGetInfo
  try dsimp only
  repeat' first | (with_reducible first | assumption | refine command_keeps ?_ fun _ _ => ?_ | apply next_keeps) | simp only [↓reply_mk] | split

theorem execRecRead_keeps {β : Bool} {κ : Base} (r : Req) (p : Nat) (start : Nat) (limit : Nat) (count : Nat) {s : State} (h :
      Inv β κ s) : Sat β κ (execRecRead r p start limit count s) := by
  unfold execRecRead
  try dsimp only
  repeat' first | (with_reducible first | assumption | apply ite_keeps | refine checked_keeps ?_ fun _ _ => ?_ | refine command_keeps ?_ fun _ _ => ?_ | apply next_keeps | apply count_keeps | apply Inv.core) | simp only [↓inv_mk] | simp only [↓reply_mk] | split

theorem execRecGetLimits_keeps {β : Bool} {κ : Base} (r : Req) {s : State} (h : Inv β κ s) : Sat β κ (execRecGetLimits r s) := by
  unfold execRecGetLimits
  try dsimp only
  repeat' first | (with_reducible first | assumption | refine command_keeps ?_ fun _ _ => ?_ | apply next_keeps) | simp only [↓reply_mk] | split

theorem execRecGetChallenge_keeps {β : Bool} {κ : Base} (r : Req) {s : State} (h : Inv β κ s) : Sat β κ (execRecGetChallenge r
      s) := by
  unfold execRecGetChallenge
  try dsimp only
  repeat' first | (with_reducible first | assumption | refine command_keeps ?_ fun _ _ => ?_ | apply next_keeps | apply drawn_keeps | apply Inv.core) | simp only [↓inv_mk] | simp only [↓reply_mk] | split

theorem execRecClear_keeps {β : Bool} {κ : Base} (r : Req) (p : Nat) (limit : Nat) (kind : Nat) (sig : Sig) {s : State} (h :
      Inv β κ s) : Sat β κ (execRecClear r p limit kind sig s) := by
  unfold execRecClear
  try dsimp only
  repeat' first | (with_reducible first | assumption | apply ite_keeps | refine checked_keeps ?_ fun _ _ => ?_ | refine command_keeps ?_ fun _ _ => ?_ | apply next_keeps | apply recordIf_keeps | apply accept_keeps | apply Inv.core) | simp only [↓inv_mk] | simp only [↓reply_mk] | split

theorem execRecWriteNote_keeps {β : Bool} {κ : Base} (r : Req) (note : Bytes) {s : State} (h : Inv β κ s) : Sat β κ
      (execRecWriteNote r note s) := by
  unfold execRecWriteNote
  try dsimp only
  repeat' first | (with_reducible first | assumption | refine checked_keeps ?_ fun _ _ => ?_ | refine command_keeps ?_ fun _ _ => ?_ | apply next_keeps | apply record_keeps) | simp only [↓reply_mk] | split

theorem placeHub_keeps {β : Bool} {κ : Base} {s : State} (h : Inv β κ s) : Inv β κ (placeHub s) := by
  unfold placeHub
  try dsimp only
  repeat' first | (with_reducible first | assumption | apply ite_keeps | apply Inv.core) | simp only [↓inv_mk] | split

theorem driveRings_keeps {β : Bool} {κ : Base} (gen : Nat) (takeover : Bool) {s : State} (h : Inv β κ s) : Inv β κ (driveRings
      gen takeover s) := by
  unfold driveRings
  try dsimp only
  repeat' first | (with_reducible first | assumption | apply ite_keeps | apply Inv.core) | simp only [↓inv_mk] | split

theorem startRings_keeps {β : Bool} {κ : Base} {s : State} (h : Inv β κ s) : Inv β κ (startRings s) := by
  unfold startRings
  repeat' first | (with_reducible first | assumption | apply driveRings_keeps | apply placeHub_keeps) | split

theorem takeService_keeps {β : Bool} {κ : Base} (rules : List Bytes) (groups : List Bytes) (loops : List Bytes) {s : State} (h
      : Inv β κ s) : Inv β κ (takeService rules groups loops s) := by
  unfold takeService
  try dsimp only
  repeat' first | (with_reducible first | assumption | apply Inv.core) | simp only [↓inv_mk] | split

theorem applyShadow_keeps {β : Bool} {κ : Base} (f : ShadowFrame) {s : State} (h : Inv β κ s) : Inv β κ (applyShadow f s) := by
  unfold applyShadow
  try dsimp only
  repeat' first | (with_reducible first | assumption | refine foldl_keeps ?_ fun _ _ _ => ?_ | apply Inv.core) | simp only [↓inv_mk] | split

theorem settleEligible_keeps {β : Bool} {κ : Base} {s : State} (h : Inv β κ s) : Inv β κ (settleEligible s) := by
  unfold settleEligible
  repeat' first | (with_reducible first | assumption | apply ite_keeps | apply raise_keeps | apply tdmEnter_keeps) | split

theorem takeShadow_keeps {β : Bool} {κ : Base} (f : ShadowFrame) {s : State} (h : Inv β κ s) : Inv β κ (takeShadow f s) := by
  unfold takeShadow
  try dsimp only
  repeat' first | (with_reducible first | assumption | apply ite_keeps | apply applyShadow_keeps | apply settleEligible_keeps | apply takeService_keeps | apply Inv.core) | simp only [↓inv_mk] | split

theorem execShadowFrameReceived_keeps {β : Bool} {κ : Base} (f : ShadowFrame) {s : State} (h : Inv β κ s) : Sat β κ
      (execShadowFrameReceived f s) := by
  unfold execShadowFrameReceived
  try dsimp only
  repeat' first | (with_reducible first | assumption | apply ite_keeps | apply next_keeps | apply takeShadow_keeps | apply raise_keeps | apply Inv.core) | simp only [↓inv_mk] | simp only [↓reply_mk] | split

theorem execShadowFramesMissing_keeps {β : Bool} {κ : Base} {s : State} (h : Inv β κ s) : Sat β κ (execShadowFramesMissing s)
      := by
  unfold execShadowFramesMissing
  try dsimp only
  repeat' first | (with_reducible first | assumption | apply ite_keeps | apply next_keeps | apply raise_keeps | apply tdmSync_keeps | apply tdmEnter_keeps | apply Inv.core) | simp only [↓inv_mk] | simp only [↓reply_mk] | split

theorem execBulkTransferReceived_keeps {β : Bool} {κ : Base} (rules : List Bytes) (groups : List Bytes) (loops : List Bytes)
      (authGen : Nat) (period : Nat) {s : State} (h : Inv β κ s) : Sat β κ (execBulkTransferReceived rules groups loops authGen period s) := by
  unfold execBulkTransferReceived
  try dsimp only
  repeat' first | (with_reducible first | assumption | apply ite_keeps | apply next_keeps | apply takeService_keeps | apply Inv.core) | simp only [↓inv_mk] | simp only [↓reply_mk] | split

theorem execStandbyEligible_keeps {β : Bool} {κ : Base} {s : State} (h : Inv β κ s) : Sat β κ (execStandbyEligible s) := by
  unfold execStandbyEligible
  try dsimp only
  repeat' first | (with_reducible first | assumption | apply ite_keeps | apply next_keeps | apply tdmEnter_keeps | apply settleEligible_keeps | apply Inv.core) | simp only [↓inv_mk] | simp only [↓reply_mk] | split

theorem shadowBoundary_keeps {β : Bool} {κ : Base} {s : State} (h : Inv β κ s) : Inv β κ (shadowBoundary s) := by
  unfold shadowBoundary
  try dsimp only
  repeat' first | (with_reducible first | assumption | apply ite_keeps | apply raise_keeps | apply tdmSync_keeps | apply Inv.core) | simp only [↓inv_mk] | split

theorem takeGroups_keeps {β : Bool} {κ : Base} {s : State} (h : Inv β κ s) : Inv β κ (takeGroups s) := by
  unfold takeGroups
  try dsimp only
  repeat' first | (with_reducible first | assumption | apply ite_keeps | refine foldl_keeps ?_ fun _ _ _ => ?_ | apply onGroup_keeps | apply Inv.core) | simp only [↓inv_mk] | split

theorem takeRefs_keeps {β : Bool} {κ : Base} {s : State} (h : Inv β κ s) : Inv β κ (takeRefs s) := by
  unfold takeRefs
  try dsimp only
  repeat' first | (with_reducible first | assumption | apply Inv.core) | simp only [↓inv_mk] | split

theorem takeOver_keeps {β : Bool} {κ : Base} {s : State} (h : Inv β κ s) : Inv β κ (takeOver s) := by
  unfold takeOver
  try dsimp only
  repeat' first | (with_reducible first | assumption | apply applyShadow_keeps | apply takeRefs_keeps | apply takeGroups_keeps | apply driveRings_keeps | apply raise_keeps | apply record_keeps | apply tdmEnter_keeps | apply Inv.core) | simp only [↓inv_mk] | split

theorem coldStart_keeps {β : Bool} {κ : Base} {s : State} (h : Inv β κ s) : Inv β κ (coldStart s) := by
  unfold coldStart
  try dsimp only
  repeat' first | (with_reducible first | assumption | apply startRings_keeps | apply tdmEnter_keeps | apply Inv.core) | simp only [↓inv_mk] | split

theorem gain_keeps {β : Bool} {κ : Base} {s : State} (h : Inv β κ s) : Inv β κ (gain s) := by
  unfold gain
  try dsimp only
  repeat' first | (with_reducible first | assumption | apply ite_keeps | apply takeOver_keeps | apply coldStart_keeps | apply Inv.core) | simp only [↓inv_mk] | split

theorem claim_keeps {β : Bool} {κ : Base} {s : State} (h : Inv β κ s) : Inv β κ (claim s) := by
  unfold claim
  try dsimp only
  repeat' first | (with_reducible first | assumption | apply Inv.core) | simp only [↓inv_mk] | split

theorem execAuthorityClaim_keeps {β : Bool} {κ : Base} {s : State} (h : Inv β κ s) : Sat β κ (execAuthorityClaim s) := by
  unfold execAuthorityClaim
  repeat' first | (with_reducible first | assumption | apply ite_keeps | apply next_keeps | apply claim_keeps) | simp only [↓reply_mk] | split

theorem execClaimGuardEnd_keeps {β : Bool} {κ : Base} (partnerHigh : Bool) {s : State} (h : Inv β κ s) : Sat β κ
      (execClaimGuardEnd partnerHigh s) := by
  unfold execClaimGuardEnd
  try dsimp only
  repeat' first | (with_reducible first | assumption | apply ite_keeps | apply next_keeps | apply gain_keeps | apply fence_keeps | apply Inv.core) | simp only [↓inv_mk] | simp only [↓reply_mk] | split

theorem execBootClaimWaitEnd_keeps {β : Bool} {κ : Base} {s : State} (h : Inv β κ s) : Sat β κ (execBootClaimWaitEnd s) := by
  unfold execBootClaimWaitEnd
  repeat' first | (with_reducible first | assumption | apply ite_keeps | apply next_keeps | apply claim_keeps) | simp only [↓reply_mk] | split

theorem execAuthorityTimerExpiry_keeps {β : Bool} {κ : Base} {s : State} (h : Inv β κ s) : Sat β κ (execAuthorityTimerExpiry s)
      := by
  unfold execAuthorityTimerExpiry
  repeat' first | (with_reducible first | assumption | apply ite_keeps | apply next_keeps | apply lowerAuth_keeps) | simp only [↓reply_mk] | split

theorem execSwitchOverBoundary_keeps {β : Bool} {κ : Base} {s : State} (h : Inv β κ s) : Sat β κ (execSwitchOverBoundary s) := by
  unfold execSwitchOverBoundary
  repeat' first | (with_reducible first | assumption | apply ite_keeps | apply next_keeps | apply lowerAuth_keeps) | simp only [↓reply_mk] | split

theorem execHeartbeatAbsent_keeps {β : Bool} {κ : Base} {s : State} (h : Inv β κ s) : Sat β κ (execHeartbeatAbsent s) := by
  unfold execHeartbeatAbsent
  try dsimp only
  repeat' first | (with_reducible first | assumption | apply ite_keeps | apply next_keeps | apply raise_keeps | apply Inv.core) | simp only [↓inv_mk] | simp only [↓reply_mk] | split

theorem execPartnerClaimSeen_keeps {β : Bool} {κ : Base} {s : State} (h : Inv β κ s) : Sat β κ (execPartnerClaimSeen s) := by
  unfold execPartnerClaimSeen
  try dsimp only
  repeat' first | (with_reducible first | assumption | apply ite_keeps | apply next_keeps | apply Inv.core) | simp only [↓inv_mk] | simp only [↓reply_mk] | split

theorem execPartnerAuthLost_keeps {β : Bool} {κ : Base} (heartbeat : Bool) {s : State} (h : Inv β κ s) : Sat β κ
      (execPartnerAuthLost heartbeat s) := by
  unfold execPartnerAuthLost
  try dsimp only
  repeat' first | (with_reducible first | assumption | apply ite_keeps | apply next_keeps | apply raiseIf_keeps | apply gain_keeps | apply fence_keeps | apply claim_keeps | apply Inv.core) | simp only [↓inv_mk] | simp only [↓reply_mk] | split

theorem execFenceResolved_keeps {β : Bool} {κ : Base} {s : State} (h : Inv β κ s) : Sat β κ (execFenceResolved s) := by
  unfold execFenceResolved
  try dsimp only
  repeat' first | (with_reducible first | assumption | apply ite_keeps | apply next_keeps | apply raise_keeps | apply tdmSync_keeps | apply goneKick_keeps | apply Inv.core) | simp only [↓inv_mk] | simp only [↓reply_mk] | split

theorem onMember_keeps {β : Bool} {κ : Base} (m : Nat) (f : Member → Member) {s : State} (h : Inv β κ s) : Inv β κ (onMember m
      f s) := by
  unfold onMember
  try dsimp only
  repeat' first | (with_reducible first | assumption | apply Inv.core) | simp only [↓inv_mk] | split

theorem memberChanges_keeps {β : Bool} {κ : Base} (m : Nat) (st : Nat) {s : State} (h : Inv β κ s) : Inv β κ (memberChanges m
      st s) := by
  unfold memberChanges
  try dsimp only
  repeat' first | (with_reducible first | assumption | apply ite_keeps | apply raise_keeps | apply record_keeps | apply onMember_keeps | apply raiseIf_keeps | apply Inv.core) | simp only [↓inv_mk] | split

theorem settleMember_keeps {β : Bool} {κ : Base} (m : Nat) {s : State} (h : Inv β κ s) : Inv β κ (settleMember m s) := by
  unfold settleMember
  repeat' first | (with_reducible first | assumption | apply ite_keeps | apply memberChanges_keeps) | split

theorem takeMember_keeps {β : Bool} {κ : Base} (m : Nat) (b : Bytes) {s : State} (h : Inv β κ s) : Inv β κ (takeMember m b s)
      := by
  unfold takeMember
  try dsimp only
  repeat' first | (with_reducible first | assumption | apply ite_keeps | apply onMember_keeps | apply memberChanges_keeps | apply receiveCopy_keeps | apply Inv.core) | simp only [↓inv_mk] | split

theorem execPelotonFrame_keeps {β : Bool} {κ : Base} (slot : Nat) (frame : Bytes) {s : State} (h : Inv β κ s) : Sat β κ
      (execPelotonFrame slot frame s) := by
  unfold execPelotonFrame
  try dsimp only
  repeat' first | (with_reducible first | assumption | apply ite_keeps | apply next_keeps | apply takeMember_keeps | apply onMember_keeps | apply Inv.core) | simp only [↓inv_mk] | simp only [↓reply_mk] | split

theorem execPelotonMemberLost_keeps {β : Bool} {κ : Base} (m : Nat) {s : State} (h : Inv β κ s) : Sat β κ
      (execPelotonMemberLost m s) := by
  unfold execPelotonMemberLost
  repeat' first | (with_reducible first | assumption | apply ite_keeps | apply next_keeps | apply memberChanges_keeps) | simp only [↓reply_mk] | split

theorem execPltSyncLost_keeps {β : Bool} {κ : Base} {s : State} (h : Inv β κ s) : Sat β κ (execPltSyncLost s) := by
  unfold execPltSyncLost
  try dsimp only
  repeat' first | (with_reducible first | assumption | apply ite_keeps | apply next_keeps | apply raise_keeps | apply Inv.core) | simp only [↓inv_mk] | simp only [↓reply_mk] | split

theorem pelotonBoundary_keeps {β : Bool} {κ : Base} {s : State} (h : Inv β κ s) : Inv β κ (pelotonBoundary s) := by
  unfold pelotonBoundary
  try dsimp only
  repeat' first | (with_reducible first | assumption | apply ite_keeps | refine foldl_keeps ?_ fun _ _ _ => ?_ | apply onMember_keeps | apply settleMember_keeps | apply Inv.core) | simp only [↓inv_mk] | split

theorem execTdmGetStatus_keeps {β : Bool} {κ : Base} (r : Req) {s : State} (h : Inv β κ s) : Sat β κ (execTdmGetStatus r s) := by
  unfold execTdmGetStatus
  try dsimp only
  repeat' first | (with_reducible first | assumption | refine command_keeps ?_ fun _ _ => ?_ | apply next_keeps | apply Inv.core) | simp only [↓inv_mk] | simp only [↓reply_mk] | split

theorem execTdmSwitchOver_keeps {β : Bool} {κ : Base} (r : Req) {s : State} (h : Inv β κ s) : Sat β κ (execTdmSwitchOver r s)
      := by
  unfold execTdmSwitchOver
  try dsimp only
  repeat' first | (with_reducible first | assumption | refine checked_keeps ?_ fun _ _ => ?_ | refine command_keeps ?_ fun _ _ => ?_ | apply next_keeps | apply Inv.core) | simp only [↓inv_mk] | simp only [↓reply_mk] | split

theorem execTdmGetPeloton_keeps {β : Bool} {κ : Base} (r : Req) {s : State} (h : Inv β κ s) : Sat β κ (execTdmGetPeloton r s)
      := by
  unfold execTdmGetPeloton
  try dsimp only
  repeat' first | (with_reducible first | assumption | refine command_keeps ?_ fun _ _ => ?_ | apply next_keeps) | simp only [↓reply_mk] | split

theorem imageRefused_keeps {β : Bool} {κ : Base} (kind : Nat) (slot : Nat) {s : State} (h : Inv β κ s) : Inv β κ (imageRefused
      kind slot s) := by
  unfold imageRefused
  repeat' first | (with_reducible first | assumption | apply record_keeps) | split

theorem noteCfg_keeps {β : Bool} {κ : Base} {s : State} (i : Nat) (h : Inv β κ s) : Inv β κ (noteCfg s i) := by
  unfold noteCfg
  repeat' first | (with_reducible first | assumption | apply ite_keeps | apply imageRefused_keeps | apply record_keeps) | split

theorem settleTrial_keeps {β : Bool} {κ : Base} {s : State} (h : Inv β κ s) : Inv β κ (settleTrial s) := by
  unfold settleTrial
  try dsimp only
  repeat' first | (with_reducible first | assumption | apply ite_keeps | apply record_keeps | apply Inv.core) | simp only [↓inv_mk] | split

theorem runImage_keeps {β : Bool} {κ : Base} (i : Nat) {s : State} (h : Inv β κ s) : Inv β κ (runImage i s) := by
  unfold runImage
  try dsimp only
  repeat' first | (with_reducible first | assumption | apply Inv.core) | simp only [↓inv_mk] | split

theorem trial_keeps {β : Bool} {κ : Base} (n : Nat) {s : State} (h : Inv β κ s) : Inv β κ { s with sys.trial := n } := by
  simp only [↓inv_mk]; exact h.core

theorem selectFw_keeps {β : Bool} {κ : Base} {s : State} (h : Inv β κ s) :
    Inv β κ (selectFw s).2 ∧ ∀ t, (selectFw s).1 = some t → Inv β κ t := by
  have h1 := settleTrial_keeps h
  unfold selectFw; dsimp only
  split
  · exact ⟨h1, fun t e => by cases e; exact runImage_keeps _ h1⟩
  · have h2 := imageRefused_keeps 0 (settleTrial s).nv.preferred h1
    split
    · have := fun n => record_keeps 0x3102 srcBoot (u8 1 ++ u8 (1 - (settleTrial s).nv.preferred))
        (runImage_keeps (1 - (settleTrial s).nv.preferred) (trial_keeps n h2))
      exact ⟨this _, fun t e => by cases e; exact this _⟩
    · exact ⟨imageRefused_keeps _ _ h2, fun t e => nomatch e⟩

theorem execSysEchoPayload_keeps {β : Bool} {κ : Base} (r : Req) (data : Bytes) {s : State} (h : Inv β κ s) : Sat β κ
      (execSysEchoPayload r data s) := by
  unfold execSysEchoPayload
  try dsimp only
  repeat' first | (with_reducible first | assumption | refine command_keeps ?_ fun _ _ => ?_ | apply next_keeps) | simp only [↓reply_mk] | split

theorem execSysGetChannelStats_keeps {β : Bool} {κ : Base} (r : Req) (channel : Nat) {s : State} (h : Inv β κ s) : Sat β κ
      (execSysGetChannelStats r channel s) := by
  unfold execSysGetChannelStats
  try dsimp only
  repeat' first | (with_reducible first | assumption | refine checked_keeps ?_ fun _ _ => ?_ | refine command_keeps ?_ fun _ _ => ?_ | apply next_keeps) | simp only [↓reply_mk] | split

theorem execSysGetBootInfo_keeps {β : Bool} {κ : Base} (r : Req) {s : State} (h : Inv β κ s) : Sat β κ (execSysGetBootInfo r s)
      := by
  unfold execSysGetBootInfo
  try dsimp only
  repeat' first | (with_reducible first | assumption | refine command_keeps ?_ fun _ _ => ?_ | apply next_keeps) | simp only [↓reply_mk] | split

theorem execSysResetPart_keeps {β : Bool} {κ : Base} (r : Req) {s : State} (h : Inv β κ s) : Sat β κ (execSysResetPart r s) := by
  unfold execSysResetPart
  try dsimp only
  repeat' first | (with_reducible first | assumption | refine command_keeps ?_ fun _ _ => ?_ | apply next_keeps | apply Inv.core) | simp only [↓inv_mk] | simp only [↓reply_mk] | split

theorem execSysEnterKickstand_keeps {β : Bool} {κ : Base} (r : Req) {s : State} (h : Inv β κ s) : Sat β κ
      (execSysEnterKickstand r s) := by
  unfold execSysEnterKickstand
  try dsimp only
  repeat' first | (with_reducible first | assumption | refine command_keeps ?_ fun _ _ => ?_ | apply next_keeps | apply enterKick_keeps) | simp only [↓reply_mk] | split

theorem execSysGetKickstand_keeps {β : Bool} {κ : Base} (r : Req) {s : State} (h : Inv β κ s) : Sat β κ (execSysGetKickstand r
      s) := by
  unfold execSysGetKickstand
  try dsimp only
  repeat' first | (with_reducible first | assumption | refine command_keeps ?_ fun _ _ => ?_ | apply next_keeps) | simp only [↓reply_mk] | split

theorem leaveKick_keeps {β : Bool} {κ : Base} {s : State} (h : Inv β κ s) : Inv β κ (leaveKick s) :=
  record_keeps _ _ _ (raise_keeps _ { h.weak with off := fun _ hk => nomatch hk })

theorem execSysReleaseKickstand_keeps {β : Bool} {κ : Base} (r : Req) {s : State} (h : Inv β κ s) : Sat β κ
      (execSysReleaseKickstand r s) := by
  unfold execSysReleaseKickstand
  try dsimp only
  repeat' first | (with_reducible first | assumption | apply ite_keeps | refine command_keeps ?_ fun _ _ => ?_ | apply next_keeps | apply leaveKick_keeps) | simp only [↓reply_mk] | split

theorem execSysGetLifecycle_keeps {β : Bool} {κ : Base} (r : Req) {s : State} (h : Inv β κ s) : Sat β κ (execSysGetLifecycle r
      s) := by
  unfold execSysGetLifecycle
  try dsimp only
  repeat' first | (with_reducible first | assumption | refine command_keeps ?_ fun _ _ => ?_ | apply next_keeps | apply drawn_keeps | apply Inv.core) | simp only [↓inv_mk] | simp only [↓reply_mk] | split

theorem noteOpenTransition_keeps {β : Bool} {κ : Base} {s : State} (h : Inv β κ s) : Inv β κ (noteOpenTransition s) := by
  unfold noteOpenTransition
  try dsimp only
  repeat' first | (with_reducible first | assumption | apply record_keeps | apply Inv.core) | simp only [↓inv_mk] | split

theorem execSysSetLifecycle_keeps {β : Bool} {κ : Base} (r : Req) (target : Nat) (token : Token) {s : State} (h : Inv β κ s) :
      Sat β κ (execSysSetLifecycle r target token s) := by
  unfold execSysSetLifecycle
  try dsimp only
  repeat' first | (with_reducible first | assumption | refine checked_keeps ?_ fun _ _ => ?_ | refine command_keeps ?_ fun _ _ => ?_ | apply next_keeps | apply drawn_keeps | apply accept_keeps | apply Inv.core) | simp only [↓inv_mk] | simp only [↓reply_mk] | split

theorem writeImage_keeps {β : Bool} {κ : Base} (t o : Nat) (d : Bytes) {s : State} (h : Inv β κ s) : Inv β κ (writeImage t o d
      s) := by
  unfold writeImage
  exact ite_keeps { h with fw := all_upd h.fw fun _ e => memWrites_wf _ _ e }
    { h with cfg := all_upd h.cfg fun _ e => memWrites_wf _ _ e }

theorem execSysWriteImage_keeps {β : Bool} {κ : Base} (r : Req) (target : Nat) (offset : Nat) (data : Bytes) {s : State} (h :
      Inv β κ s) : Sat β κ (execSysWriteImage r target offset data s) := by
  unfold execSysWriteImage
  try dsimp only
  repeat' first | (with_reducible first | assumption | refine checked_keeps ?_ fun _ _ => ?_ | refine command_keeps ?_ fun _ _ => ?_ | apply next_keeps | apply writeImage_keeps) | simp only [↓reply_mk] | split

theorem execSysActivateImage_keeps {β : Bool} {κ : Base} (r : Req) (target : Nat) {s : State} (h : Inv β κ s) : Sat β κ
      (execSysActivateImage r target s) := by
  unfold execSysActivateImage
  try dsimp only
  repeat' first | (with_reducible first | assumption | refine checked_keeps ?_ fun _ _ => ?_ | refine command_keeps ?_ fun _ _ => ?_ | apply next_keeps | apply accept_keeps | apply drawn_keeps) | simp only [↓reply_mk] | split

theorem activate_keeps {β : Bool} {κ : Base} (n : Nat) {s : State} (h : Inv β κ s) : Inv β κ (activate n s).1 := by
  unfold activate; dsimp only
  repeat' first | (with_reducible first | assumption | apply imageRefused_keeps) | split
  simp only [↓inv_mk]; exact h.core

theorem raiseMin_keeps {β : Bool} {κ : Base} (which new : Nat) {s : State} (h : Inv β κ s) : Inv β κ (raiseMin which new s) := by
  unfold raiseMin; dsimp only
  by_cases e2 : which = 0
  · simp only [if_pos e2]
    split
    · rename_i e; exact record_keeps _ _ _ { h with fwMin := Nat.le_trans h.fwMin (Nat.le_of_lt e) }
    · exact h
  · simp only [if_neg e2]
    split
    · rename_i e; exact record_keeps _ _ _ { h with legalMin := Nat.le_trans h.legalMin (Nat.le_of_lt e) }
    · exact h

theorem execSysConfirmImage_keeps {β : Bool} {κ : Base} (r : Req) {s : State} (h : Inv β κ s) : Sat β κ (execSysConfirmImage r
      s) := by
  unfold execSysConfirmImage
  try dsimp only
  repeat' first | (with_reducible first | assumption | refine checked_keeps ?_ fun _ _ => ?_ | refine command_keeps ?_ fun _ _ => ?_ | apply next_keeps | apply raiseMin_keeps | apply Inv.core) | simp only [↓inv_mk] | simp only [↓reply_mk] | split

theorem startSession_keeps {β : Bool} {κ : Base} (slot : Nat) {s : State} (h : Inv β κ s) : Inv β κ (startSession slot s) := by
  unfold startSession
  try dsimp only
  repeat' first | (with_reducible first | assumption | apply answer_keeps | apply raise_keeps | apply onSes_keeps | apply Inv.core) | simp only [↓inv_mk] | split

theorem settleIdle_keeps {β : Bool} {κ : Base} (slot : Nat) {s : State} (h : Inv β κ s) : Inv β κ (settleIdle slot s) := by
  unfold settleIdle
  try dsimp only
  repeat' first | (with_reducible first | assumption | apply ite_keeps | apply onSes_keeps | apply startSession_keeps | apply Inv.core) | simp only [↓inv_mk] | split

theorem stepInputs_keeps {β : Bool} {κ : Base} (slot : Nat) {s : State} (h : Inv β κ s) : Inv β κ (stepInputs slot s) := by
  unfold stepInputs
  try dsimp only
  repeat' first | (with_reducible first | assumption | apply ite_keeps | apply onLink_keeps | apply onSes_keeps | apply Inv.core) | simp only [↓inv_mk] | split

theorem followSafety_keeps {β : Bool} {κ : Base} (slot : Nat) {s : State} (h : Inv β κ s) : Inv β κ (followSafety slot s) := by
  unfold followSafety
  try dsimp only
  repeat' first | (with_reducible first | assumption | apply ite_keeps | apply command2_keeps) | split

theorem settleHub_keeps {β : Bool} {κ : Base} {s : State} (h : Inv β κ s) : Inv β κ (settleHub s) := by
  unfold settleHub
  try dsimp only
  repeat' first | (with_reducible first | assumption | apply ite_keeps | apply raise_keeps | apply enterKick_keeps | apply Inv.core) | simp only [↓inv_mk] | split

theorem settleWant_keeps {β : Bool} {κ : Base} (slot : Nat) {s : State} (h : Inv β κ s) : Inv β κ (settleWant slot s) := by
  unfold settleWant
  try dsimp only
  repeat' first | (with_reducible first | assumption | apply ite_keeps | apply driveWant_keeps | apply recordIf_keeps) | split

theorem contactLate_keeps {β : Bool} {κ : Base} (slot : Nat) {s : State} (h : Inv β κ s) : Inv β κ (contactLate slot s) := by
  unfold contactLate
  repeat' first | (with_reducible first | assumption | apply ite_keeps | apply contactConfirmed_keeps | apply toEnded_keeps | apply raise_keeps | apply notify_keeps | apply onSes_keeps | apply command2_keeps | apply endCause_keeps) | split

theorem settleContacts_keeps {β : Bool} {κ : Base} (slot : Nat) {s : State} (h : Inv β κ s) : Inv β κ (settleContacts slot s)
      := by
  unfold settleContacts
  repeat' first | (with_reducible first | assumption | apply ite_keeps | apply contactConfirmed_keeps | apply contactLate_keeps) | split

theorem countImd_keeps {β : Bool} {κ : Base} (slot : Nat) {s : State} (h : Inv β κ s) : Inv β κ (countImd slot s) := by
  unfold countImd
  try dsimp only
  repeat' first | (with_reducible first | assumption | apply ite_keeps | apply onSes_keeps | apply Inv.core) | simp only [↓inv_mk] | split

theorem judgeImd_keeps {β : Bool} {κ : Base} (slot : Nat) {s : State} (h : Inv β κ s) : Inv β κ (judgeImd slot s) := by
  unfold judgeImd
  try dsimp only
  repeat' first | (with_reducible first | assumption | apply ite_keeps | apply onSes_keeps | apply raise_keeps | apply record_keeps | apply endCause_keeps | apply Inv.core) | simp only [↓inv_mk] | split

theorem settleImd_keeps {β : Bool} {κ : Base} (slot : Nat) {s : State} (h : Inv β κ s) : Inv β κ (settleImd slot s) := by
  unfold settleImd
  repeat' first | (with_reducible first | assumption | apply ite_keeps | apply judgeImd_keeps) | split

theorem execSessionSequencerStep_keeps {β : Bool} {κ : Base} (slot : Nat) (protocolError : Bool) {s : State} (h : Inv β κ s) :
      Sat β κ (execSessionSequencerStep slot protocolError s) := by
  unfold execSessionSequencerStep
  try dsimp only
  repeat' first | (with_reducible first | assumption | apply ite_keeps | apply next_keeps | apply settleHub_keeps | apply settleContacts_keeps | apply stepInputs_keeps | apply settleImd_keeps | apply countImd_keeps | apply endCauses_keeps | apply settleIdle_keeps | apply settleStopped_keeps | apply followSafety_keeps | apply settleWant_keeps | apply settleOpen_keeps | apply sendRequest_keeps | apply onLink_keeps | apply Inv.core) | simp only [↓inv_mk] | simp only [↓reply_mk] | split

theorem drawPort_keeps {β : Bool} {κ : Base} (slot : Nat) {s : State} (h : Inv β κ s) : Inv β κ (drawPort slot s) := by
  unfold drawPort
  try dsimp only
  repeat' first | (with_reducible first | assumption | apply ite_keeps | apply onLink_keeps | apply drawn_keeps | apply Inv.core) | simp only [↓inv_mk] | split

theorem execSdpRequest_keeps {β : Bool} {κ : Base} (slot : Nat) (vid : Option Nat) {s : State} (h : Inv β κ s) : Sat β κ
      (execSdpRequest slot vid s) := by
  unfold execSdpRequest
  try dsimp only
  repeat' first | (with_reducible first | assumption | apply ite_keeps | apply next_keeps | apply drawPort_keeps | apply answer_keeps) | simp only [↓reply_mk] | split

theorem execSupportedAppProtocolReq_keeps {β : Bool} {κ : Base} (slot : Nat) (offers : List Nat) {s : State} (h : Inv β κ s) :
      Sat β κ (execSupportedAppProtocolReq slot offers s) := by
  unfold execSupportedAppProtocolReq
  try dsimp only
  repeat' first | (with_reducible first | assumption | apply ite_keeps | apply next_keeps | apply answer_keeps | apply onLink_keeps | apply Inv.core) | simp only [↓inv_mk] | simp only [↓reply_mk] | split

theorem execTlsHandshakeComplete_keeps {β : Bool} {κ : Base} (slot : Nat) (keySlot : Nat) (hello : VehicleTls) {s : State} (h :
      Inv β κ s) : Sat β κ (execTlsHandshakeComplete slot keySlot hello s) := by
  unfold execTlsHandshakeComplete
  try dsimp only
  repeat' first | (with_reducible first | assumption | apply ite_keeps | apply next_keeps | apply onLink_keeps | apply Inv.core) | simp only [↓inv_mk] | simp only [↓reply_mk] | split

theorem decide2_keeps {β : Bool} {κ : Base} (slot : Nat) (accept : Bool) (cls : Nat) (ident : Bytes) {s : State} (h : Inv β κ
      s) : Inv β κ (decide2 slot accept cls ident s) := by
  unfold decide2
  try dsimp only
  repeat' first | (with_reducible first | assumption | apply ite_keeps | apply onSes_keeps | apply accept_keeps | apply answer_keeps | apply endCause_keeps | apply Inv.core) | simp only [↓inv_mk] | split

theorem enterAuthorising_keeps {β : Bool} {κ : Base} (slot : Nat) (method : Nat) (ident : Bytes) (chain : List Cert) {s :
      State} (h : Inv β κ s) : Inv β κ (enterAuthorising slot method ident chain s) := by
  unfold enterAuthorising
  try dsimp only
  repeat' first | (with_reducible first | assumption | apply ite_keeps | apply onSes_keeps | apply Inv.core) | simp only [↓inv_mk] | split

theorem execAuthorizationReq_keeps {β : Bool} {κ : Base} (slot : Nat) (method : Nat) (ident : Bytes) (chain : List Cert) {s :
      State} (h : Inv β κ s) : Sat β κ (execAuthorizationReq slot method ident chain s) := by
  unfold execAuthorizationReq
  try dsimp only
  repeat' first | (with_reducible first | assumption | apply ite_keeps | apply next_keeps | apply answer_keeps | apply enterAuthorising_keeps | apply endCause_keeps | apply decide2_keeps | apply raise_keeps | apply onSes_keeps | apply Inv.core) | simp only [↓inv_mk] | simp only [↓reply_mk] | split

theorem execAuthTimeoutExpiry_keeps {β : Bool} {κ : Base} (slot : Nat) {s : State} (h : Inv β κ s) : Sat β κ
      (execAuthTimeoutExpiry slot s) := by
  unfold execAuthTimeoutExpiry
  repeat' first | (with_reducible first | assumption | apply ite_keeps | apply next_keeps | apply decide2_keeps) | simp only [↓reply_mk] | split

theorem execAuthValidityExpiry_keeps {β : Bool} {κ : Base} (slot : Nat) {s : State} (h : Inv β κ s) : Sat β κ
      (execAuthValidityExpiry slot s) := by
  unfold execAuthValidityExpiry
  try dsimp only
  repeat' first | (with_reducible first | assumption | apply ite_keeps | apply next_keeps | apply onSes_keeps | apply Inv.core) | simp only [↓inv_mk] | simp only [↓reply_mk] | split

theorem execVehicleNegotiationRequest_keeps {β : Bool} {κ : Base} (slot : Nat) (service : VehicleService) (dynamic : Bool)
      (limits : VehicleLoop) (schedule : List (Nat × Nat)) {s : State} (h : Inv β κ s) : Sat β κ (execVehicleNegotiationRequest slot service dynamic limits schedule s) := by
  unfold execVehicleNegotiationRequest
  try dsimp only
  repeat' first | (with_reducible first | assumption | apply ite_keeps | apply next_keeps | apply answer_keeps | apply onSes_keeps | apply Inv.core) | simp only [↓inv_mk] | simp only [↓reply_mk] | split

theorem execCableCheckReq_keeps {β : Bool} {κ : Base} (slot : Nat) (vMax : Nat) {s : State} (h : Inv β κ s) : Sat β κ
      (execCableCheckReq slot vMax s) := by
  unfold execCableCheckReq
  try dsimp only
  repeat' first | (with_reducible first | assumption | apply ite_keeps | apply next_keeps | apply answer_keeps | apply startWeld_keeps | apply onSes_keeps | apply Inv.core) | simp only [↓inv_mk] | simp only [↓reply_mk] | split

theorem execPrechargeReq_keeps {β : Bool} {κ : Base} (slot : Nat) (target : Nat) {s : State} (h : Inv β κ s) : Sat β κ
      (execPrechargeReq slot target s) := by
  unfold execPrechargeReq
  try dsimp only
  repeat' first | (with_reducible first | assumption | apply ite_keeps | apply next_keeps | apply answer_keeps | apply onSes_keeps | apply Inv.core) | simp only [↓inv_mk] | simp only [↓reply_mk] | split

theorem execPowerDeliveryStartReq_keeps {β : Bool} {κ : Base} (slot : Nat) (discharge : Bool) {s : State} (h : Inv β κ s) : Sat
      β κ (execPowerDeliveryStartReq slot discharge s) := by
  unfold execPowerDeliveryStartReq
  try dsimp only
  repeat' first | (with_reducible first | assumption | apply ite_keeps | apply next_keeps | apply answer_keeps | apply raise_keeps | apply onSes_keeps | apply Inv.core) | simp only [↓inv_mk] | simp only [↓reply_mk] | split

theorem execPowerDeliveryStopReq_keeps {β : Bool} {κ : Base} (slot : Nat) {s : State} (h : Inv β κ s) : Sat β κ
      (execPowerDeliveryStopReq slot s) := by
  unfold execPowerDeliveryStopReq
  repeat' first | (with_reducible first | assumption | apply ite_keeps | apply next_keeps | apply endCause_keeps) | simp only [↓reply_mk] | split

theorem execDirectionChangeReq_keeps {β : Bool} {κ : Base} (slot : Nat) (exporting : Bool) {s : State} (h : Inv β κ s) : Sat β
      κ (execDirectionChangeReq slot exporting s) := by
  unfold execDirectionChangeReq
  try dsimp only
  repeat' first | (with_reducible first | assumption | apply ite_keeps | apply next_keeps | apply answer_keeps | apply raise_keeps | apply onSes_keeps | apply Inv.core) | simp only [↓inv_mk] | simp only [↓reply_mk] | split

theorem execWeldingDetectionReq_keeps {β : Bool} {κ : Base} (slot : Nat) {s : State} (h : Inv β κ s) : Sat β κ
      (execWeldingDetectionReq slot s) := by
  unfold execWeldingDetectionReq
  repeat' first | (with_reducible first | assumption | apply ite_keeps | apply next_keeps | apply answer_keeps) | simp only [↓reply_mk] | split

theorem execVehicleRenegotiationReq_keeps {β : Bool} {κ : Base} (slot : Nat) (schedule : List (Nat × Nat)) {s : State} (h : Inv
      β κ s) : Sat β κ (execVehicleRenegotiationReq slot schedule s) := by
  unfold execVehicleRenegotiationReq
  try dsimp only
  repeat' first | (with_reducible first | assumption | apply ite_keeps | apply next_keeps | apply answer_keeps | apply raise_keeps | apply onSes_keeps | apply Inv.core) | simp only [↓inv_mk] | simp only [↓reply_mk] | split

theorem execVehicleLoopRequest_keeps {β : Bool} {κ : Base} (slot : Nat) (request : VehicleLoop) {s : State} (h : Inv β κ s) :
      Sat β κ (execVehicleLoopRequest slot request s) := by
  unfold execVehicleLoopRequest
  try dsimp only
  repeat' first | (with_reducible first | assumption | apply ite_keeps | apply next_keeps | apply answer_keeps | apply onSes_keeps | apply Inv.core) | simp only [↓inv_mk] | simp only [↓reply_mk] | split

theorem execGrantReceived_keeps {β : Bool} {κ : Base} (grant : Bytes) {s : State} (h : Inv β κ s) : Sat β κ (execGrantReceived
      grant s) := by
  unfold execGrantReceived
  repeat' first | (with_reducible first | assumption | apply ite_keeps | apply next_keeps | apply receiveGrant_keeps) | simp only [↓reply_mk] | split

theorem execContactorConfirmed_keeps {β : Bool} {κ : Base} (slot : Nat) {s : State} (h : Inv β κ s) : Sat β κ
      (execContactorConfirmed slot s) := by
  unfold execContactorConfirmed
  repeat' first | (with_reducible first | assumption | apply ite_keeps | apply next_keeps | apply contactConfirmed_keeps) | simp only [↓reply_mk] | split

theorem execContactorConfirmTimeout_keeps {β : Bool} {κ : Base} (slot : Nat) {s : State} (h : Inv β κ s) : Sat β κ
      (execContactorConfirmTimeout slot s) := by
  unfold execContactorConfirmTimeout
  repeat' first | (with_reducible first | assumption | apply ite_keeps | apply next_keeps | apply contactLate_keeps) | simp only [↓reply_mk] | split

theorem execWeldTestStepRead_keeps {β : Bool} {κ : Base} (slot : Nat) {s : State} (h : Inv β κ s) : Sat β κ
      (execWeldTestStepRead slot s) := by
  unfold execWeldTestStepRead
  repeat' first | (with_reducible first | assumption | apply ite_keeps | apply next_keeps | apply weldRead_keeps) | simp only [↓reply_mk] | split

theorem execPostcheckGrantTimeout_keeps {β : Bool} {κ : Base} (slot : Nat) {s : State} (h : Inv β κ s) : Sat β κ
      (execPostcheckGrantTimeout slot s) := by
  unfold execPostcheckGrantTimeout
  repeat' first | (with_reducible first | assumption | apply ite_keeps | apply next_keeps | apply toEnded_keeps | apply openAtOnce_keeps | apply deferCheck_keeps) | simp only [↓reply_mk] | split

theorem execImdSettleComplete_keeps {β : Bool} {κ : Base} (slot : Nat) {s : State} (h : Inv β κ s) : Sat β κ
      (execImdSettleComplete slot s) := by
  unfold execImdSettleComplete
  repeat' first | (with_reducible first | assumption | apply ite_keeps | apply next_keeps | apply settleImd_keeps) | simp only [↓reply_mk] | split

theorem execCableCheckMaxExpiry_keeps {β : Bool} {κ : Base} (slot : Nat) {s : State} (h : Inv β κ s) : Sat β κ
      (execCableCheckMaxExpiry slot s) := by
  unfold execCableCheckMaxExpiry
  try dsimp only
  repeat' first | (with_reducible first | assumption | apply ite_keeps | apply next_keeps | apply endCause_keeps | apply raise_keeps | apply onSes_keeps | apply Inv.core) | simp only [↓inv_mk] | simp only [↓reply_mk] | split

theorem execPrechargeTimeout_keeps {β : Bool} {κ : Base} (slot : Nat) {s : State} (h : Inv β κ s) : Sat β κ
      (execPrechargeTimeout slot s) := by
  unfold execPrechargeTimeout
  repeat' first | (with_reducible first | assumption | apply ite_keeps | apply next_keeps | apply endCause_keeps) | simp only [↓reply_mk] | split

theorem execRenegHoldExpiry_keeps {β : Bool} {κ : Base} (slot : Nat) {s : State} (h : Inv β κ s) : Sat β κ (execRenegHoldExpiry
      slot s) := by
  unfold execRenegHoldExpiry
  try dsimp only
  repeat' first | (with_reducible first | assumption | apply ite_keeps | apply next_keeps | apply raiseReneg_keeps | apply onSes_keeps | apply Inv.core) | simp only [↓inv_mk] | simp only [↓reply_mk] | split

theorem execOutletCurrentAtOpen_keeps {β : Bool} {κ : Base} (slot : Nat) {s : State} (h : Inv β κ s) : Sat β κ
      (execOutletCurrentAtOpen slot s) := by
  unfold execOutletCurrentAtOpen
  repeat' first | (with_reducible first | assumption | apply ite_keeps | apply next_keeps | apply settleOpen_keeps) | simp only [↓reply_mk] | split

theorem execEndTimeoutExpiry_keeps {β : Bool} {κ : Base} (slot : Nat) {s : State} (h : Inv β κ s) : Sat β κ
      (execEndTimeoutExpiry slot s) := by
  unfold execEndTimeoutExpiry
  repeat' first | (with_reducible first | assumption | apply ite_keeps | apply next_keeps | apply openInWindow_keeps | apply forcedOpen_keeps) | simp only [↓reply_mk] | split

theorem execUrgentStop100msExpiry_keeps {β : Bool} {κ : Base} (slot : Nat) {s : State} (h : Inv β κ s) : Sat β κ
      (execUrgentStop100msExpiry slot s) := by
  unfold execUrgentStop100msExpiry
  repeat' first | (with_reducible first | assumption | apply ite_keeps | apply next_keeps | apply openAtOnce_keeps | apply forcedOpen_keeps) | simp only [↓reply_mk] | split

theorem execHubLost_keeps {β : Bool} {κ : Base} {s : State} (h : Inv β κ s) : Sat β κ (execHubLost s) := by
  unfold execHubLost
  repeat' first | (with_reducible first | assumption | apply ite_keeps | apply next_keeps | apply settleHub_keeps) | simp only [↓reply_mk] | split

theorem execOutGetSession_keeps {β : Bool} {κ : Base} (r : Req) (slot : Nat) {s : State} (h : Inv β κ s) : Sat β κ
      (execOutGetSession r slot s) := by
  unfold execOutGetSession
  try dsimp only
  repeat' first | (with_reducible first | assumption | apply ite_keeps | refine checked_keeps ?_ fun _ _ => ?_ | refine command_keeps ?_ fun _ _ => ?_ | apply next_keeps) | simp only [↓reply_mk] | split

theorem execOutAuthorise_keeps {β : Bool} {κ : Base} (r : Req) (slot : Nat) (decision : Nat) (cls : Nat) (validity : Nat)
      (ident : Bytes) {s : State} (h : Inv β κ s) : Sat β κ (execOutAuthorise r slot decision cls validity ident s) := by
  unfold execOutAuthorise
  try dsimp only
  repeat' first | (with_reducible first | assumption | apply ite_keeps | refine checked_keeps ?_ fun _ _ => ?_ | refine command_keeps ?_ fun _ _ => ?_ | apply next_keeps | apply decide2_keeps | apply onSes_keeps | apply accept_keeps | apply Inv.core) | simp only [↓inv_mk] | simp only [↓reply_mk] | split

theorem execOutStopSession_keeps {β : Bool} {κ : Base} (r : Req) (slot : Nat) {s : State} (h : Inv β κ s) : Sat β κ
      (execOutStopSession r slot s) := by
  unfold execOutStopSession
  try dsimp only
  repeat' first | (with_reducible first | assumption | apply ite_keeps | refine checked_keeps ?_ fun _ _ => ?_ | refine command_keeps ?_ fun _ _ => ?_ | apply next_keeps | apply onSes_keeps | apply Inv.core) | simp only [↓inv_mk] | simp only [↓reply_mk] | split

theorem execOutSetAvailability_keeps {β : Bool} {κ : Base} (r : Req) (slot : Nat) (mode : Nat) {s : State} (h : Inv β κ s) :
      Sat β κ (execOutSetAvailability r slot mode s) := by
  unfold execOutSetAvailability
  try dsimp only
  repeat' first | (with_reducible first | assumption | refine checked_keeps ?_ fun _ _ => ?_ | refine command_keeps ?_ fun _ _ => ?_ | apply next_keeps | apply onSes_keeps | apply Inv.core) | simp only [↓inv_mk] | simp only [↓reply_mk] | split

theorem execOutClearWeld_keeps {β : Bool} {κ : Base} (r : Req) (slot : Nat) {s : State} (h : Inv β κ s) : Sat β κ
      (execOutClearWeld r slot s) := by
  unfold execOutClearWeld
  try dsimp only
  repeat' first | (with_reducible first | assumption | refine checked_keeps ?_ fun _ _ => ?_ | refine command_keeps ?_ fun _ _ => ?_ | apply next_keeps | apply Inv.core) | simp only [↓inv_mk] | simp only [↓reply_mk] | split

theorem execOutGetChecks_keeps {β : Bool} {κ : Base} (r : Req) (slot : Nat) {s : State} (h : Inv β κ s) : Sat β κ
      (execOutGetChecks r slot s) := by
  unfold execOutGetChecks
  try dsimp only
  repeat' first | (with_reducible first | assumption | refine checked_keeps ?_ fun _ _ => ?_ | refine command_keeps ?_ fun _ _ => ?_ | apply next_keeps) | simp only [↓reply_mk] | split

theorem execOutRenegotiate_keeps {β : Bool} {κ : Base} (r : Req) (slot : Nat) {s : State} (h : Inv β κ s) : Sat β κ
      (execOutRenegotiate r slot s) := by
  unfold execOutRenegotiate
  try dsimp only
  repeat' first | (with_reducible first | assumption | refine checked_keeps ?_ fun _ _ => ?_ | refine command_keeps ?_ fun _ _ => ?_ | apply next_keeps | apply raiseReneg_keeps) | simp only [↓reply_mk] | split

theorem execResetNAssert_keeps {β : Bool} {κ : Base} {s : State} (h : Inv β κ s) : Sat β κ (execResetNAssert s) := by
  unfold execResetNAssert
  try dsimp only
  repeat' first | (with_reducible first | assumption | apply next_keeps | apply resetPart_keeps | apply Inv.core) | simp only [↓inv_mk] | simp only [↓reply_mk] | split

theorem execCoreUndervoltageReset_keeps {β : Bool} {κ : Base} {s : State} (h : Inv β κ s) : Sat β κ (execCoreUndervoltageReset
      s) := by
  unfold execCoreUndervoltageReset
  try dsimp only
  repeat' first | (with_reducible first | assumption | apply next_keeps | apply resetPart_keeps | apply Inv.core) | simp only [↓inv_mk] | simp only [↓reply_mk] | split

theorem execRailFaultReset_keeps {β : Bool} {κ : Base} (rail : Nat) {s : State} (h : Inv β κ s) : Sat β κ (execRailFaultReset
      rail s) := by
  unfold execRailFaultReset
  try dsimp only
  repeat' first | (with_reducible first | assumption | apply ite_keeps | apply next_keeps | apply resetPart_keeps | apply Inv.core) | simp only [↓inv_mk] | simp only [↓reply_mk] | split

theorem execHousekeepingWatchdogReset_keeps {β : Bool} {κ : Base} {s : State} (h : Inv β κ s) : Sat β κ
      (execHousekeepingWatchdogReset s) := by
  unfold execHousekeepingWatchdogReset
  repeat' first | (with_reducible first | assumption | apply next_keeps | apply resetPart_keeps) | simp only [↓reply_mk] | split

theorem execCommandReset_keeps {β : Bool} {κ : Base} {s : State} (h : Inv β κ s) : Sat β κ (execCommandReset s) := by
  unfold execCommandReset
  repeat' first | (with_reducible first | assumption | apply ite_keeps | apply next_keeps | apply resetPart_keeps) | simp only [↓reply_mk] | split

theorem bootOrigin_keeps {β : Bool} {κ : Base} (role : Nat) (node : Nat) (heldMs : Nat) {s : State} (h : Inv β κ s) : Inv β κ
      (bootOrigin role node heldMs s) := by
  unfold bootOrigin
  try dsimp only
  repeat' first | (with_reducible first | assumption | apply recordIf_keeps | apply Inv.core) | simp only [↓inv_mk] | split

theorem execResetNRelease_keeps {β : Bool} {κ : Base} (role : Nat) (node : Nat) (heldMs : Nat) {s : State} (h : Inv β κ s) :
      Sat β κ (execResetNRelease role node heldMs s) := by
  unfold execResetNRelease
  try dsimp only
  repeat' first | (with_reducible first | assumption | apply ite_keeps | apply next_keeps | apply bootOrigin_keeps | apply Inv.core) | simp only [↓inv_mk] | simp only [↓reply_mk] | split

theorem bootHeld_keeps {β : Bool} {κ : Base} (role : Nat) (node : Nat) {s : State} (h : Inv β κ s) : Inv β κ (bootHeld role
      node s) := by
  unfold bootHeld
  try dsimp only
  repeat' first | (with_reducible first | assumption | apply bootOrigin_keeps | apply drawn_keeps | apply Inv.core) | simp only [↓inv_mk] | split

theorem execPowerOnResetRelease_keeps {β : Bool} {κ : Base} (role : Nat) (node : Nat) (vddioMv : Nat) (cold : Bool) {s : State}
      (h : Inv β κ s) : Sat β κ (execPowerOnResetRelease role node vddioMv cold s) := by
  unfold execPowerOnResetRelease
  try dsimp only
  repeat' first | (with_reducible first | assumption | apply ite_keeps | apply next_keeps | apply bootHeld_keeps | apply Inv.core) | simp only [↓inv_mk] | simp only [↓reply_mk] | split

theorem execShutdownHoldEnd_keeps {β : Bool} {κ : Base} (role : Nat) (node : Nat) {s : State} (h : Inv β κ s) : Sat β κ
      (execShutdownHoldEnd role node s) := by
  unfold execShutdownHoldEnd
  try dsimp only
  repeat' first | (with_reducible first | assumption | apply ite_keeps | apply next_keeps | apply bootHeld_keeps | apply Inv.core) | simp only [↓inv_mk] | simp only [↓reply_mk] | split

theorem bootFailed_keeps {β : Bool} {κ : Base} {s : State} (h : Inv β κ s) : Inv β κ (bootFailed s) := by
  unfold bootFailed
  try dsimp only
  repeat' first | (with_reducible first | assumption | apply raise_keeps | apply Inv.core) | simp only [↓inv_mk] | split

theorem execWipeComplete_keeps {β : Bool} {κ : Base} (zero : Bool) {s : State} (h : Inv β κ s) : Sat β κ (execWipeComplete zero
      s) := by
  unfold execWipeComplete
  try dsimp only
  repeat' first | (with_reducible first | assumption | apply ite_keeps | apply next_keeps | apply bootFailed_keeps | apply Inv.core) | simp only [↓inv_mk] | simp only [↓reply_mk] | split

theorem discardTorn_keeps {β : Bool} {κ : Base} {s : State} (h : Inv β κ s) : Inv β κ (discardTorn s) := by
  unfold discardTorn
  try dsimp only
  repeat' first | (with_reducible first | assumption | apply ite_keeps | apply record_keeps | apply Inv.core) | simp only [↓inv_mk] | split

theorem placeConfig_keeps {β : Bool} {κ : Base} {s : State} (h : Inv β κ s) : Inv β κ (placeConfig s) := by
  unfold placeConfig; dsimp only
  refine ite_keeps (by simp only [↓inv_mk]; exact h.core) ?_
  exact { h with
    chans := (List.length_map _).trans (List.length_zipIdx.trans h.chans)
    tags := fun c hc => by
      obtain ⟨y, hy, rfl⟩ := List.mem_map.1 hc
      exact h.tags y.1 (List.fst_mem_of_mem_zipIdx hy) }

theorem interrupt_keeps {β : Bool} {κ : Base} {s : State} (slot : Nat) (h : Inv β κ s) : Inv β κ (interrupt s slot) := by
  unfold interrupt
  try dsimp only
  repeat' first | (with_reducible first | assumption | apply ite_keeps | refine checked_keeps ?_ fun _ _ => ?_ | apply interruptedSession_keeps | apply Inv.core) | simp only [↓inv_mk] | split

theorem interruptAll_keeps {β : Bool} {κ : Base} {s : State} (h : Inv β κ s) : Inv β κ (interruptAll s) := by
  unfold interruptAll
  try dsimp only
  repeat' first | (with_reducible first | assumption | apply ite_keeps | refine foldl_keeps ?_ fun _ _ _ => ?_ | apply interrupt_keeps | apply meterCommit_keeps | apply enterKick_keeps) | split

theorem noteCrystal_keeps {β : Bool} {κ : Base} {s : State} (h : Inv β κ s) : Inv β κ (noteCrystal s) := by
  unfold noteCrystal
  try dsimp only
  repeat' first | (with_reducible first | assumption | apply ite_keeps | apply record_keeps | apply Inv.core) | simp only [↓inv_mk] | split

theorem bootRecords_keeps {β : Bool} {κ : Base} {s : State} (h : Inv β κ s) : Inv β κ (bootRecords s) := by
  unfold bootRecords
  repeat' first | (with_reducible first | assumption | apply startRecorder_keeps | apply noteCrystal_keeps | apply record_keeps) | split

theorem imagesSelected_keeps {β : Bool} {κ : Base} {s : State} (h : Inv β κ s) : Inv β κ (imagesSelected s) := by
  unfold imagesSelected
  try dsimp only
  repeat' first | (with_reducible first | assumption | apply ite_keeps | refine foldl_keeps ?_ fun _ _ _ => ?_ | apply noteCfg_keeps | apply placeConfig_keeps | apply startMeter_keeps | apply bootRecords_keeps | apply Inv.core) | simp only [↓inv_mk] | split

theorem execImagesVerified_keeps {β : Bool} {κ : Base} {s : State} (h : Inv β κ s) : Sat β κ (execImagesVerified s) := by
  have h1 := selectFw_keeps (noteOpenTransition_keeps (discardTorn_keeps (wipeKeys_keeps (resolveSlots_keeps h))))
  unfold execImagesVerified; dsimp only
  refine next_keeps (ite_keeps h ?_)
  split
  · rename_i e; rw [e] at h1; exact imagesSelected_keeps (h1.2 _ rfl)
  · rename_i e; rw [e] at h1; exact bootFailed_keeps h1.1

theorem kickIf_keeps {β : Bool} {κ : Base} (c : Bool) (cause : Nat) {s : State} (h : Inv β κ s) : Inv β κ (kickIf c cause s) := by
  unfold kickIf
  repeat' first | (with_reducible first | assumption | apply ite_keeps | apply enterKick_keeps) | split

theorem sendNotice_keeps {β : Bool} {κ : Base} {s : State} (h : Inv β κ s) : Inv β κ (sendNotice s) := by
  unfold sendNotice
  repeat' first | (with_reducible first | assumption | apply ite_keeps | apply sendEth_keeps | apply queueFrame_keeps) | split

theorem bootCauses_keeps {β : Bool} {κ : Base} (t : SelfTest) {s : State} (h : Inv β κ s) : Inv β κ (bootCauses t s) := by
  unfold bootCauses
  try dsimp only
  repeat' first | (with_reducible first | assumption | apply ite_keeps | refine foldl_keeps ?_ fun _ _ _ => ?_ | apply enterKick_keeps | apply kickIf_keeps | apply goneKick_keeps | apply sendNotice_keeps | apply Inv.core) | simp only [↓inv_mk] | split

theorem startRole_keeps {β : Bool} {κ : Base} {s : State} (h : Inv β κ s) : Inv β κ (startRole s) := by
  unfold startRole; dsimp only
  refine startStack_keeps ?_
  have : ∀ t, Inv β κ t → Inv β κ { t with
      tdm.state := if paired t then .syncing else .none
      spk.period := t.nvHub.period
      grantAge := if t.sys.role = 2 then some 0 else none
      alc.out := t.alc.out.zipIdx.map fun (x : OutletIn × Nat) => { x.1 with lost := outPost (outCfg t (x.2 + 1)) != 0 }
      ldc.chans := t.ldc.chans.zipIdx.map fun (x : Load × Nat) => { x.1 with left := ldRetryMax (loadCfg t x.2) } } := by
    intro t h
    refine { h.weak with off := fun e hk => ⟨(h.off e hk).1, fun l hl => ?_⟩ }
    obtain ⟨y, hy, rfl⟩ := List.mem_map.1 hl
    exact (h.off e hk).2 y.1 (List.fst_mem_of_mem_zipIdx hy)
  exact this _ (ite_keeps h (ite_keeps (startRings_keeps h) (placeHub_keeps h)))

theorem goLive_keeps {β : Bool} {κ : Base} {s : State} (h : Inv β κ s) : Inv β κ (goLive s) := by
  unfold goLive
  try dsimp only
  repeat' first | (with_reducible first | assumption | apply raiseIf_keeps | apply raise_keeps | apply Inv.core) | simp only [↓inv_mk] | split

theorem execSelfTestComplete_keeps {β : Bool} {κ : Base} (result : SelfTest) {s : State} (h : Inv β κ s) : Sat β κ
      (execSelfTestComplete result s) := by
  unfold execSelfTestComplete
  try dsimp only
  repeat' first | (with_reducible first | assumption | apply ite_keeps | apply next_keeps | apply goLive_keeps | apply bootCauses_keeps | apply startRole_keeps | apply startHeat_keeps | apply interruptAll_keeps | apply wipeKeys_keeps | apply Inv.core) | simp only [↓inv_mk] | simp only [↓reply_mk] | split

theorem installOwner_keeps {β : Bool} {κ : Base} (key : Bytes) {s : State} (h : Inv β κ s) : Inv β κ (installOwner key s) := by
  unfold installOwner
  repeat' first | (with_reducible first | assumption | apply installKey_keeps) | split

theorem execLifecycleTransition_keeps {β : Bool} {κ : Base} {s : State} (h : Inv β κ s) : Sat β κ (execLifecycleTransition s)
      := by
  unfold execLifecycleTransition
  try dsimp only
  repeat' first | (with_reducible first | assumption | apply ite_keeps | apply next_keeps | apply commitDraft_keeps | apply meterCommit_keeps | apply enterKick_keeps | apply installOwner_keeps | apply resetPart_keeps | apply wipeKeys_keeps | apply Inv.core) | simp only [↓inv_mk] | simp only [↓reply_mk] | split

theorem powerFailCommits_keeps {β : Bool} {κ : Base} {s : State} (h : Inv β κ s) : Inv β κ (powerFailCommits s) := by
  unfold powerFailCommits
  try dsimp only
  repeat' first | (with_reducible first | assumption | apply ite_keeps | apply meterCommit_keeps | apply flushRecords_keeps) | split

theorem execPfwNAssert_keeps {β : Bool} {κ : Base} {s : State} (h : Inv β κ s) : Sat β κ (execPfwNAssert s) := by
  unfold execPfwNAssert
  try dsimp only
  repeat' first | (with_reducible first | assumption | apply ite_keeps | apply next_keeps | apply powerFailCommits_keeps | apply sendNotice_keeps | apply enterKick_keeps | apply Inv.core) | simp only [↓inv_mk] | simp only [↓reply_mk] | split

theorem execPfwCauseGone_keeps {β : Bool} {κ : Base} {s : State} (h : Inv β κ s) : Sat β κ (execPfwCauseGone s) := by
  unfold execPfwCauseGone
  try dsimp only
  repeat' first | (with_reducible first | assumption | apply next_keeps | apply goneKick_keeps | apply Inv.core) | simp only [↓inv_mk] | simp only [↓reply_mk] | split

theorem execKickstandCauseGone_keeps {β : Bool} {κ : Base} (cause : Nat) {s : State} (h : Inv β κ s) : Sat β κ
      (execKickstandCauseGone cause s) := by
  unfold execKickstandCauseGone
  try dsimp only
  repeat' first | (with_reducible first | assumption | apply ite_keeps | apply next_keeps | apply goneKick_keeps | apply Inv.core) | simp only [↓inv_mk] | simp only [↓reply_mk] | split

theorem execSupplyBelowGuaranteed_keeps {β : Bool} {κ : Base} (below : Bool) {s : State} (h : Inv β κ s) : Sat β κ
      (execSupplyBelowGuaranteed below s) := by
  unfold execSupplyBelowGuaranteed
  try dsimp only
  repeat' first | (with_reducible first | assumption | apply ite_keeps | apply next_keeps | apply record_keeps | apply raise_keeps | apply Inv.core) | simp only [↓inv_mk] | simp only [↓reply_mk] | split

theorem execReferenceClockFault_keeps {β : Bool} {κ : Base} {s : State} (h : Inv β κ s) : Sat β κ (execReferenceClockFault s)
      := by
  unfold execReferenceClockFault
  repeat' first | (with_reducible first | assumption | apply ite_keeps | apply next_keeps | apply enterKick_keeps | apply record_keeps) | simp only [↓reply_mk] | split

theorem execRtcCrystalLost_keeps {β : Bool} {κ : Base} {s : State} (h : Inv β κ s) : Sat β κ (execRtcCrystalLost s) := by
  unfold execRtcCrystalLost
  try dsimp only
  repeat' first | (with_reducible first | assumption | apply ite_keeps | apply next_keeps | apply wallQuality_keeps | apply record_keeps | apply Inv.core) | simp only [↓inv_mk] | simp only [↓reply_mk] | split

theorem execVbatAbsent_keeps {β : Bool} {κ : Base} {s : State} (h : Inv β κ s) : Sat β κ (execVbatAbsent s) := by
  unfold execVbatAbsent
  try dsimp only
  repeat' first | (with_reducible first | assumption | apply ite_keeps | apply next_keeps | apply wallQuality_keeps | apply Inv.core) | simp only [↓inv_mk] | simp only [↓reply_mk] | split

theorem restartEngine_keeps {β : Bool} {κ : Base} (engine : Nat) {s : State} (h : Inv β κ s) : Inv β κ (restartEngine engine s)
      := by
  unfold restartEngine
  try dsimp only
  repeat' first | (with_reducible first | assumption | apply Inv.core) | simp only [↓inv_mk] | split

theorem execFirewallViolation_keeps {β : Bool} {κ : Base} (engine : Nat) (address : Nat) (write : Bool) {s : State} (h : Inv β
      κ s) : Sat β κ (execFirewallViolation engine address write s) := by
  unfold execFirewallViolation
  try dsimp only
  repeat' first | (with_reducible first | assumption | apply ite_keeps | apply next_keeps | apply restartEngine_keeps | apply record_keeps | apply raise_keeps | apply enterKick_keeps | apply Inv.core) | simp only [↓inv_mk] | simp only [↓reply_mk] | split

theorem execSramUncorrectableError_keeps {β : Bool} {κ : Base} (engine : Nat) {s : State} (h : Inv β κ s) : Sat β κ
      (execSramUncorrectableError engine s) := by
  unfold execSramUncorrectableError
  try dsimp only
  repeat' first | (with_reducible first | assumption | apply ite_keeps | apply next_keeps | apply record_keeps | apply raise_keeps | apply restartEngine_keeps | apply enterKick_keeps) | simp only [↓reply_mk] | split

theorem sectorBad_keeps {β : Bool} {κ : Base} (sector : Nat) {s : State} (h : Inv β κ s) : Inv β κ (sectorBad sector s) := by
  unfold sectorBad
  try dsimp only
  repeat' first | (with_reducible first | assumption | apply ite_keeps | apply record_keeps | apply raise_keeps | apply Inv.core) | simp only [↓inv_mk] | split

theorem execNorReadError_keeps {β : Bool} {κ : Base} (sector : Nat) (bothBad : Bool) {s : State} (h : Inv β κ s) : Sat β κ
      (execNorReadError sector bothBad s) := by
  unfold execNorReadError
  try dsimp only
  repeat' first | (with_reducible first | assumption | apply ite_keeps | apply next_keeps | apply sectorBad_keeps | apply Inv.core) | simp only [↓inv_mk] | simp only [↓reply_mk] | split

theorem execNorScrub_keeps {β : Bool} {κ : Base} (corrected : List (Nat × Nat)) {s : State} (h : Inv β κ s) : Sat β κ
      (execNorScrub corrected s) := by
  unfold execNorScrub
  try dsimp only
  repeat' first | (with_reducible first | assumption | apply ite_keeps | apply next_keeps | apply Inv.core) | simp only [↓inv_mk] | simp only [↓reply_mk] | split

theorem passAuthority_keeps {β : Bool} {κ : Base} {s : State} (h : Inv β κ s) : Inv β κ (passAuthority s) := by
  unfold passAuthority
  try dsimp only
  repeat' first | (with_reducible first | assumption | apply ite_keeps | apply lowerAuth_keeps | apply Inv.core) | simp only [↓inv_mk] | split

theorem readmit_keeps {β : Bool} {κ : Base} {s : State} (h : Inv β κ s) : Inv β κ (readmit s) := by
  unfold readmit
  try dsimp only
  repeat' first | (with_reducible first | assumption | apply ite_keeps | apply Inv.core) | simp only [↓inv_mk] | split

theorem sendGrants_keeps {β : Bool} {κ : Base} {s : State} (h : Inv β κ s) : Inv β κ (sendGrants s) := by
  unfold sendGrants
  try dsimp only
  repeat' first | (with_reducible first | assumption | apply ite_keeps | refine foldl_keeps ?_ fun _ _ _ => ?_ | apply receiveGrant_keeps | apply sendGrantsEth_keeps) | split

theorem latchLocal_keeps {β : Bool} {κ : Base} {s : State} (h : Inv β κ s) : Inv β κ (latchLocal s) := by
  unfold latchLocal
  try dsimp only
  repeat' first | (with_reducible first | assumption | apply ite_keeps | refine foldl_keeps ?_ fun _ _ _ => ?_ | apply deliverRequest_keeps) | split

theorem memberMatrix_keeps {β : Bool} {κ : Base} {s : State} (h : Inv β κ s) : Inv β κ (memberMatrix s) := by
  unfold memberMatrix
  repeat' first | (with_reducible first | assumption | apply ite_keeps | apply windowMatrix_keeps) | split

theorem hubBoundary_keeps {β : Bool} {κ : Base} (written : Bool) {s : State} (h : Inv β κ s) : Inv β κ (hubBoundary written s)
      := by
  unfold hubBoundary
  repeat' first | (with_reducible first | assumption | apply ite_keeps | apply sendGrants_keeps | apply readmit_keeps | apply memberMatrix_keeps | apply deraillBoundary_keeps | apply latchLocal_keeps) | split

theorem boundary_keeps {β : Bool} {κ : Base} (written : Bool) {s : State} (h : Inv β κ s) : Inv β κ (boundary written s) := by
  unfold boundary
  try dsimp only
  repeat' first | (with_reducible first | assumption | apply passAuthority_keeps | apply applyCommits_keeps | apply ceilings_keeps | apply deliverMeter_keeps | apply pelotonBoundary_keeps | apply shadowBoundary_keeps | apply recorderEpoch_keeps | apply hubBoundary_keeps | apply Inv.core) | simp only [↓inv_mk] | split

theorem execEpochBoundary_keeps {β : Bool} {κ : Base} (written : Bool) {s : State} (h : Inv β κ s) : Sat β κ (execEpochBoundary
      written s) := by
  unfold execEpochBoundary
  repeat' first | (with_reducible first | assumption | apply ite_keeps | apply next_keeps | apply boundary_keeps) | simp only [↓reply_mk] | split

theorem countLow_keeps {β : Bool} {κ : Base} (slot : Nat) {s : State} (h : Inv β κ s) : Inv β κ (countLow slot s) := by
  unfold countLow
  try dsimp only
  repeat' first | (with_reducible first | assumption | apply ite_keeps | apply onSes_keeps | apply Inv.core) | simp only [↓inv_mk] | split

theorem execMeteringSample_keeps {β : Bool} {κ : Base} (bits : List (List Bool)) {s : State} (h : Inv β κ s) : Sat β κ
      (execMeteringSample bits s) := by
  unfold execMeteringSample
  try dsimp only
  repeat' first | (with_reducible first | assumption | apply ite_keeps | refine foldl_keeps ?_ fun _ _ _ => ?_ | apply next_keeps | apply integrateString_keeps | apply countLow_keeps | apply meterSample_keeps) | simp only [↓reply_mk] | split

theorem tickWall_keeps {β : Bool} {κ : Base} {s : State} (h : Inv β κ s) : Inv β κ (tickWall s) := by
  unfold tickWall
  try dsimp only
  repeat' first | (with_reducible first | assumption | apply ite_keeps | apply Inv.core) | simp only [↓inv_mk] | split

theorem execOperatingSecond_keeps {β : Bool} {κ : Base} (corrected : Nat) {s : State} (h : Inv β κ s) : Sat β κ
      (execOperatingSecond corrected s) := by
  unfold execOperatingSecond
  try dsimp only
  repeat' first | (with_reducible first | assumption | apply ite_keeps | apply next_keeps | apply tickWall_keeps | apply settleEdit_keeps | apply settleLockout_keeps | apply meterCommit_keeps | apply seconds_up | apply Inv.core) | exact fun _ _ e => e | exact fun _ _ _ => rfl | exact fun _ e => e | exact fun _ _ => rfl | exact fun _ _ => ⟨rfl, rfl, rfl⟩ | exact Nat.le_succ _ | simp only [↓inv_mk] | simp only [↓reply_mk] | split

theorem sendSegments_keeps {β : Bool} {κ : Base} (peer : Nat) (priority : Nat) (n : Nat) (map : Option (ToneMap × Nat)) {s :
      State} (h : Inv β κ s) : Inv β κ (sendSegments peer priority n map s) := by
  unfold sendSegments
  try dsimp only
  repeat' first | (with_reducible first | assumption | apply ite_keeps | apply putBurst_keeps | apply onSpkLink_keeps | apply Inv.core) | simp only [↓inv_mk] | split

theorem sendFitting_keeps {β : Bool} {κ : Base} (l : SpkLink) (priority : Nat) (symbols : Nat) {s : State} (h : Inv β κ s) :
      Inv β κ (sendFitting l priority symbols s) := by
  unfold sendFitting
  try dsimp only
  repeat' first | (with_reducible first | assumption | apply ite_keeps | apply sendSegments_keeps | apply Inv.core) | simp only [↓inv_mk] | split

theorem sendPriority_keeps {β : Bool} {κ : Base} (p : Nat) {s : State} (h : Inv β κ s) : Inv β κ (sendPriority p s) := by
  unfold sendPriority
  try dsimp only
  repeat' first | (with_reducible first | assumption | apply ite_keeps | apply Inv.core) | simp only [↓inv_mk] | split

theorem execContentionAccess_keeps {β : Bool} {κ : Base} (m : Access) {s : State} (h : Inv β κ s) : Sat β κ
      (execContentionAccess m s) := by
  unfold execContentionAccess
  try dsimp only
  repeat' first | (with_reducible first | assumption | apply ite_keeps | apply next_keeps | apply sendPriority_keeps | apply drawn_keeps | apply sendFitting_keeps | apply Inv.core) | simp only [↓inv_mk] | simp only [↓reply_mk] | split

theorem execAcknowledgementReceived_keeps {β : Bool} {κ : Base} (b : Bytes) {s : State} (h : Inv β κ s) : Sat β κ
      (execAcknowledgementReceived b s) := by
  unfold execAcknowledgementReceived
  try dsimp only
  repeat' first | (with_reducible first | assumption | apply ite_keeps | apply next_keeps | apply onSpkLink_keeps | apply Inv.core) | simp only [↓inv_mk] | simp only [↓reply_mk] | split

theorem execAcknowledgementMissing_keeps {β : Bool} {κ : Base} (peer : Nat) {s : State} (h : Inv β κ s) : Sat β κ
      (execAcknowledgementMissing peer s) := by
  unfold execAcknowledgementMissing
  try dsimp only
  repeat' first | (with_reducible first | assumption | apply ite_keeps | apply next_keeps | apply onSpkLink_keeps | apply Inv.core) | simp only [↓inv_mk] | simp only [↓reply_mk] | split

theorem settleMap_keeps {β : Bool} {κ : Base} (peer : Nat) {s : State} (h : Inv β κ s) : Inv β κ (settleMap peer s) := by
  unfold settleMap
  try dsimp only
  repeat' first | (with_reducible first | assumption | apply ite_keeps | apply onSpkLink_keeps | apply drawn_keeps | apply raiseIf_keeps | apply queueFrame_keeps | apply Inv.core) | simp only [↓inv_mk] | split

theorem execToneMapUpdate_keeps {β : Bool} {κ : Base} (peer : Nat) {s : State} (h : Inv β κ s) : Sat β κ (execToneMapUpdate
      peer s) := by
  unfold execToneMapUpdate
  repeat' first | (with_reducible first | assumption | apply ite_keeps | apply next_keeps | apply settleMap_keeps) | simp only [↓reply_mk] | split

theorem adoptMap_keeps {β : Bool} {κ : Base} (peer : Nat) (m : ToneMap) {s : State} (h : Inv β κ s) : Inv β κ (adoptMap peer m
      s) := by
  unfold adoptMap
  try dsimp only
  repeat' first | (with_reducible first | assumption | apply raiseIf_keeps | apply onSpkLink_keeps | apply Inv.core) | simp only [↓inv_mk] | split

theorem execToneMapReceived_keeps {β : Bool} {κ : Base} (peer : Nat) (ident : Nat) (rate : Nat) (span : Nat) (backoff : Nat)
      (carriers : Bytes) {s : State} (h : Inv β κ s) : Sat β κ (execToneMapReceived peer ident rate span backoff carriers s) := by
  unfold execToneMapReceived
  repeat' first | (with_reducible first | assumption | apply ite_keeps | apply next_keeps | apply adoptMap_keeps) | simp only [↓reply_mk] | split

theorem takeMac_keeps {β : Bool} {κ : Base} (peer : Nat) (f : Bytes) {s : State} (h : Inv β κ s) : Inv β κ (takeMac peer f s)
      := by
  unfold takeMac
  try dsimp only
  repeat' first | (with_reducible first | assumption | apply ite_keeps | apply takeJoin_keeps | apply takeNotice_keeps | apply adoptMap_keeps | apply requestFrom_keeps | apply takeDecision_keeps | apply Inv.core) | simp only [↓inv_mk] | split

theorem takeSegment_keeps {β : Bool} {κ : Base} (peer : Nat) (seg : Bytes) {s : State} (h : Inv β κ s) : Inv β κ (takeSegment
      peer seg s) := by
  unfold takeSegment
  try dsimp only
  repeat' first | (with_reducible first | assumption | apply ite_keeps | apply onSpkLink_keeps | apply takeMac_keeps | apply Inv.core) | simp only [↓inv_mk] | split

theorem takeEarly_keeps {β : Bool} {κ : Base} (p n : Nat) {s : State} (h : Inv β κ s) : Inv β κ (takeEarly p n s) := by
  induction n generalizing s with
  | zero => exact h
  | succ n ih =>
    unfold takeEarly; dsimp only
    split
    · exact ih (takeSegment_keeps _ _ (onSpkLink_keeps _ _ h))
    · exact h

theorem arriveSegment_keeps {β : Bool} {κ : Base} (peer : Nat) (unordered : Bool) (seg : Bytes) {s : State} (h : Inv β κ s) :
      Inv β κ (arriveSegment peer unordered seg s) := by
  unfold arriveSegment
  try dsimp only
  repeat' first | (with_reducible first | assumption | apply ite_keeps | apply takeEarly_keeps | apply takeSegment_keeps | apply onSpkLink_keeps | apply Inv.core) | simp only [↓inv_mk] | split

theorem arriveWord_keeps {β : Bool} {κ : Base} (b : Burst) {s : State} (x : Option Bytes × Nat) (h : Inv β κ s) : Inv β κ
      (arriveWord b s x) := by
  unfold arriveWord
  try dsimp only
  repeat' first | (with_reducible first | assumption | apply ite_keeps | apply arriveSegment_keeps | apply onSpkLink_keeps | apply Inv.core) | simp only [↓inv_mk] | split

theorem countBurst_keeps {β : Bool} {κ : Base} (b : Burst) (failed : Nat) {s : State} (h : Inv β κ s) : Inv β κ (countBurst b
      failed s) := by
  unfold countBurst
  try dsimp only
  repeat' first | (with_reducible first | assumption | apply ite_keeps | apply spkCount_keeps | apply onSpkLink_keeps | apply Inv.core) | simp only [↓inv_mk] | split

theorem execDataBurstReceived_keeps {β : Bool} {κ : Base} (b : Burst) {s : State} (h : Inv β κ s) : Sat β κ
      (execDataBurstReceived b s) := by
  unfold execDataBurstReceived
  try dsimp only
  repeat' first | (with_reducible first | assumption | apply ite_keeps | refine foldl_keeps ?_ fun _ _ _ => ?_ | apply next_keeps | apply settleMap_keeps | apply arriveWord_keeps | apply countBurst_keeps | apply sendClear_keeps) | simp only [↓reply_mk] | split

theorem execBridgedEthernetFrame_keeps {β : Bool} {κ : Base} (fromEth : Bool) (vid : Nat) (etherType : Nat) (data : Bytes) {s :
      State} (h : Inv β κ s) : Sat β κ (execBridgedEthernetFrame fromEth vid etherType data s) := by
  unfold execBridgedEthernetFrame
  try dsimp only
  repeat' first | (with_reducible first | assumption | apply ite_keeps | apply next_keeps | apply queueFrame_keeps | apply Inv.core) | simp only [↓inv_mk] | simp only [↓reply_mk] | split

theorem execSpkGetStatus_keeps {β : Bool} {κ : Base} (r : Req) {s : State} (h : Inv β κ s) : Sat β κ (execSpkGetStatus r s) := by
  unfold execSpkGetStatus
  try dsimp only
  repeat' first | (with_reducible first | assumption | apply ite_keeps | refine command_keeps ?_ fun _ _ => ?_ | apply next_keeps | apply Inv.core) | simp only [↓inv_mk] | simp only [↓reply_mk] | split

theorem execSpkGetNodes_keeps {β : Bool} {κ : Base} (r : Req) {s : State} (h : Inv β κ s) : Sat β κ (execSpkGetNodes r s) := by
  unfold execSpkGetNodes
  try dsimp only
  repeat' first | (with_reducible first | assumption | refine command_keeps ?_ fun _ _ => ?_ | apply next_keeps) | simp only [↓reply_mk] | split

theorem execSpkGetLink_keeps {β : Bool} {κ : Base} (r : Req) (peer : Nat) {s : State} (h : Inv β κ s) : Sat β κ (execSpkGetLink
      r peer s) := by
  unfold execSpkGetLink
  try dsimp only
  repeat' first | (with_reducible first | assumption | refine checked_keeps ?_ fun _ _ => ?_ | refine command_keeps ?_ fun _ _ => ?_ | apply next_keeps | apply drawn_keeps | apply Inv.core) | simp only [↓inv_mk] | simp only [↓reply_mk] | split

theorem execSpkClearStats_keeps {β : Bool} {κ : Base} (r : Req) (peer : Nat) {s : State} (h : Inv β κ s) : Sat β κ
      (execSpkClearStats r peer s) := by
  unfold execSpkClearStats
  try dsimp only
  repeat' first | (with_reducible first | assumption | apply ite_keeps | refine checked_keeps ?_ fun _ _ => ?_ | refine command_keeps ?_ fun _ _ => ?_ | apply next_keeps | apply Inv.core) | simp only [↓inv_mk] | simp only [↓reply_mk] | split

end Sys2Proof.Machine
end

