-- ==== Sys2Proof/Laws/KeepStep.lean ====
section
/-!
SUPPORT. Keeping the sound state and the queue (Laws/Keep.lean): the reading of requests, and the step.
-/
namespace Sys2Proof.Machine

/-- Every answer of a command that a frame spells keeps the invariant. -/
def OptSat (b : Bool) (q : Base) (o : Option (State → Res)) : Prop := ∀ c, o = some c → ∀ s, Inv b q s → Sat b q (c s)

theorem some_keeps {b : Bool} {q : Base} {c : State → Res} (h : ∀ s, Inv b q s → Sat b q (c s)) : OptSat b q (some c) := by
  intro _ e; cases e; exact h

theorem none_keeps {b : Bool} {q : Base} : OptSat b q none := fun _ e => nomatch e

theorem fixed_keeps {b : Bool} {q : Base} {n : Nat} {p : Bytes} {c : State → Res} (h : ∀ s, Inv b q s → Sat b q (c s)) :
    OptSat b q (fixed n p c) := by
  unfold fixed; split
  · exact some_keeps h
  · exact none_keeps

theorem atLeast_keeps {b : Bool} {q : Base} {n : Nat} {p : Bytes} {c : State → Res} (h : ∀ s, Inv b q s → Sat b q (c s)) :
    OptSat b q (atLeast n p c) := by
  unfold atLeast; split
  · exact some_keeps h
  · exact none_keeps

theorem commands1_keeps {β : Bool} {κ : Base} (low : Nat) (r : Req) (p : Bytes) : OptSat β κ (commands1 low r p) := by
  unfold commands1
  repeat' first | (with_reducible first | exact none_keeps | apply fixed_keeps | apply atLeast_keeps | apply some_keeps) | split
  all_goals
    intro _ h
    with_reducible first | exact execSysEchoPayload_keeps _ _ h | exact execSysOpenCredential_keeps _ _ _ _ _ h | exact execSysCloseCredential_keeps _ _ h | exact execSysGetChannelStats_keeps _ _ h | exact execSysGetBootInfo_keeps _ h | exact execSysResetPart_keeps _ h | exact execSysEnterKickstand_keeps _ h | exact execSysGetKickstand_keeps _ h | exact execSysReleaseKickstand_keeps _ h | exact execSysGetLifecycle_keeps _ h | exact execSysSetLifecycle_keeps _ _ _ h | exact execSysWriteImage_keeps _ _ _ _ h | exact execSysActivateImage_keeps _ _ h | exact execSysConfirmImage_keeps _ h

theorem commands2_keeps {β : Bool} {κ : Base} (low : Nat) (r : Req) (p : Bytes) : OptSat β κ (commands2 low r p) := by
  unfold commands2
  repeat' first | (with_reducible first | exact none_keeps | apply fixed_keeps | apply atLeast_keeps | apply some_keeps) | split
  all_goals
    intro _ h
    with_reducible first | exact execAlcGetStatus_keeps _ h | exact execAlcSetRules_keeps _ _ _ _ h | exact execAlcGetRules_keeps _ _ _ _ h | exact execAlcCommitRules_keeps _ h | exact execAlcSetSiteLimits_keeps _ _ _ _ h | exact execAlcSetSessionClass_keeps _ _ _ h | exact execAlcGetGrants_keeps _ h | exact execAlcGetInputs_keeps _ _ h | exact execAlcGetAssignment_keeps _ h | exact execAlcSetStageService_keeps _ _ _ h

theorem commands3_keeps {β : Bool} {κ : Base} (low : Nat) (r : Req) (p : Bytes) : OptSat β κ (commands3 low r p) := by
  unfold commands3
  repeat' first | (with_reducible first | exact none_keeps | apply fixed_keeps | apply atLeast_keeps | apply some_keeps) | split
  all_goals
    intro _ h
    with_reducible first | exact execCadGetGroup_keeps _ _ h | exact execCadGetLoop_keeps _ _ h | exact execCadClearFlags_keeps _ _ _ h | exact execCadSetReference_keeps _ _ _ h | exact execCadReleaseGroup_keeps _ _ h | exact execCadStageDescriptor_keeps _ _ _ _ h | exact execCadCommitGroup_keeps _ _ h

theorem commands4_keeps {β : Bool} {κ : Base} (low : Nat) (r : Req) (p : Bytes) : OptSat β κ (commands4 low r p) := by
  unfold commands4
  repeat' first | (with_reducible first | exact none_keeps | apply fixed_keeps | apply atLeast_keeps | apply some_keeps) | split
  all_goals
    intro _ h
    with_reducible first | exact execChrGetRing_keeps _ _ h | exact execChrGetStage_keeps _ _ h | exact execChrClearCounters_keeps _ _ h

theorem commands5_keeps {β : Bool} {κ : Base} (low : Nat) (r : Req) (p : Bytes) : OptSat β κ (commands5 low r p) := by
  unfold commands5
  repeat' first | (with_reducible first | exact none_keeps | apply fixed_keeps | apply atLeast_keeps | apply some_keeps) | split
  all_goals
    intro _ h
    with_reducible first | exact execOutGetLink_keeps _ _ h | exact execOutGetLinkStats_keeps _ _ h | exact execOutClearLinkStats_keeps _ _ h | exact execOutSetPilotTest_keeps _ _ _ h | exact execOutGetSession_keeps _ _ h | exact execOutAuthorise_keeps _ _ _ _ _ _ h | exact execOutStopSession_keeps _ _ h | exact execOutSetAvailability_keeps _ _ _ h | exact execOutClearWeld_keeps _ _ h | exact execOutGetChecks_keeps _ _ h | exact execOutRenegotiate_keeps _ _ h

theorem commands6_keeps {β : Bool} {κ : Base} (low : Nat) (r : Req) (p : Bytes) : OptSat β κ (commands6 low r p) := by
  unfold commands6
  repeat' first | (with_reducible first | exact none_keeps | apply fixed_keeps | apply atLeast_keeps | apply some_keeps) | split
  all_goals
    intro _ h
    with_reducible first | exact execHeatGetInput_keeps _ _ _ h | exact execHeatGetOutlet_keeps _ _ h | exact execHeatGetThresholds_keeps _ _ _ h | exact execHeatAckSensor_keeps _ _ _ h | exact execHeatGetDie_keeps _ h

theorem commands7_keeps {β : Bool} {κ : Base} (low : Nat) (r : Req) (p : Bytes) : OptSat β κ (commands7 low r p) := by
  unfold commands7
  repeat' first | (with_reducible first | exact none_keeps | apply fixed_keeps | apply atLeast_keeps | apply some_keeps) | split
  all_goals
    intro _ h
    with_reducible first | exact execMtrGetRegisters_keeps _ _ h | exact execMtrGetPoint_keeps _ _ h | exact execMtrGetRecord_keeps _ _ h | exact execMtrRenderRecord_keeps _ _ _ _ h | exact execMtrAckRecords_keeps _ _ h | exact execMtrSetWallTime_keeps _ _ _ h | exact execMtrWriteParameters_keeps _ _ _ _ h | exact execMtrSealParameters_keeps _ h | exact execMtrGetLegalId_keeps _ h | exact execMtrReadParameters_keeps _ _ _ h

theorem commands8_keeps {β : Bool} {κ : Base} (low : Nat) (r : Req) (p : Bytes) : OptSat β κ (commands8 low r p) := by
  unfold commands8
  repeat' first | (with_reducible first | exact none_keeps | apply fixed_keeps | apply atLeast_keeps | apply some_keeps) | split
  all_goals
    intro _ h
    with_reducible first | exact execSpkGetStatus_keeps _ h | exact execSpkGetNodes_keeps _ h | exact execSpkGetLink_keeps _ _ h | exact execSpkClearStats_keeps _ _ h

theorem commands9_keeps {β : Bool} {κ : Base} (low : Nat) (r : Req) (p : Bytes) : OptSat β κ (commands9 low r p) := by
  unfold commands9
  repeat' first | (with_reducible first | exact none_keeps | apply fixed_keeps | apply atLeast_keeps | apply some_keeps) | split
  all_goals
    intro _ h
    with_reducible first | exact execSafGetStatus_keeps _ h | exact execSafGetInstance_keeps _ _ h | exact execSafGetInput_keeps _ _ h | exact execSafGetPair_keeps _ _ h | exact execSafReset_keeps _ _ _ h | exact execSafSetOutput_keeps _ _ _ h | exact execSafDoorLock_keeps _ _ _ h | exact execSafGetLink_keeps _ _ h | exact execSafCfgGet_keeps _ h | exact execSafCfgRead_keeps _ _ _ _ h | exact execSafCfgOpen_keeps _ _ h | exact execSafCfgWrite_keeps _ _ _ _ h | exact execSafCfgCommit_keeps _ h | exact execSafCfgClose_keeps _ h | exact execSafCfgAck_keeps _ _ _ h | exact execSafCfgSetPassword_keeps _ _ _ h | exact execSafCfgGetLog_keeps _ _ _ h

theorem commandsA_keeps {β : Bool} {κ : Base} (low : Nat) (r : Req) (p : Bytes) : OptSat β κ (commandsA low r p) := by
  unfold commandsA
  repeat' first | (with_reducible first | exact none_keeps | apply fixed_keeps | apply atLeast_keeps | apply some_keeps) | split
  all_goals
    intro _ h
    with_reducible first | exact execLdcGetChannel_keeps _ _ h | exact execLdcSetChannel_keeps _ _ _ h | exact execLdcSetDuty_keeps _ _ _ h | exact execLdcClearFault_keeps _ _ h | exact execLdcGetPackage_keeps _ h

theorem commandsB_keeps {β : Bool} {κ : Base} (low : Nat) (r : Req) (p : Bytes) : OptSat β κ (commandsB low r p) := by
  unfold commandsB
  repeat' first | (with_reducible first | exact none_keeps | apply fixed_keeps | apply atLeast_keeps | apply some_keeps) | split
  all_goals
    intro _ h
    with_reducible first | exact execStkGetStatus_keeps _ h | exact execStkGetCompanion_keeps _ _ _ h | exact execStkSetSoc_keeps _ _ _ h | exact execStkClearFault_keeps _ _ _ h

theorem commandsC_keeps {β : Bool} {κ : Base} (low : Nat) (r : Req) (p : Bytes) : OptSat β κ (commandsC low r p) := by
  unfold commandsC
  repeat' first | (with_reducible first | exact none_keeps | apply fixed_keeps | apply atLeast_keeps | apply some_keeps) | split
  all_goals
    intro _ h
    with_reducible first | exact execKeyGetSlot_keeps _ _ h | exact execKeyGenerate_keeps _ _ _ _ h | exact execKeyImport_keeps _ _ _ _ _ _ _ h | exact execKeyDerive_keeps _ _ _ _ _ h | exact execKeyRevoke_keeps _ _ h | exact execKeyErase_keeps _ _ h | exact execKeyExport_keeps _ _ h | exact execKeySign_keeps _ _ _ h | exact execKeyAttest_keeps _ _ h | exact execKeyGetCertificate_keeps _ _ _ h

theorem commandsD_keeps {β : Bool} {κ : Base} (low : Nat) (r : Req) (p : Bytes) : OptSat β κ (commandsD low r p) := by
  unfold commandsD
  repeat' first | (with_reducible first | exact none_keeps | apply fixed_keeps | apply atLeast_keeps | apply some_keeps) | split
  all_goals
    intro _ h
    with_reducible first | exact execRecGetInfo_keeps _ h | exact execRecRead_keeps _ _ _ _ _ h | exact execRecGetLimits_keeps _ h | exact execRecGetChallenge_keeps _ h | exact execRecClear_keeps _ _ _ _ _ h | exact execRecWriteNote_keeps _ _ h

theorem commandsE_keeps {β : Bool} {κ : Base} (low : Nat) (r : Req) (p : Bytes) : OptSat β κ (commandsE low r p) := by
  unfold commandsE
  repeat' first | (with_reducible first | exact none_keeps | apply fixed_keeps | apply atLeast_keeps | apply some_keeps) | split
  all_goals
    intro _ h
    with_reducible first | exact execTdmGetStatus_keeps _ h | exact execTdmSwitchOver_keeps _ h | exact execTdmGetPeloton_keeps _ h

theorem commandOf_keeps {β : Bool} {κ : Base} (op : Nat) (r : Req) (p : Bytes) : OptSat β κ (commandOf op r p) := by
  unfold commandOf; split
  all_goals with_reducible first | exact none_keeps | exact commands1_keeps _ _ _ | exact commands2_keeps _ _ _ | exact commands3_keeps _ _ _ | exact commands4_keeps _ _ _ | exact commands5_keeps _ _ _ | exact commands6_keeps _ _ _ | exact commands7_keeps _ _ _ | exact commands8_keeps _ _ _ | exact commands9_keeps _ _ _ | exact commandsA_keeps _ _ _ | exact commandsB_keeps _ _ _ | exact commandsC_keeps _ _ _ | exact commandsD_keeps _ _ _ | exact commandsE_keeps _ _ _

theorem consume_keeps {β : Bool} {κ : Base} (ch : Nat) {s : State} (h : Inv β κ s) : Inv β κ (consume ch s) :=
  onChan_keeps _ _ (by simp only [↓inv_mk]; exact h.core) fun _ e => by split <;> exact e

theorem badMagic_keeps {β : Bool} {κ : Base} (ch : Nat) {s : State} (h : Inv β κ s) : Inv β κ (badMagic ch s) := by
  unfold badMagic
  try dsimp only
  repeat' first | (with_reducible first | assumption | apply ite_keeps | apply raise_keeps | apply count_keeps | apply endConnection_keeps) | split

theorem badCrc_keeps {β : Bool} {κ : Base} (ch : Nat) (f : Frame) {s : State} (h : Inv β κ s) : Inv β κ (badCrc ch f s) := by
  unfold badCrc
  repeat' first | (with_reducible first | assumption | apply sendFrame_keeps | apply count_keeps) | split

theorem undefinedOp_keeps {β : Bool} {κ : Base} (op : Nat) (r : Req) {s : State} (h : Inv β κ s) : Sat β κ (undefinedOp op r s)
      := by
  unfold undefinedOp
  try dsimp only
  repeat' first | (with_reducible first | assumption | refine command_keeps ?_ fun _ _ => ?_ | apply next_keeps) | simp only [↓reply_mk] | split

theorem startFrame_keeps {β : Bool} {κ : Base} (ch : Nat) (f : Frame) {s : State} (h : Inv β κ s) : Sat β κ (startFrame ch f s)
      := by
  unfold startFrame; dsimp only
  repeat' first | (with_reducible first | assumption | apply next_keeps | apply badLength_keeps | apply undefinedOp_keeps) | split
  exact commandOf_keeps _ _ _ _ ‹_› _ h

theorem readFrame_keeps {β : Bool} {κ : Base} (ch : Nat) (f : Frame) {s : State} (h : Inv β κ s) : Sat β κ (readFrame ch f s)
      := by
  unfold readFrame
  try dsimp only
  repeat' first | (with_reducible first | assumption | apply ite_keeps | apply next_keeps | apply consume_keeps | apply badMagic_keeps | apply badCrc_keeps | apply startFrame_keeps) | simp only [↓reply_mk] | split

theorem readIf_keeps {β : Bool} {κ : Base} (p : Frame → Bool) {s : State} (h : Inv β κ s) : Sat β κ (readIf p s) := by
  unfold readIf
  try dsimp only
  repeat' first | (with_reducible first | assumption | apply ite_keeps | apply next_keeps | apply readFrame_keeps | apply Inv.core) | simp only [↓inv_mk] | simp only [↓reply_mk] | split

theorem execRequestRead_keeps {β : Bool} {κ : Base} {s : State} (h : Inv β κ s) : Sat β κ (execRequestRead s) := by
  unfold execRequestRead
  try dsimp only
  repeat' first | (with_reducible first | assumption | apply next_keeps | apply readIf_keeps) | simp only [↓reply_mk] | split

theorem execRequestBadMagic_keeps {β : Bool} {κ : Base} {s : State} (h : Inv β κ s) : Sat β κ (execRequestBadMagic s) := by
  unfold execRequestBadMagic
  try dsimp only
  repeat' first | (with_reducible first | assumption | apply next_keeps | apply readIf_keeps) | simp only [↓reply_mk] | split

theorem execRequestBadCrc_keeps {β : Bool} {κ : Base} {s : State} (h : Inv β κ s) : Sat β κ (execRequestBadCrc s) := by
  unfold execRequestBadCrc
  try dsimp only
  repeat' first | (with_reducible first | assumption | apply next_keeps | apply readIf_keeps) | simp only [↓reply_mk] | split

theorem execUndefinedOpcodeRequest_keeps {β : Bool} {κ : Base} {s : State} (h : Inv β κ s) : Sat β κ
      (execUndefinedOpcodeRequest s) := by
  unfold execUndefinedOpcodeRequest
  try dsimp only
  repeat' first | (with_reducible first | assumption | apply next_keeps | apply readIf_keeps) | simp only [↓reply_mk] | split

theorem sendHeld_keeps {β : Bool} {κ : Base} (ch : Nat) (f : Bytes) (l : List Bytes) {s : State} (h : Inv β κ s) : Inv β κ
      (sendHeld ch f l s) :=
  raise_keeps _ (onChan_keeps _ _ (ring_keeps _ _ h) fun _ e => e)

theorem execResponseWrite_keeps {β : Bool} {κ : Base} (ch : Nat) {s : State} (h : Inv β κ s) : Sat β κ (execResponseWrite ch s)
      := by
  unfold execResponseWrite
  try dsimp only
  repeat' first | (with_reducible first | assumption | apply ite_keeps | apply next_keeps | apply sendHeld_keeps | apply Inv.core) | simp only [↓inv_mk] | simp only [↓reply_mk] | split

theorem finishWork_keeps {β : Bool} {κ : Base} (w : Running) {s : State} {p : Reply} (h : Inv β κ s) (e : finishWork w s = some
      p) :
    RInv β κ p := by
  unfold finishWork at e; dsimp only at e
  repeat' split at e
  all_goals cases e
  · exact h
  · exact activate_keeps _ h
  · exact renderWork_keeps _ _ _ _ _ h
  · exact installKey_keeps _ _ (by simp only [↓inv_mk]; exact h.core)
  · exact h
  · exact h
  · exact finishClear_keeps h

theorem abandon_keeps {β : Bool} {κ : Base} (w : Work) {s : State} (h : Inv β κ s) : Inv β κ (abandon w s) := by
  unfold abandon
  try dsimp only
  repeat' first | (with_reducible first | assumption | apply noteOpenTransition_keeps | apply activate_keeps | apply Inv.core) | simp only [↓inv_mk] | split

theorem dropOrphan_keeps {β : Bool} {κ : Base} (ch : Nat) (tag : Nat) {s : State} (h : Inv β κ s) : Inv β κ (dropOrphan ch tag
      s) := by
  unfold dropOrphan
  try dsimp only
  repeat' first | (with_reducible first | assumption | apply Inv.core) | simp only [↓inv_mk] | split

theorem execCommandCompletion_keeps {β : Bool} {κ : Base} (ch : Nat) (tag : Nat) {s : State} (h : Inv β κ s) : Sat β κ
      (execCommandCompletion ch tag s) := by
  unfold execCommandCompletion
  try dsimp only
  repeat' first | (with_reducible first | assumption | apply next_keeps | apply finishWork_keeps | apply dropOrphan_keeps | apply settle_keeps | apply Inv.core) | simp only [↓inv_mk] | simp only [↓reply_mk] | exact finishWork_keeps _ (by assumption) (by assumption) | split

theorem execCommandTimeout_keeps {β : Bool} {κ : Base} (ch : Nat) (tag : Nat) {s : State} (h : Inv β κ s) : Sat β κ
      (execCommandTimeout ch tag s) := by
  unfold execCommandTimeout
  try dsimp only
  repeat' first | (with_reducible first | assumption | apply next_keeps | apply dropOrphan_keeps | apply abandon_keeps | apply settle_keeps | apply Inv.core) | simp only [↓inv_mk] | simp only [↓reply_mk] | split

theorem execMbxConnectionOpen_keeps {β : Bool} {κ : Base} (ch : Nat) (conn : Connection) {s : State} (h : Inv β κ s) : Sat β κ
      (execMbxConnectionOpen ch conn s) := by
  unfold execMbxConnectionOpen
  try dsimp only
  repeat' first | (with_reducible first | assumption | apply ite_keeps | apply next_keeps | apply raise_keeps | apply onChan_keeps | apply Inv.core) | exact fun _ e => e | simp only [↓inv_mk] | simp only [↓reply_mk] | split

theorem execMbxStreamFrame_keeps {β : Bool} {κ : Base} (ch : Nat) (frame : Bytes) {s : State} (h : Inv β κ s) : Sat β κ
      (execMbxStreamFrame ch frame s) := by
  unfold execMbxStreamFrame
  try dsimp only
  repeat' first | (with_reducible first | assumption | apply ite_keeps | apply next_keeps | apply badMagic_keeps | apply endConnection_keeps | apply count_keeps | apply onChan_keeps | apply Inv.core) | exact fun _ e => e | simp only [↓inv_mk] | simp only [↓reply_mk] | split

theorem execMbxKeepaliveExpiry_keeps {β : Bool} {κ : Base} (ch : Nat) {s : State} (h : Inv β κ s) : Sat β κ
      (execMbxKeepaliveExpiry ch s) := by
  unfold execMbxKeepaliveExpiry
  repeat' first | (with_reducible first | assumption | apply ite_keeps | apply next_keeps | apply endConnection_keeps) | simp only [↓reply_mk] | split

theorem execMbxConnectionClosed_keeps {β : Bool} {κ : Base} (ch : Nat) {s : State} (h : Inv β κ s) : Sat β κ
      (execMbxConnectionClosed ch s) := by
  unfold execMbxConnectionClosed
  repeat' first | (with_reducible first | assumption | apply ite_keeps | apply next_keeps | apply endConnection_keeps) | simp only [↓reply_mk] | split

/-- Every command keeps the invariant. -/
theorem exec_keeps {b : Bool} {q : Base} (i : Instr) {s : State} (h : Inv b q s) : Sat b q (exec i s) := by
  cases i with
  | sysEchoPayload r data => exact execSysEchoPayload_keeps r data h
  | sysOpenCredential r kind slot eph sig => exact execSysOpenCredential_keeps r kind slot eph sig h
  | sysCloseCredential r handle => exact execSysCloseCredential_keeps r handle h
  | sysGetChannelStats r channel => exact execSysGetChannelStats_keeps r channel h
  | sysGetBootInfo r => exact execSysGetBootInfo_keeps r h
  | sysResetPart r => exact execSysResetPart_keeps r h
  | sysEnterKickstand r => exact execSysEnterKickstand_keeps r h
  | sysGetKickstand r => exact execSysGetKickstand_keeps r h
  | sysReleaseKickstand r => exact execSysReleaseKickstand_keeps r h
  | sysGetLifecycle r => exact execSysGetLifecycle_keeps r h
  | sysSetLifecycle r target token => exact execSysSetLifecycle_keeps r target token h
  | sysWriteImage r target offset data => exact execSysWriteImage_keeps r target offset data h
  | sysActivateImage r target => exact execSysActivateImage_keeps r target h
  | sysConfirmImage r => exact execSysConfirmImage_keeps r h
  | alcGetStatus r => exact execAlcGetStatus_keeps r h
  | alcSetRules r first count rules => exact execAlcSetRules_keeps r first count rules h
  | alcGetRules r table first count => exact execAlcGetRules_keeps r table first count h
  | alcCommitRules r => exact execAlcCommitRules_keeps r h
  | alcSetSiteLimits r imp exp validity => exact execAlcSetSiteLimits_keeps r imp exp validity h
  | alcSetSessionClass r outlet cls => exact execAlcSetSessionClass_keeps r outlet cls h
  | alcGetGrants r => exact execAlcGetGrants_keeps r h
  | alcGetInputs r outlet => exact execAlcGetInputs_keeps r outlet h
  | alcGetAssignment r => exact execAlcGetAssignment_keeps r h
  | alcSetStageService r position action => exact execAlcSetStageService_keeps r position action h
  | cadGetGroup r group => exact execCadGetGroup_keeps r group h
  | cadGetLoop r loop => exact execCadGetLoop_keeps r loop h
  | cadClearFlags r loops flags => exact execCadClearFlags_keeps r loops flags h
  | cadSetReference r number value => exact execCadSetReference_keeps r number value h
  | cadReleaseGroup r group => exact execCadReleaseGroup_keeps r group h
  | cadStageDescriptor r descriptor offset data => exact execCadStageDescriptor_keeps r descriptor offset data h
  | cadCommitGroup r group => exact execCadCommitGroup_keeps r group h
  | chrGetRing r ring => exact execChrGetRing_keeps r ring h
  | chrGetStage r position => exact execChrGetStage_keeps r position h
  | chrClearCounters r ring => exact execChrClearCounters_keeps r ring h
  | outGetLink r slot => exact execOutGetLink_keeps r slot h
  | outGetLinkStats r slot => exact execOutGetLinkStats_keeps r slot h
  | outClearLinkStats r slot => exact execOutClearLinkStats_keeps r slot h
  | outSetPilotTest r slot drive => exact execOutSetPilotTest_keeps r slot drive h
  | outGetSession r slot => exact execOutGetSession_keeps r slot h
  | outAuthorise r slot decision cls validity ident => exact execOutAuthorise_keeps r slot decision cls validity ident h
  | outStopSession r slot => exact execOutStopSession_keeps r slot h
  | outSetAvailability r slot mode => exact execOutSetAvailability_keeps r slot mode h
  | outClearWeld r slot => exact execOutClearWeld_keeps r slot h
  | outGetChecks r slot => exact execOutGetChecks_keeps r slot h
  | outRenegotiate r slot => exact execOutRenegotiate_keeps r slot h
  | heatGetInput r kind index => exact execHeatGetInput_keeps r kind index h
  | heatGetOutlet r slot => exact execHeatGetOutlet_keeps r slot h
  | heatGetThresholds r first count => exact execHeatGetThresholds_keeps r first count h
  | heatAckSensor r kind index => exact execHeatAckSensor_keeps r kind index h
  | heatGetDie r => exact execHeatGetDie_keeps r h
  | mtrGetRegisters r point => exact execMtrGetRegisters_keeps r point h
  | mtrGetPoint r point => exact execMtrGetPoint_keeps r point h
  | mtrGetRecord r mseq => exact execMtrGetRecord_keeps r mseq h
  | mtrRenderRecord r mseq format offset => exact execMtrRenderRecord_keeps r mseq format offset h
  | mtrAckRecords r mseq => exact execMtrAckRecords_keeps r mseq h
  | mtrSetWallTime r mode wall => exact execMtrSetWallTime_keeps r mode wall h
  | mtrWriteParameters r kind index block => exact execMtrWriteParameters_keeps r kind index block h
  | mtrSealParameters r => exact execMtrSealParameters_keeps r h
  | mtrGetLegalId r => exact execMtrGetLegalId_keeps r h
  | mtrReadParameters r kind index => exact execMtrReadParameters_keeps r kind index h
  | spkGetStatus r => exact execSpkGetStatus_keeps r h
  | spkGetNodes r => exact execSpkGetNodes_keeps r h
  | spkGetLink r peer => exact execSpkGetLink_keeps r peer h
  | spkClearStats r peer => exact execSpkClearStats_keeps r peer h
  | safGetStatus r => exact execSafGetStatus_keeps r h
  | safGetInstance r index => exact execSafGetInstance_keeps r index h
  | safGetInput r input => exact execSafGetInput_keeps r input h
  | safGetPair r pair => exact execSafGetPair_keeps r pair h
  | safReset r mask part => exact execSafReset_keeps r mask part h
  | safSetOutput r pair request => exact execSafSetOutput_keeps r pair request h
  | safDoorLock r index action => exact execSafDoorLock_keeps r index action h
  | safGetLink r conn => exact execSafGetLink_keeps r conn h
  | safCfgGet r => exact execSafCfgGet_keeps r h
  | safCfgRead r copy kind index => exact execSafCfgRead_keeps r copy kind index h
  | safCfgOpen r password => exact execSafCfgOpen_keeps r password h
  | safCfgWrite r kind index block => exact execSafCfgWrite_keeps r kind index block h
  | safCfgCommit r => exact execSafCfgCommit_keeps r h
  | safCfgClose r => exact execSafCfgClose_keeps r h
  | safCfgAck r signature password => exact execSafCfgAck_keeps r signature password h
  | safCfgSetPassword r old new => exact execSafCfgSetPassword_keeps r old new h
  | safCfgGetLog r first count => exact execSafCfgGetLog_keeps r first count h
  | ldcGetChannel r channel => exact execLdcGetChannel_keeps r channel h
  | ldcSetChannel r channel request => exact execLdcSetChannel_keeps r channel request h
  | ldcSetDuty r generator duty => exact execLdcSetDuty_keeps r generator duty h
  | ldcClearFault r mask => exact execLdcClearFault_keeps r mask h
  | ldcGetPackage r => exact execLdcGetPackage_keeps r h
  | stkGetStatus r => exact execStkGetStatus_keeps r h
  | stkGetCompanion r chain position => exact execStkGetCompanion_keeps r chain position h
  | stkSetSoc r string soc => exact execStkSetSoc_keeps r string soc h
  | stkClearFault r chain position => exact execStkClearFault_keeps r chain position h
  | keyGetSlot r slot => exact execKeyGetSlot_keeps r slot h
  | keyGenerate r slot attr label => exact execKeyGenerate_keeps r slot attr label h
  | keyImport r slot attr label offset final data => exact execKeyImport_keeps r slot attr label offset final data h
  | keyDerive r parent child attr label => exact execKeyDerive_keeps r parent child attr label h
  | keyRevoke r slot => exact execKeyRevoke_keeps r slot h
  | keyErase r slot => exact execKeyErase_keeps r slot h
  | keyExport r slot => exact execKeyExport_keeps r slot h
  | keySign r slot digest => exact execKeySign_keeps r slot digest h
  | keyAttest r nonce => exact execKeyAttest_keeps r nonce h
  | keyGetCertificate r which offset => exact execKeyGetCertificate_keeps r which offset h
  | recGetInfo r => exact execRecGetInfo_keeps r h
  | recRead r part start limit count => exact execRecRead_keeps r part start limit count h
  | recGetLimits r => exact execRecGetLimits_keeps r h
  | recGetChallenge r => exact execRecGetChallenge_keeps r h
  | recClear r part limit kind sig => exact execRecClear_keeps r part limit kind sig h
  | recWriteNote r note => exact execRecWriteNote_keeps r note h
  | tdmGetStatus r => exact execTdmGetStatus_keeps r h
  | tdmSwitchOver r => exact execTdmSwitchOver_keeps r h
  | tdmGetPeloton r => exact execTdmGetPeloton_keeps r h
  | undefinedOpcodeRequest => exact execUndefinedOpcodeRequest_keeps h
  | requestBadMagic => exact execRequestBadMagic_keeps h
  | requestBadCrc => exact execRequestBadCrc_keeps h
  | qspiUnknownInstruction instruction data => exact execQspiUnknownInstruction_keeps instruction data h
  | chnReqProdWrite ch value => exact execChnReqProdWrite_keeps ch value h
  | chnRspConsWrite ch value => exact execChnRspConsWrite_keeps ch value h
  | chnCtrlReset ch => exact execChnCtrlReset_keeps ch h
  | chnCtrlEnable ch on => exact execChnCtrlEnable_keeps ch on h
  | winErrClear value set => exact execWinErrClear_keeps value set h
  | evPendClear m value set => exact execEvPendClear_keeps m value set h
  | bellCtrlWrite value => exact execBellCtrlWrite_keeps value h
  | registerWrite address data => exact execRegisterWrite_keeps address data h
  | requestRead => exact execRequestRead_keeps h
  | responseWrite ch => exact execResponseWrite_keeps ch h
  | commandCompletion ch tag => exact execCommandCompletion_keeps ch tag h
  | commandTimeout ch tag => exact execCommandTimeout_keeps ch tag h
  | mbxConnectionOpen ch conn => exact execMbxConnectionOpen_keeps ch conn h
  | mbxStreamFrame ch frame => exact execMbxStreamFrame_keeps ch frame h
  | mbxKeepaliveExpiry ch => exact execMbxKeepaliveExpiry_keeps ch h
  | mbxConnectionClosed ch => exact execMbxConnectionClosed_keeps ch h
  | resetNAssert => exact execResetNAssert_keeps h
  | resetNRelease role node heldMs => exact execResetNRelease_keeps role node heldMs h
  | powerOnResetRelease role node vddioMv cold => exact execPowerOnResetRelease_keeps role node vddioMv cold h
  | coreUndervoltageReset => exact execCoreUndervoltageReset_keeps h
  | railFaultReset rail => exact execRailFaultReset_keeps rail h
  | housekeepingWatchdogReset => exact execHousekeepingWatchdogReset_keeps h
  | commandReset => exact execCommandReset_keeps h
  | wipeComplete zero => exact execWipeComplete_keeps zero h
  | imagesVerified => exact execImagesVerified_keeps (s := s) h
  | selfTestComplete result => exact execSelfTestComplete_keeps result h
  | lifecycleTransition => exact execLifecycleTransition_keeps h
  | pfwNAssert => exact execPfwNAssert_keeps h
  | pfwCauseGone => exact execPfwCauseGone_keeps h
  | kickstandCauseGone cause => exact execKickstandCauseGone_keeps cause h
  | supplyBelowGuaranteed below => exact execSupplyBelowGuaranteed_keeps below h
  | referenceClockFault => exact execReferenceClockFault_keeps h
  | rtcCrystalLost => exact execRtcCrystalLost_keeps h
  | firewallViolation engine address write => exact execFirewallViolation_keeps engine address write h
  | sramUncorrectableError engine => exact execSramUncorrectableError_keeps engine h
  | norReadError sector bothBad => exact execNorReadError_keeps sector bothBad h
  | norScrub corrected => exact execNorScrub_keeps corrected h
  | epochBoundary written => exact execEpochBoundary_keeps written h
  | alcLateZeroCeilings => exact execAlcLateZeroCeilings_keeps h
  | alcInputStale input outlet => exact execAlcInputStale_keeps input outlet h
  | alcSiteLimitExpiry => exact execAlcSiteLimitExpiry_keeps h
  | stageReleaseDelay outlet => exact execStageReleaseDelay_keeps outlet h
  | matrixConfirmTimeout position => exact execMatrixConfirmTimeout_keeps position h
  | controlTick group => exact execControlTick_keeps group h
  | groupOverrun group completed => exact execGroupOverrun_keeps group completed h
  | zeroHoldComplete group => exact execZeroHoldComplete_keeps group h
  | chainringFrameReturn ring line => exact execChainringFrameReturn_keeps ring line h
  | stageLost position => exact execStageLost_keeps position h
  | stagePresent position => exact execStagePresent_keeps position h
  | ringBroken ring => exact execRingBroken_keeps ring h
  | pilotPeriodEnd slot vPlus vMinus pps => exact execPilotPeriodEnd_keeps slot vPlus vMinus pps h
  | pilotStateConfirmed slot => exact execPilotStateConfirmed_keeps slot h
  | proximityClassConfirmed slot => exact execProximityClassConfirmed_keeps slot h
  | outletCCodeConfirmed => exact execOutletCCodeConfirmed_keeps h
  | cmSlacParamReq slot mac runId => exact execCmSlacParamReq_keeps slot mac runId h
  | slacSoundsReceived slot runId sounds => exact execSlacSoundsReceived_keeps slot runId sounds h
  | cmValidate slot => exact execCmValidate_keeps slot h
  | cmSlacMatchReq slot mac runId => exact execCmSlacMatchReq_keeps slot mac runId h
  | t1sFrameReceived slot event => exact execT1sFrameReceived_keeps slot event h
  | t1sLinkTimeout slot => exact execT1sLinkTimeout_keeps slot h
  | bridgeGpioChange gpio level => exact execBridgeGpioChange_keeps gpio level h
  | sessionSequencerStep slot protocolError => exact execSessionSequencerStep_keeps slot protocolError h
  | sdpRequest slot vid => exact execSdpRequest_keeps slot vid h
  | supportedAppProtocolReq slot offers => exact execSupportedAppProtocolReq_keeps slot offers h
  | tlsHandshakeComplete slot keySlot hello => exact execTlsHandshakeComplete_keeps slot keySlot hello h
  | authorizationReq slot method ident chain => exact execAuthorizationReq_keeps slot method ident chain h
  | authTimeoutExpiry slot => exact execAuthTimeoutExpiry_keeps slot h
  | authValidityExpiry slot => exact execAuthValidityExpiry_keeps slot h
  | cableCheckReq slot vMax => exact execCableCheckReq_keeps slot vMax h
  | prechargeReq slot target => exact execPrechargeReq_keeps slot target h
  | powerDeliveryStartReq slot discharge => exact execPowerDeliveryStartReq_keeps slot discharge h
  | powerDeliveryStopReq slot => exact execPowerDeliveryStopReq_keeps slot h
  | directionChangeReq slot exporting => exact execDirectionChangeReq_keeps slot exporting h
  | weldingDetectionReq slot => exact execWeldingDetectionReq_keeps slot h
  | vehicleRenegotiationReq slot schedule => exact execVehicleRenegotiationReq_keeps slot schedule h
  | grantReceived grant => exact execGrantReceived_keeps grant h
  | contactorConfirmed slot => exact execContactorConfirmed_keeps slot h
  | contactorConfirmTimeout slot => exact execContactorConfirmTimeout_keeps slot h
  | weldTestStepRead slot => exact execWeldTestStepRead_keeps slot h
  | postcheckGrantTimeout slot => exact execPostcheckGrantTimeout_keeps slot h
  | imdSettleComplete slot => exact execImdSettleComplete_keeps slot h
  | cableCheckMaxExpiry slot => exact execCableCheckMaxExpiry_keeps slot h
  | prechargeTimeout slot => exact execPrechargeTimeout_keeps slot h
  | renegHoldExpiry slot => exact execRenegHoldExpiry_keeps slot h
  | outletCurrentAtOpen slot => exact execOutletCurrentAtOpen_keeps slot h
  | endTimeoutExpiry slot => exact execEndTimeoutExpiry_keeps slot h
  | urgentStop100msExpiry slot => exact execUrgentStop100msExpiry_keeps slot h
  | hubLost => exact execHubLost_keeps h
  | heatSamplePoint ohms edges => exact execHeatSamplePoint_keeps ohms edges h
  | thresholdCrossed index => exact execThresholdCrossed_keeps index h
  | thresholdRearmed index => exact execThresholdRearmed_keeps index h
  | sensorRecovered kind index => exact execSensorRecovered_keeps kind index h
  | dieSample readings => exact execDieSample_keeps readings h
  | dieThermalShutdown => exact execDieThermalShutdown_keeps h
  | shutdownSupervisorReading readings => exact execShutdownSupervisorReading_keeps readings h
  | shutdownHoldEnd role node => exact execShutdownHoldEnd_keeps role node h
  | meteringSample bits => exact execMeteringSample_keeps bits h
  | meterChannelFaulted channel => exact execMeterChannelFaulted_keeps channel h
  | meterChannelValid channel => exact execMeterChannelValid_keeps channel h
  | directionEstablished point => exact execDirectionEstablished_keeps point h
  | operatingSecond corrected => exact execOperatingSecond_keeps corrected h
  | intervalClose point => exact execIntervalClose_keeps point h
  | wallTimeStepEffect => exact execWallTimeStepEffect_keeps h
  | testPulseStart output => exact execTestPulseStart_keeps output h
  | zxEdge time width => exact execZxEdge_keeps time width h
  | zxFreeRun => exact execZxFreeRun_keeps h
  | zxResync => exact execZxResync_keeps h
  | beaconTransmit => exact execBeaconTransmit_keeps h
  | beaconReceived time beacon => exact execBeaconReceived_keeps time beacon h
  | beaconLost => exact execBeaconLost_keeps h
  | slotTransmit => exact execSlotTransmit_keeps h
  | slotReceived slot => exact execSlotReceived_keeps slot h
  | nodeSilent node => exact execNodeSilent_keeps node h
  | postLost post => exact execPostLost_keeps post h
  | contentionAccess medium => exact execContentionAccess_keeps medium h
  | dataBurstReceived burst => exact execDataBurstReceived_keeps burst h
  | acknowledgementReceived ack => exact execAcknowledgementReceived_keeps ack h
  | acknowledgementMissing peer => exact execAcknowledgementMissing_keeps peer h
  | toneMapUpdate peer => exact execToneMapUpdate_keeps peer h
  | toneMapReceived peer ident rate span backoff carriers => exact execToneMapReceived_keeps peer ident rate span backoff carriers h
  | joinRequest requests => exact execJoinRequest_keeps requests h
  | joinDecision hub decisions => exact execJoinDecision_keeps hub decisions h
  | powerFailNotice post => exact execPowerFailNotice_keeps post h
  | switchingWindowOpen => exact execSwitchingWindowOpen_keeps h
  | noBeacon60s => exact execNoBeacon60s_keeps h
  | islandEth0Frame slot => exact execIslandEth0Frame_keeps slot h
  | bridgedEthernetFrame fromEth vid etherType data => exact execBridgedEthernetFrame_keeps fromEth vid etherType data h
  | safetyTick s0 s1 loops sense vsout => exact execSafetyTick_keeps s0 s1 loops sense vsout h
  | safetyEdgeMissed core => exact execSafetyEdgeMissed_keeps core h
  | vddSafeOutOfRange => exact execVddSafeOutOfRange_keeps h
  | testSample tp samples => exact execTestSample_keeps tp samples h
  | discrepancyLate input => exact execDiscrepancyLate_keeps input h
  | resetInputPress input => exact execResetInputPress_keeps input h
  | twoHandLate index => exact execTwoHandLate_keeps index h
  | muteMaxExpiry index => exact execMuteMaxExpiry_keeps index h
  | lockFeedbackTimeout index => exact execLockFeedbackTimeout_keeps index h
  | unlockDelayExpiry index => exact execUnlockDelayExpiry_keeps index h
  | maxRampExpiry pair => exact execMaxRampExpiry_keeps pair h
  | darkTest pair vHigh vLow vsout => exact execDarkTest_keeps pair vHigh vLow vsout h
  | pairOvercurrent pair => exact execPairOvercurrent_keeps pair h
  | vsoutRangeChange inRange => exact execVsoutRangeChange_keeps inRange h
  | safetyFramePoint => exact execSafetyFramePoint_keeps h
  | safetyCopyReceived path frame tag => exact execSafetyCopyReceived_keeps path frame tag h
  | skewWindowClose conn => exact execSkewWindowClose_keeps conn h
  | transportWatchdogExpiry conn => exact execTransportWatchdogExpiry_keeps conn h
  | degradedHoldExpiry conn => exact execDegradedHoldExpiry_keeps conn h
  | transportFaultClear conn => exact execTransportFaultClear_keeps conn h
  | editSessionTimeout => exact execEditSessionTimeout_keeps h
  | passwordLockoutEnd => exact execPasswordLockoutEnd_keeps h
  | ldcDiagnosticEval vload readings => exact execLdcDiagnosticEval_keeps vload readings h
  | ldcShortToGround channel => exact execLdcShortToGround_keeps channel h
  | ldcOvertemperature channel => exact execLdcOvertemperature_keeps channel h
  | ldcLatchClear channel => exact execLdcLatchClear_keeps channel h
  | ldcRetryDelayExpiry channel => exact execLdcRetryDelayExpiry_keeps channel h
  | ldcRetryReload channel => exact execLdcRetryReload_keeps channel h
  | ldcSwitchOnAdmitted channel => exact execLdcSwitchOnAdmitted_keeps channel h
  | loadWatchdogTrip core => exact execLoadWatchdogTrip_keeps core h
  | loadWatchdogTest openUs closeUs => exact execLoadWatchdogTest_keeps openUs closeUs h
  | vloadRangeChange inRange => exact execVloadRangeChange_keeps inRange h
  | stackSweep => exact execStackSweep_keeps h
  | readAllReturn chain atB frame => exact execReadAllReturn_keeps chain atB frame h
  | readAllTimeout chain => exact execReadAllTimeout_keeps chain h
  | enumerateReturn chain counter turned companions => exact execEnumerateReturn_keeps chain counter turned companions h
  | enumerationRetry chain => exact execEnumerationRetry_keeps chain h
  | balanceCycle => exact execBalanceCycle_keeps h
  | faultLoopOpen chain => exact execFaultLoopOpen_keeps chain h
  | faultLoopPermitReturn chain => exact execFaultLoopPermitReturn_keeps chain h
  | norRecordCopy count => exact execNorRecordCopy_keeps count h
  | rateLimitWindowEnd code => exact execRateLimitWindowEnd_keeps code h
  | recordClearEffect => exact execRecordClearEffect_keeps h
  | heartbeatAbsent => exact execHeartbeatAbsent_keeps h
  | authorityClaim => exact execAuthorityClaim_keeps h
  | claimGuardEnd partnerHigh => exact execClaimGuardEnd_keeps partnerHigh h
  | bootClaimWaitEnd => exact execBootClaimWaitEnd_keeps h
  | authorityTimerExpiry => exact execAuthorityTimerExpiry_keeps h
  | partnerAuthLost heartbeat => exact execPartnerAuthLost_keeps heartbeat h
  | fenceResolved => exact execFenceResolved_keeps h
  | shadowFrameReceived frame => exact execShadowFrameReceived_keeps frame h
  | shadowFramesMissing => exact execShadowFramesMissing_keeps h
  | bulkTransferReceived rules groups loops authGen period => exact execBulkTransferReceived_keeps rules groups loops authGen period h
  | standbyEligible => exact execStandbyEligible_keeps h
  | switchOverBoundary => exact execSwitchOverBoundary_keeps h
  | pelotonFrame slot frame => exact execPelotonFrame_keeps slot frame h
  | pelotonMemberLost member => exact execPelotonMemberLost_keeps member h
  | pltSyncLost => exact execPltSyncLost_keeps h
  | vbatAbsent => exact execVbatAbsent_keeps h
  | vlineRangeChange inRange => exact execVlineRangeChange_keeps inRange h
  | testPulseEnd output => exact execTestPulseEnd_keeps output h
  | vehicleLoopRequest slot request => exact execVehicleLoopRequest_keeps slot request h
  | vehicleNegotiationRequest slot service dynamic limits schedule => exact execVehicleNegotiationRequest_keeps slot service dynamic limits schedule h
  | slacTimerExpiry slot => exact execSlacTimerExpiry_keeps slot h
  | erroneousWindowRead address count => exact execErroneousWindowRead_keeps address count h
  | partnerClaimSeen => exact execPartnerClaimSeen_keeps h

end Sys2Proof.Machine
end

