-- ==== Sys2Proof/Laws/Record.lean ====
section
/-!
SUPPORT. What the shared operations change: making a record changes the recorder and the event window alone, raising an event the
window alone, the metering commit the commit block alone, a change of one part of the state that part alone.
-/
namespace Sys2Proof.Machine

theorem raise_pend (n m : Nat) (s : State) (h : s.win.pend.getLsbD m = true) : (raise n s).win.pend.getLsbD m = true := by
  show (s.win.pend ||| 1#128 <<< n).getLsbD m = true
  rw [BitVec.getLsbD_or, h]; rfl

/-- The event that is raised is pending. -/
theorem raise_self (n : Nat) (s : State) (h : n < 128) : (raise n s).win.pend.getLsbD n = true := by
  show (s.win.pend ||| 1#128 <<< n).getLsbD n = true
  rw [BitVec.getLsbD_or, BitVec.getLsbD_shiftLeft]; simp [h]

/-- `t` is `s` but for the recorder and the event window, and every event that was pending is pending. -/
structure OnlyRecords (s t : State) : Prop where
  eq : t = { s with recd := t.recd, nvRec := t.nvRec, win := t.win }
  pend : ∀ n, s.win.pend.getLsbD n = true → t.win.pend.getLsbD n = true

theorem only_refl (s : State) : OnlyRecords s s := ⟨rfl, fun _ h => h⟩

theorem only_trans {s t u : State} (h : OnlyRecords s t) (h2 : OnlyRecords t u) : OnlyRecords s u :=
  ⟨by have e := h2.eq; rw [h.eq] at e; exact e, fun n e => h2.pend n (h.pend n e)⟩

theorem only_raise (n : Nat) {s t : State} (h : OnlyRecords s t) : OnlyRecords s (raise n t) :=
  only_trans h ⟨rfl, fun m e => raise_pend n m t e⟩

theorem only_ite {c : Prop} [Decidable c] {s t u : State} (h : OnlyRecords s t) (h2 : OnlyRecords s u) :
    OnlyRecords s (if c then t else u) := by split <;> assumption

theorem dropOne_only (p : Nat) (s : State) : OnlyRecords s (dropOne p s) := only_raise _ ⟨rfl, fun _ h => h⟩

theorem intakeOther_only (d : Draft) (s : State) : OnlyRecords s (intakeOther d s) :=
  only_ite ⟨rfl, fun _ h => h⟩ (dropOne_only _ _)

theorem displace_only (d : Draft) (s : State) : OnlyRecords s (displace d s) := by
  have a : ∀ p q, OnlyRecords s (append d (dropOne p { s with recd.intake := q })) := fun p q =>
    only_trans (only_trans (t := { s with recd.intake := q }) ⟨rfl, fun _ h => h⟩ (dropOne_only p _)) ⟨rfl, fun _ h => h⟩
  unfold displace; repeat' split
  · exact a _ _
  · exact a _ _
  · exact a _ _
  · exact ⟨rfl, fun _ h => h⟩

theorem intake_only (d : Draft) (s : State) : OnlyRecords s (intake d s) := by
  unfold intake; split
  · exact ⟨rfl, fun _ h => h⟩
  · exact ⟨rfl, fun _ h => h⟩
  · exact ⟨rfl, fun _ h => h⟩
  · exact ⟨rfl, fun _ h => h⟩
  · refine only_ite (only_ite (only_raise _ (only_trans ?_ (intakeOther_only _ _))) ?_) (intakeOther_only _ _)
    · exact ⟨rfl, fun _ h => h⟩
    · exact only_ite ⟨rfl, fun _ h => h⟩ (only_ite ⟨rfl, fun _ h => h⟩ (displace_only _ _))

theorem windows_only (l : List Window) (s : State) : OnlyRecords s { s with recd.windows := l } := ⟨rfl, fun _ h => h⟩

theorem closeWindow_only (code : Nat) (s : State) : OnlyRecords s (closeWindow code s) := by
  unfold closeWindow; split
  · exact only_refl s
  · exact only_ite (windows_only _ _) (only_trans (windows_only _ _) (intake_only _ _))

/-- Making a record changes the recorder and the event window alone. -/
theorem record_only (code source : Nat) (params : Bytes) (s : State) : OnlyRecords s (record code source params s) := by
  unfold record; split
  · exact intake_only _ _
  · split
    · refine only_ite (only_ite (only_trans (windows_only _ _) (intake_only _ _)) (windows_only _ _)) ?_
      exact only_trans (only_trans (closeWindow_only code s) (windows_only _ _)) (intake_only _ _)
    · exact only_trans (windows_only _ _) (intake_only _ _)

theorem recordIf_only (c : Bool) (code source : Nat) (params : Bytes) (s : State) :
    OnlyRecords s (recordIf c code source params s) := only_ite (record_only _ _ _ _) (only_refl s)

theorem raiseIf_only (c : Bool) (n : Nat) (s : State) : OnlyRecords s (raiseIf c n s) :=
  only_ite (only_raise n (only_refl s)) (only_refl s)

theorem OnlyRecords.sys {s t : State} (h : OnlyRecords s t) : t.sys = s.sys := Eq.trans (congrArg State.sys h.eq) rfl

theorem OnlyRecords.nv {s t : State} (h : OnlyRecords s t) : t.nv = s.nv := Eq.trans (congrArg State.nv h.eq) rfl

theorem OnlyRecords.saf {s t : State} (h : OnlyRecords s t) : t.saf = s.saf := Eq.trans (congrArg State.saf h.eq) rfl

theorem OnlyRecords.ldc {s t : State} (h : OnlyRecords s t) : t.ldc = s.ldc := Eq.trans (congrArg State.ldc h.eq) rfl

/-- The metering commit changes the commit block alone. -/
theorem meterCommit_only (kind : Nat) (s : State) :
    meterCommit kind s = { s with nvMtr.copies := (meterCommit kind s).nvMtr.copies } := by
  unfold meterCommit; dsimp only; repeat' split
  all_goals rfl

end Sys2Proof.Machine
end

