-- ==== Sys2Proof/Laws/State.lean ====
section
/-!
SUPPORT. Each field of the state after each named update of one part of it: the fields that the update leaves alone, and the
updated list of the one it changes.
-/
namespace Sys2Proof.Machine

variable (s : State)

/-! ### One draw taken -/

@[simp] theorem drawn_free : (drawn s).free = s.free + 1 := rfl
@[simp] theorem drawn_sys : (drawn s).sys = s.sys := rfl
@[simp] theorem drawn_win : (drawn s).win = s.win := rfl
@[simp] theorem drawn_mbx : (drawn s).mbx = s.mbx := rfl
@[simp] theorem drawn_keys : (drawn s).keys = s.keys := rfl
@[simp] theorem drawn_recd : (drawn s).recd = s.recd := rfl
@[simp] theorem drawn_cfg : (drawn s).cfg = s.cfg := rfl
@[simp] theorem drawn_alc : (drawn s).alc = s.alc := rfl
@[simp] theorem drawn_cad : (drawn s).cad = s.cad := rfl
@[simp] theorem drawn_chr : (drawn s).chr = s.chr := rfl
@[simp] theorem drawn_links : (drawn s).links = s.links := rfl
@[simp] theorem drawn_ses : (drawn s).ses = s.ses := rfl
@[simp] theorem drawn_grantAge : (drawn s).grantAge = s.grantAge := rfl
@[simp] theorem drawn_gpio : (drawn s).gpio = s.gpio := rfl
@[simp] theorem drawn_heat : (drawn s).heat = s.heat := rfl
@[simp] theorem drawn_spk : (drawn s).spk = s.spk := rfl
@[simp] theorem drawn_mtr : (drawn s).mtr = s.mtr := rfl
@[simp] theorem drawn_saf : (drawn s).saf = s.saf := rfl
@[simp] theorem drawn_ldc : (drawn s).ldc = s.ldc := rfl
@[simp] theorem drawn_stk : (drawn s).stk = s.stk := rfl
@[simp] theorem drawn_tdm : (drawn s).tdm = s.tdm := rfl
@[simp] theorem drawn_plt : (drawn s).plt = s.plt := rfl
@[simp] theorem drawn_nv : (drawn s).nv = s.nv := rfl
@[simp] theorem drawn_nvRec : (drawn s).nvRec = s.nvRec := rfl
@[simp] theorem drawn_nvHub : (drawn s).nvHub = s.nvHub := rfl
@[simp] theorem drawn_nvOut : (drawn s).nvOut = s.nvOut := rfl
@[simp] theorem drawn_nvHeat : (drawn s).nvHeat = s.nvHeat := rfl
@[simp] theorem drawn_nvMtr : (drawn s).nvMtr = s.nvMtr := rfl
@[simp] theorem drawn_nvSaf : (drawn s).nvSaf = s.nvSaf := rfl
@[simp] theorem drawn_nvStk : (drawn s).nvStk = s.nvStk := rfl
@[simp] theorem drawn_slots : (drawn s).slots = s.slots := rfl
@[simp] theorem drawn_env : (drawn s).env = s.env := rfl
@[simp] theorem drawn_pending : (drawn s).pending = s.pending := rfl

/-! ### An event raised -/

@[simp] theorem raise_win_pend (n : Nat) : (raise n s).win.pend = s.win.pend ||| (1#128 <<< n) := rfl
@[simp] theorem raise_sys (n : Nat) : (raise n s).sys = s.sys := rfl
@[simp] theorem raise_mbx (n : Nat) : (raise n s).mbx = s.mbx := rfl
@[simp] theorem raise_keys (n : Nat) : (raise n s).keys = s.keys := rfl
@[simp] theorem raise_recd (n : Nat) : (raise n s).recd = s.recd := rfl
@[simp] theorem raise_cfg (n : Nat) : (raise n s).cfg = s.cfg := rfl
@[simp] theorem raise_alc (n : Nat) : (raise n s).alc = s.alc := rfl
@[simp] theorem raise_cad (n : Nat) : (raise n s).cad = s.cad := rfl
@[simp] theorem raise_chr (n : Nat) : (raise n s).chr = s.chr := rfl
@[simp] theorem raise_links (n : Nat) : (raise n s).links = s.links := rfl
@[simp] theorem raise_ses (n : Nat) : (raise n s).ses = s.ses := rfl
@[simp] theorem raise_grantAge (n : Nat) : (raise n s).grantAge = s.grantAge := rfl
@[simp] theorem raise_gpio (n : Nat) : (raise n s).gpio = s.gpio := rfl
@[simp] theorem raise_heat (n : Nat) : (raise n s).heat = s.heat := rfl
@[simp] theorem raise_spk (n : Nat) : (raise n s).spk = s.spk := rfl
@[simp] theorem raise_mtr (n : Nat) : (raise n s).mtr = s.mtr := rfl
@[simp] theorem raise_saf (n : Nat) : (raise n s).saf = s.saf := rfl
@[simp] theorem raise_ldc (n : Nat) : (raise n s).ldc = s.ldc := rfl
@[simp] theorem raise_stk (n : Nat) : (raise n s).stk = s.stk := rfl
@[simp] theorem raise_tdm (n : Nat) : (raise n s).tdm = s.tdm := rfl
@[simp] theorem raise_plt (n : Nat) : (raise n s).plt = s.plt := rfl
@[simp] theorem raise_nv (n : Nat) : (raise n s).nv = s.nv := rfl
@[simp] theorem raise_nvRec (n : Nat) : (raise n s).nvRec = s.nvRec := rfl
@[simp] theorem raise_nvHub (n : Nat) : (raise n s).nvHub = s.nvHub := rfl
@[simp] theorem raise_nvOut (n : Nat) : (raise n s).nvOut = s.nvOut := rfl
@[simp] theorem raise_nvHeat (n : Nat) : (raise n s).nvHeat = s.nvHeat := rfl
@[simp] theorem raise_nvMtr (n : Nat) : (raise n s).nvMtr = s.nvMtr := rfl
@[simp] theorem raise_nvSaf (n : Nat) : (raise n s).nvSaf = s.nvSaf := rfl
@[simp] theorem raise_nvStk (n : Nat) : (raise n s).nvStk = s.nvStk := rfl
@[simp] theorem raise_slots (n : Nat) : (raise n s).slots = s.slots := rfl
@[simp] theorem raise_env (n : Nat) : (raise n s).env = s.env := rfl
@[simp] theorem raise_free (n : Nat) : (raise n s).free = s.free := rfl
@[simp] theorem raise_pending (n : Nat) : (raise n s).pending = s.pending := rfl

/-! ### A window error noted -/

@[simp] theorem winErr_sys (n : Nat) : (winErr n s).sys = s.sys := rfl
@[simp] theorem winErr_mbx (n : Nat) : (winErr n s).mbx = s.mbx := rfl
@[simp] theorem winErr_keys (n : Nat) : (winErr n s).keys = s.keys := rfl
@[simp] theorem winErr_recd (n : Nat) : (winErr n s).recd = s.recd := rfl
@[simp] theorem winErr_cfg (n : Nat) : (winErr n s).cfg = s.cfg := rfl
@[simp] theorem winErr_alc (n : Nat) : (winErr n s).alc = s.alc := rfl
@[simp] theorem winErr_cad (n : Nat) : (winErr n s).cad = s.cad := rfl
@[simp] theorem winErr_chr (n : Nat) : (winErr n s).chr = s.chr := rfl
@[simp] theorem winErr_links (n : Nat) : (winErr n s).links = s.links := rfl
@[simp] theorem winErr_ses (n : Nat) : (winErr n s).ses = s.ses := rfl
@[simp] theorem winErr_grantAge (n : Nat) : (winErr n s).grantAge = s.grantAge := rfl
@[simp] theorem winErr_gpio (n : Nat) : (winErr n s).gpio = s.gpio := rfl
@[simp] theorem winErr_heat (n : Nat) : (winErr n s).heat = s.heat := rfl
@[simp] theorem winErr_spk (n : Nat) : (winErr n s).spk = s.spk := rfl
@[simp] theorem winErr_mtr (n : Nat) : (winErr n s).mtr = s.mtr := rfl
@[simp] theorem winErr_saf (n : Nat) : (winErr n s).saf = s.saf := rfl
@[simp] theorem winErr_ldc (n : Nat) : (winErr n s).ldc = s.ldc := rfl
@[simp] theorem winErr_stk (n : Nat) : (winErr n s).stk = s.stk := rfl
@[simp] theorem winErr_tdm (n : Nat) : (winErr n s).tdm = s.tdm := rfl
@[simp] theorem winErr_plt (n : Nat) : (winErr n s).plt = s.plt := rfl
@[simp] theorem winErr_nv (n : Nat) : (winErr n s).nv = s.nv := rfl
@[simp] theorem winErr_nvRec (n : Nat) : (winErr n s).nvRec = s.nvRec := rfl
@[simp] theorem winErr_nvHub (n : Nat) : (winErr n s).nvHub = s.nvHub := rfl
@[simp] theorem winErr_nvOut (n : Nat) : (winErr n s).nvOut = s.nvOut := rfl
@[simp] theorem winErr_nvHeat (n : Nat) : (winErr n s).nvHeat = s.nvHeat := rfl
@[simp] theorem winErr_nvMtr (n : Nat) : (winErr n s).nvMtr = s.nvMtr := rfl
@[simp] theorem winErr_nvSaf (n : Nat) : (winErr n s).nvSaf = s.nvSaf := rfl
@[simp] theorem winErr_nvStk (n : Nat) : (winErr n s).nvStk = s.nvStk := rfl
@[simp] theorem winErr_slots (n : Nat) : (winErr n s).slots = s.slots := rfl
@[simp] theorem winErr_env (n : Nat) : (winErr n s).env = s.env := rfl
@[simp] theorem winErr_free (n : Nat) : (winErr n s).free = s.free := rfl
@[simp] theorem winErr_pending (n : Nat) : (winErr n s).pending = s.pending := rfl

/-! ### A record queued -/

@[simp] theorem append_recd_intake (d : Draft) : (append d s).recd.intake = s.recd.intake ++ [d] := rfl
@[simp] theorem append_sys (d : Draft) : (append d s).sys = s.sys := rfl
@[simp] theorem append_win (d : Draft) : (append d s).win = s.win := rfl
@[simp] theorem append_mbx (d : Draft) : (append d s).mbx = s.mbx := rfl
@[simp] theorem append_keys (d : Draft) : (append d s).keys = s.keys := rfl
@[simp] theorem append_cfg (d : Draft) : (append d s).cfg = s.cfg := rfl
@[simp] theorem append_alc (d : Draft) : (append d s).alc = s.alc := rfl
@[simp] theorem append_cad (d : Draft) : (append d s).cad = s.cad := rfl
@[simp] theorem append_chr (d : Draft) : (append d s).chr = s.chr := rfl
@[simp] theorem append_links (d : Draft) : (append d s).links = s.links := rfl
@[simp] theorem append_ses (d : Draft) : (append d s).ses = s.ses := rfl
@[simp] theorem append_grantAge (d : Draft) : (append d s).grantAge = s.grantAge := rfl
@[simp] theorem append_gpio (d : Draft) : (append d s).gpio = s.gpio := rfl
@[simp] theorem append_heat (d : Draft) : (append d s).heat = s.heat := rfl
@[simp] theorem append_spk (d : Draft) : (append d s).spk = s.spk := rfl
@[simp] theorem append_mtr (d : Draft) : (append d s).mtr = s.mtr := rfl
@[simp] theorem append_saf (d : Draft) : (append d s).saf = s.saf := rfl
@[simp] theorem append_ldc (d : Draft) : (append d s).ldc = s.ldc := rfl
@[simp] theorem append_stk (d : Draft) : (append d s).stk = s.stk := rfl
@[simp] theorem append_tdm (d : Draft) : (append d s).tdm = s.tdm := rfl
@[simp] theorem append_plt (d : Draft) : (append d s).plt = s.plt := rfl
@[simp] theorem append_nv (d : Draft) : (append d s).nv = s.nv := rfl
@[simp] theorem append_nvRec (d : Draft) : (append d s).nvRec = s.nvRec := rfl
@[simp] theorem append_nvHub (d : Draft) : (append d s).nvHub = s.nvHub := rfl
@[simp] theorem append_nvOut (d : Draft) : (append d s).nvOut = s.nvOut := rfl
@[simp] theorem append_nvHeat (d : Draft) : (append d s).nvHeat = s.nvHeat := rfl
@[simp] theorem append_nvMtr (d : Draft) : (append d s).nvMtr = s.nvMtr := rfl
@[simp] theorem append_nvSaf (d : Draft) : (append d s).nvSaf = s.nvSaf := rfl
@[simp] theorem append_nvStk (d : Draft) : (append d s).nvStk = s.nvStk := rfl
@[simp] theorem append_slots (d : Draft) : (append d s).slots = s.slots := rfl
@[simp] theorem append_env (d : Draft) : (append d s).env = s.env := rfl
@[simp] theorem append_free (d : Draft) : (append d s).free = s.free := rfl
@[simp] theorem append_pending (d : Draft) : (append d s).pending = s.pending := rfl

/-! ### A channel changed -/

@[simp] theorem onChan_mbx_channels (ch : Nat) (f : Channel → Channel) : (onChan ch f s).mbx.channels = upd s.mbx.channels ch f := rfl
@[simp] theorem onChan_sys (ch : Nat) (f : Channel → Channel) : (onChan ch f s).sys = s.sys := rfl
@[simp] theorem onChan_win (ch : Nat) (f : Channel → Channel) : (onChan ch f s).win = s.win := rfl
@[simp] theorem onChan_keys (ch : Nat) (f : Channel → Channel) : (onChan ch f s).keys = s.keys := rfl
@[simp] theorem onChan_recd (ch : Nat) (f : Channel → Channel) : (onChan ch f s).recd = s.recd := rfl
@[simp] theorem onChan_cfg (ch : Nat) (f : Channel → Channel) : (onChan ch f s).cfg = s.cfg := rfl
@[simp] theorem onChan_alc (ch : Nat) (f : Channel → Channel) : (onChan ch f s).alc = s.alc := rfl
@[simp] theorem onChan_cad (ch : Nat) (f : Channel → Channel) : (onChan ch f s).cad = s.cad := rfl
@[simp] theorem onChan_chr (ch : Nat) (f : Channel → Channel) : (onChan ch f s).chr = s.chr := rfl
@[simp] theorem onChan_links (ch : Nat) (f : Channel → Channel) : (onChan ch f s).links = s.links := rfl
@[simp] theorem onChan_ses (ch : Nat) (f : Channel → Channel) : (onChan ch f s).ses = s.ses := rfl
@[simp] theorem onChan_grantAge (ch : Nat) (f : Channel → Channel) : (onChan ch f s).grantAge = s.grantAge := rfl
@[simp] theorem onChan_gpio (ch : Nat) (f : Channel → Channel) : (onChan ch f s).gpio = s.gpio := rfl
@[simp] theorem onChan_heat (ch : Nat) (f : Channel → Channel) : (onChan ch f s).heat = s.heat := rfl
@[simp] theorem onChan_spk (ch : Nat) (f : Channel → Channel) : (onChan ch f s).spk = s.spk := rfl
@[simp] theorem onChan_mtr (ch : Nat) (f : Channel → Channel) : (onChan ch f s).mtr = s.mtr := rfl
@[simp] theorem onChan_saf (ch : Nat) (f : Channel → Channel) : (onChan ch f s).saf = s.saf := rfl
@[simp] theorem onChan_ldc (ch : Nat) (f : Channel → Channel) : (onChan ch f s).ldc = s.ldc := rfl
@[simp] theorem onChan_stk (ch : Nat) (f : Channel → Channel) : (onChan ch f s).stk = s.stk := rfl
@[simp] theorem onChan_tdm (ch : Nat) (f : Channel → Channel) : (onChan ch f s).tdm = s.tdm := rfl
@[simp] theorem onChan_plt (ch : Nat) (f : Channel → Channel) : (onChan ch f s).plt = s.plt := rfl
@[simp] theorem onChan_nv (ch : Nat) (f : Channel → Channel) : (onChan ch f s).nv = s.nv := rfl
@[simp] theorem onChan_nvRec (ch : Nat) (f : Channel → Channel) : (onChan ch f s).nvRec = s.nvRec := rfl
@[simp] theorem onChan_nvHub (ch : Nat) (f : Channel → Channel) : (onChan ch f s).nvHub = s.nvHub := rfl
@[simp] theorem onChan_nvOut (ch : Nat) (f : Channel → Channel) : (onChan ch f s).nvOut = s.nvOut := rfl
@[simp] theorem onChan_nvHeat (ch : Nat) (f : Channel → Channel) : (onChan ch f s).nvHeat = s.nvHeat := rfl
@[simp] theorem onChan_nvMtr (ch : Nat) (f : Channel → Channel) : (onChan ch f s).nvMtr = s.nvMtr := rfl
@[simp] theorem onChan_nvSaf (ch : Nat) (f : Channel → Channel) : (onChan ch f s).nvSaf = s.nvSaf := rfl
@[simp] theorem onChan_nvStk (ch : Nat) (f : Channel → Channel) : (onChan ch f s).nvStk = s.nvStk := rfl
@[simp] theorem onChan_slots (ch : Nat) (f : Channel → Channel) : (onChan ch f s).slots = s.slots := rfl
@[simp] theorem onChan_env (ch : Nat) (f : Channel → Channel) : (onChan ch f s).env = s.env := rfl
@[simp] theorem onChan_free (ch : Nat) (f : Channel → Channel) : (onChan ch f s).free = s.free := rfl
@[simp] theorem onChan_pending (ch : Nat) (f : Channel → Channel) : (onChan ch f s).pending = s.pending := rfl

/-! ### A channel counter counted -/

@[simp] theorem count_sys (ch i : Nat) : (count ch i s).sys = s.sys := rfl
@[simp] theorem count_win (ch i : Nat) : (count ch i s).win = s.win := rfl
@[simp] theorem count_keys (ch i : Nat) : (count ch i s).keys = s.keys := rfl
@[simp] theorem count_recd (ch i : Nat) : (count ch i s).recd = s.recd := rfl
@[simp] theorem count_cfg (ch i : Nat) : (count ch i s).cfg = s.cfg := rfl
@[simp] theorem count_alc (ch i : Nat) : (count ch i s).alc = s.alc := rfl
@[simp] theorem count_cad (ch i : Nat) : (count ch i s).cad = s.cad := rfl
@[simp] theorem count_chr (ch i : Nat) : (count ch i s).chr = s.chr := rfl
@[simp] theorem count_links (ch i : Nat) : (count ch i s).links = s.links := rfl
@[simp] theorem count_ses (ch i : Nat) : (count ch i s).ses = s.ses := rfl
@[simp] theorem count_grantAge (ch i : Nat) : (count ch i s).grantAge = s.grantAge := rfl
@[simp] theorem count_gpio (ch i : Nat) : (count ch i s).gpio = s.gpio := rfl
@[simp] theorem count_heat (ch i : Nat) : (count ch i s).heat = s.heat := rfl
@[simp] theorem count_spk (ch i : Nat) : (count ch i s).spk = s.spk := rfl
@[simp] theorem count_mtr (ch i : Nat) : (count ch i s).mtr = s.mtr := rfl
@[simp] theorem count_saf (ch i : Nat) : (count ch i s).saf = s.saf := rfl
@[simp] theorem count_ldc (ch i : Nat) : (count ch i s).ldc = s.ldc := rfl
@[simp] theorem count_stk (ch i : Nat) : (count ch i s).stk = s.stk := rfl
@[simp] theorem count_tdm (ch i : Nat) : (count ch i s).tdm = s.tdm := rfl
@[simp] theorem count_plt (ch i : Nat) : (count ch i s).plt = s.plt := rfl
@[simp] theorem count_nv (ch i : Nat) : (count ch i s).nv = s.nv := rfl
@[simp] theorem count_nvRec (ch i : Nat) : (count ch i s).nvRec = s.nvRec := rfl
@[simp] theorem count_nvHub (ch i : Nat) : (count ch i s).nvHub = s.nvHub := rfl
@[simp] theorem count_nvOut (ch i : Nat) : (count ch i s).nvOut = s.nvOut := rfl
@[simp] theorem count_nvHeat (ch i : Nat) : (count ch i s).nvHeat = s.nvHeat := rfl
@[simp] theorem count_nvMtr (ch i : Nat) : (count ch i s).nvMtr = s.nvMtr := rfl
@[simp] theorem count_nvSaf (ch i : Nat) : (count ch i s).nvSaf = s.nvSaf := rfl
@[simp] theorem count_nvStk (ch i : Nat) : (count ch i s).nvStk = s.nvStk := rfl
@[simp] theorem count_slots (ch i : Nat) : (count ch i s).slots = s.slots := rfl
@[simp] theorem count_env (ch i : Nat) : (count ch i s).env = s.env := rfl
@[simp] theorem count_free (ch i : Nat) : (count ch i s).free = s.free := rfl
@[simp] theorem count_pending (ch i : Nat) : (count ch i s).pending = s.pending := rfl

/-! ### A tag changed -/

@[simp] theorem onTag_sys (ch tag : Nat) (f : Tag → Tag) : (onTag ch tag f s).sys = s.sys := rfl
@[simp] theorem onTag_win (ch tag : Nat) (f : Tag → Tag) : (onTag ch tag f s).win = s.win := rfl
@[simp] theorem onTag_keys (ch tag : Nat) (f : Tag → Tag) : (onTag ch tag f s).keys = s.keys := rfl
@[simp] theorem onTag_recd (ch tag : Nat) (f : Tag → Tag) : (onTag ch tag f s).recd = s.recd := rfl
@[simp] theorem onTag_cfg (ch tag : Nat) (f : Tag → Tag) : (onTag ch tag f s).cfg = s.cfg := rfl
@[simp] theorem onTag_alc (ch tag : Nat) (f : Tag → Tag) : (onTag ch tag f s).alc = s.alc := rfl
@[simp] theorem onTag_cad (ch tag : Nat) (f : Tag → Tag) : (onTag ch tag f s).cad = s.cad := rfl
@[simp] theorem onTag_chr (ch tag : Nat) (f : Tag → Tag) : (onTag ch tag f s).chr = s.chr := rfl
@[simp] theorem onTag_links (ch tag : Nat) (f : Tag → Tag) : (onTag ch tag f s).links = s.links := rfl
@[simp] theorem onTag_ses (ch tag : Nat) (f : Tag → Tag) : (onTag ch tag f s).ses = s.ses := rfl
@[simp] theorem onTag_grantAge (ch tag : Nat) (f : Tag → Tag) : (onTag ch tag f s).grantAge = s.grantAge := rfl
@[simp] theorem onTag_gpio (ch tag : Nat) (f : Tag → Tag) : (onTag ch tag f s).gpio = s.gpio := rfl
@[simp] theorem onTag_heat (ch tag : Nat) (f : Tag → Tag) : (onTag ch tag f s).heat = s.heat := rfl
@[simp] theorem onTag_spk (ch tag : Nat) (f : Tag → Tag) : (onTag ch tag f s).spk = s.spk := rfl
@[simp] theorem onTag_mtr (ch tag : Nat) (f : Tag → Tag) : (onTag ch tag f s).mtr = s.mtr := rfl
@[simp] theorem onTag_saf (ch tag : Nat) (f : Tag → Tag) : (onTag ch tag f s).saf = s.saf := rfl
@[simp] theorem onTag_ldc (ch tag : Nat) (f : Tag → Tag) : (onTag ch tag f s).ldc = s.ldc := rfl
@[simp] theorem onTag_stk (ch tag : Nat) (f : Tag → Tag) : (onTag ch tag f s).stk = s.stk := rfl
@[simp] theorem onTag_tdm (ch tag : Nat) (f : Tag → Tag) : (onTag ch tag f s).tdm = s.tdm := rfl
@[simp] theorem onTag_plt (ch tag : Nat) (f : Tag → Tag) : (onTag ch tag f s).plt = s.plt := rfl
@[simp] theorem onTag_nv (ch tag : Nat) (f : Tag → Tag) : (onTag ch tag f s).nv = s.nv := rfl
@[simp] theorem onTag_nvRec (ch tag : Nat) (f : Tag → Tag) : (onTag ch tag f s).nvRec = s.nvRec := rfl
@[simp] theorem onTag_nvHub (ch tag : Nat) (f : Tag → Tag) : (onTag ch tag f s).nvHub = s.nvHub := rfl
@[simp] theorem onTag_nvOut (ch tag : Nat) (f : Tag → Tag) : (onTag ch tag f s).nvOut = s.nvOut := rfl
@[simp] theorem onTag_nvHeat (ch tag : Nat) (f : Tag → Tag) : (onTag ch tag f s).nvHeat = s.nvHeat := rfl
@[simp] theorem onTag_nvMtr (ch tag : Nat) (f : Tag → Tag) : (onTag ch tag f s).nvMtr = s.nvMtr := rfl
@[simp] theorem onTag_nvSaf (ch tag : Nat) (f : Tag → Tag) : (onTag ch tag f s).nvSaf = s.nvSaf := rfl
@[simp] theorem onTag_nvStk (ch tag : Nat) (f : Tag → Tag) : (onTag ch tag f s).nvStk = s.nvStk := rfl
@[simp] theorem onTag_slots (ch tag : Nat) (f : Tag → Tag) : (onTag ch tag f s).slots = s.slots := rfl
@[simp] theorem onTag_env (ch tag : Nat) (f : Tag → Tag) : (onTag ch tag f s).env = s.env := rfl
@[simp] theorem onTag_free (ch tag : Nat) (f : Tag → Tag) : (onTag ch tag f s).free = s.free := rfl
@[simp] theorem onTag_pending (ch tag : Nat) (f : Tag → Tag) : (onTag ch tag f s).pending = s.pending := rfl

/-! ### A recorder partition changed -/

@[simp] theorem onPart_nvRec_parts (p : Nat) (f : Part → Part) : (onPart p f s).nvRec.parts = upd s.nvRec.parts (p - 1) f := rfl
@[simp] theorem onPart_sys (p : Nat) (f : Part → Part) : (onPart p f s).sys = s.sys := rfl
@[simp] theorem onPart_win (p : Nat) (f : Part → Part) : (onPart p f s).win = s.win := rfl
@[simp] theorem onPart_mbx (p : Nat) (f : Part → Part) : (onPart p f s).mbx = s.mbx := rfl
@[simp] theorem onPart_keys (p : Nat) (f : Part → Part) : (onPart p f s).keys = s.keys := rfl
@[simp] theorem onPart_recd (p : Nat) (f : Part → Part) : (onPart p f s).recd = s.recd := rfl
@[simp] theorem onPart_cfg (p : Nat) (f : Part → Part) : (onPart p f s).cfg = s.cfg := rfl
@[simp] theorem onPart_alc (p : Nat) (f : Part → Part) : (onPart p f s).alc = s.alc := rfl
@[simp] theorem onPart_cad (p : Nat) (f : Part → Part) : (onPart p f s).cad = s.cad := rfl
@[simp] theorem onPart_chr (p : Nat) (f : Part → Part) : (onPart p f s).chr = s.chr := rfl
@[simp] theorem onPart_links (p : Nat) (f : Part → Part) : (onPart p f s).links = s.links := rfl
@[simp] theorem onPart_ses (p : Nat) (f : Part → Part) : (onPart p f s).ses = s.ses := rfl
@[simp] theorem onPart_grantAge (p : Nat) (f : Part → Part) : (onPart p f s).grantAge = s.grantAge := rfl
@[simp] theorem onPart_gpio (p : Nat) (f : Part → Part) : (onPart p f s).gpio = s.gpio := rfl
@[simp] theorem onPart_heat (p : Nat) (f : Part → Part) : (onPart p f s).heat = s.heat := rfl
@[simp] theorem onPart_spk (p : Nat) (f : Part → Part) : (onPart p f s).spk = s.spk := rfl
@[simp] theorem onPart_mtr (p : Nat) (f : Part → Part) : (onPart p f s).mtr = s.mtr := rfl
@[simp] theorem onPart_saf (p : Nat) (f : Part → Part) : (onPart p f s).saf = s.saf := rfl
@[simp] theorem onPart_ldc (p : Nat) (f : Part → Part) : (onPart p f s).ldc = s.ldc := rfl
@[simp] theorem onPart_stk (p : Nat) (f : Part → Part) : (onPart p f s).stk = s.stk := rfl
@[simp] theorem onPart_tdm (p : Nat) (f : Part → Part) : (onPart p f s).tdm = s.tdm := rfl
@[simp] theorem onPart_plt (p : Nat) (f : Part → Part) : (onPart p f s).plt = s.plt := rfl
@[simp] theorem onPart_nv (p : Nat) (f : Part → Part) : (onPart p f s).nv = s.nv := rfl
@[simp] theorem onPart_nvHub (p : Nat) (f : Part → Part) : (onPart p f s).nvHub = s.nvHub := rfl
@[simp] theorem onPart_nvOut (p : Nat) (f : Part → Part) : (onPart p f s).nvOut = s.nvOut := rfl
@[simp] theorem onPart_nvHeat (p : Nat) (f : Part → Part) : (onPart p f s).nvHeat = s.nvHeat := rfl
@[simp] theorem onPart_nvMtr (p : Nat) (f : Part → Part) : (onPart p f s).nvMtr = s.nvMtr := rfl
@[simp] theorem onPart_nvSaf (p : Nat) (f : Part → Part) : (onPart p f s).nvSaf = s.nvSaf := rfl
@[simp] theorem onPart_nvStk (p : Nat) (f : Part → Part) : (onPart p f s).nvStk = s.nvStk := rfl
@[simp] theorem onPart_slots (p : Nat) (f : Part → Part) : (onPart p f s).slots = s.slots := rfl
@[simp] theorem onPart_env (p : Nat) (f : Part → Part) : (onPart p f s).env = s.env := rfl
@[simp] theorem onPart_free (p : Nat) (f : Part → Part) : (onPart p f s).free = s.free := rfl
@[simp] theorem onPart_pending (p : Nat) (f : Part → Part) : (onPart p f s).pending = s.pending := rfl

/-! ### A vehicle link changed -/

@[simp] theorem onLink_links (slot : Nat) (f : Link → Link) : (onLink slot f s).links = upd s.links slot f := rfl
@[simp] theorem onLink_sys (slot : Nat) (f : Link → Link) : (onLink slot f s).sys = s.sys := rfl
@[simp] theorem onLink_win (slot : Nat) (f : Link → Link) : (onLink slot f s).win = s.win := rfl
@[simp] theorem onLink_mbx (slot : Nat) (f : Link → Link) : (onLink slot f s).mbx = s.mbx := rfl
@[simp] theorem onLink_keys (slot : Nat) (f : Link → Link) : (onLink slot f s).keys = s.keys := rfl
@[simp] theorem onLink_recd (slot : Nat) (f : Link → Link) : (onLink slot f s).recd = s.recd := rfl
@[simp] theorem onLink_cfg (slot : Nat) (f : Link → Link) : (onLink slot f s).cfg = s.cfg := rfl
@[simp] theorem onLink_alc (slot : Nat) (f : Link → Link) : (onLink slot f s).alc = s.alc := rfl
@[simp] theorem onLink_cad (slot : Nat) (f : Link → Link) : (onLink slot f s).cad = s.cad := rfl
@[simp] theorem onLink_chr (slot : Nat) (f : Link → Link) : (onLink slot f s).chr = s.chr := rfl
@[simp] theorem onLink_ses (slot : Nat) (f : Link → Link) : (onLink slot f s).ses = s.ses := rfl
@[simp] theorem onLink_grantAge (slot : Nat) (f : Link → Link) : (onLink slot f s).grantAge = s.grantAge := rfl
@[simp] theorem onLink_gpio (slot : Nat) (f : Link → Link) : (onLink slot f s).gpio = s.gpio := rfl
@[simp] theorem onLink_heat (slot : Nat) (f : Link → Link) : (onLink slot f s).heat = s.heat := rfl
@[simp] theorem onLink_spk (slot : Nat) (f : Link → Link) : (onLink slot f s).spk = s.spk := rfl
@[simp] theorem onLink_mtr (slot : Nat) (f : Link → Link) : (onLink slot f s).mtr = s.mtr := rfl
@[simp] theorem onLink_saf (slot : Nat) (f : Link → Link) : (onLink slot f s).saf = s.saf := rfl
@[simp] theorem onLink_ldc (slot : Nat) (f : Link → Link) : (onLink slot f s).ldc = s.ldc := rfl
@[simp] theorem onLink_stk (slot : Nat) (f : Link → Link) : (onLink slot f s).stk = s.stk := rfl
@[simp] theorem onLink_tdm (slot : Nat) (f : Link → Link) : (onLink slot f s).tdm = s.tdm := rfl
@[simp] theorem onLink_plt (slot : Nat) (f : Link → Link) : (onLink slot f s).plt = s.plt := rfl
@[simp] theorem onLink_nv (slot : Nat) (f : Link → Link) : (onLink slot f s).nv = s.nv := rfl
@[simp] theorem onLink_nvRec (slot : Nat) (f : Link → Link) : (onLink slot f s).nvRec = s.nvRec := rfl
@[simp] theorem onLink_nvHub (slot : Nat) (f : Link → Link) : (onLink slot f s).nvHub = s.nvHub := rfl
@[simp] theorem onLink_nvOut (slot : Nat) (f : Link → Link) : (onLink slot f s).nvOut = s.nvOut := rfl
@[simp] theorem onLink_nvHeat (slot : Nat) (f : Link → Link) : (onLink slot f s).nvHeat = s.nvHeat := rfl
@[simp] theorem onLink_nvMtr (slot : Nat) (f : Link → Link) : (onLink slot f s).nvMtr = s.nvMtr := rfl
@[simp] theorem onLink_nvSaf (slot : Nat) (f : Link → Link) : (onLink slot f s).nvSaf = s.nvSaf := rfl
@[simp] theorem onLink_nvStk (slot : Nat) (f : Link → Link) : (onLink slot f s).nvStk = s.nvStk := rfl
@[simp] theorem onLink_slots (slot : Nat) (f : Link → Link) : (onLink slot f s).slots = s.slots := rfl
@[simp] theorem onLink_env (slot : Nat) (f : Link → Link) : (onLink slot f s).env = s.env := rfl
@[simp] theorem onLink_free (slot : Nat) (f : Link → Link) : (onLink slot f s).free = s.free := rfl
@[simp] theorem onLink_pending (slot : Nat) (f : Link → Link) : (onLink slot f s).pending = s.pending := rfl

/-! ### A session changed -/

@[simp] theorem onSes_ses (slot : Nat) (f : Session → Session) : (onSes slot f s).ses = upd s.ses slot f := rfl
@[simp] theorem onSes_sys (slot : Nat) (f : Session → Session) : (onSes slot f s).sys = s.sys := rfl
@[simp] theorem onSes_win (slot : Nat) (f : Session → Session) : (onSes slot f s).win = s.win := rfl
@[simp] theorem onSes_mbx (slot : Nat) (f : Session → Session) : (onSes slot f s).mbx = s.mbx := rfl
@[simp] theorem onSes_keys (slot : Nat) (f : Session → Session) : (onSes slot f s).keys = s.keys := rfl
@[simp] theorem onSes_recd (slot : Nat) (f : Session → Session) : (onSes slot f s).recd = s.recd := rfl
@[simp] theorem onSes_cfg (slot : Nat) (f : Session → Session) : (onSes slot f s).cfg = s.cfg := rfl
@[simp] theorem onSes_alc (slot : Nat) (f : Session → Session) : (onSes slot f s).alc = s.alc := rfl
@[simp] theorem onSes_cad (slot : Nat) (f : Session → Session) : (onSes slot f s).cad = s.cad := rfl
@[simp] theorem onSes_chr (slot : Nat) (f : Session → Session) : (onSes slot f s).chr = s.chr := rfl
@[simp] theorem onSes_links (slot : Nat) (f : Session → Session) : (onSes slot f s).links = s.links := rfl
@[simp] theorem onSes_grantAge (slot : Nat) (f : Session → Session) : (onSes slot f s).grantAge = s.grantAge := rfl
@[simp] theorem onSes_gpio (slot : Nat) (f : Session → Session) : (onSes slot f s).gpio = s.gpio := rfl
@[simp] theorem onSes_heat (slot : Nat) (f : Session → Session) : (onSes slot f s).heat = s.heat := rfl
@[simp] theorem onSes_spk (slot : Nat) (f : Session → Session) : (onSes slot f s).spk = s.spk := rfl
@[simp] theorem onSes_mtr (slot : Nat) (f : Session → Session) : (onSes slot f s).mtr = s.mtr := rfl
@[simp] theorem onSes_saf (slot : Nat) (f : Session → Session) : (onSes slot f s).saf = s.saf := rfl
@[simp] theorem onSes_ldc (slot : Nat) (f : Session → Session) : (onSes slot f s).ldc = s.ldc := rfl
@[simp] theorem onSes_stk (slot : Nat) (f : Session → Session) : (onSes slot f s).stk = s.stk := rfl
@[simp] theorem onSes_tdm (slot : Nat) (f : Session → Session) : (onSes slot f s).tdm = s.tdm := rfl
@[simp] theorem onSes_plt (slot : Nat) (f : Session → Session) : (onSes slot f s).plt = s.plt := rfl
@[simp] theorem onSes_nv (slot : Nat) (f : Session → Session) : (onSes slot f s).nv = s.nv := rfl
@[simp] theorem onSes_nvRec (slot : Nat) (f : Session → Session) : (onSes slot f s).nvRec = s.nvRec := rfl
@[simp] theorem onSes_nvHub (slot : Nat) (f : Session → Session) : (onSes slot f s).nvHub = s.nvHub := rfl
@[simp] theorem onSes_nvOut (slot : Nat) (f : Session → Session) : (onSes slot f s).nvOut = s.nvOut := rfl
@[simp] theorem onSes_nvHeat (slot : Nat) (f : Session → Session) : (onSes slot f s).nvHeat = s.nvHeat := rfl
@[simp] theorem onSes_nvMtr (slot : Nat) (f : Session → Session) : (onSes slot f s).nvMtr = s.nvMtr := rfl
@[simp] theorem onSes_nvSaf (slot : Nat) (f : Session → Session) : (onSes slot f s).nvSaf = s.nvSaf := rfl
@[simp] theorem onSes_nvStk (slot : Nat) (f : Session → Session) : (onSes slot f s).nvStk = s.nvStk := rfl
@[simp] theorem onSes_slots (slot : Nat) (f : Session → Session) : (onSes slot f s).slots = s.slots := rfl
@[simp] theorem onSes_env (slot : Nat) (f : Session → Session) : (onSes slot f s).env = s.env := rfl
@[simp] theorem onSes_free (slot : Nat) (f : Session → Session) : (onSes slot f s).free = s.free := rfl
@[simp] theorem onSes_pending (slot : Nat) (f : Session → Session) : (onSes slot f s).pending = s.pending := rfl

/-! ### A competition group changed -/

@[simp] theorem onGroup_cad_groups (g : Nat) (f : Group → Group) : (onGroup g f s).cad.groups = upd s.cad.groups g f := rfl
@[simp] theorem onGroup_sys (g : Nat) (f : Group → Group) : (onGroup g f s).sys = s.sys := rfl
@[simp] theorem onGroup_win (g : Nat) (f : Group → Group) : (onGroup g f s).win = s.win := rfl
@[simp] theorem onGroup_mbx (g : Nat) (f : Group → Group) : (onGroup g f s).mbx = s.mbx := rfl
@[simp] theorem onGroup_keys (g : Nat) (f : Group → Group) : (onGroup g f s).keys = s.keys := rfl
@[simp] theorem onGroup_recd (g : Nat) (f : Group → Group) : (onGroup g f s).recd = s.recd := rfl
@[simp] theorem onGroup_cfg (g : Nat) (f : Group → Group) : (onGroup g f s).cfg = s.cfg := rfl
@[simp] theorem onGroup_alc (g : Nat) (f : Group → Group) : (onGroup g f s).alc = s.alc := rfl
@[simp] theorem onGroup_chr (g : Nat) (f : Group → Group) : (onGroup g f s).chr = s.chr := rfl
@[simp] theorem onGroup_links (g : Nat) (f : Group → Group) : (onGroup g f s).links = s.links := rfl
@[simp] theorem onGroup_ses (g : Nat) (f : Group → Group) : (onGroup g f s).ses = s.ses := rfl
@[simp] theorem onGroup_grantAge (g : Nat) (f : Group → Group) : (onGroup g f s).grantAge = s.grantAge := rfl
@[simp] theorem onGroup_gpio (g : Nat) (f : Group → Group) : (onGroup g f s).gpio = s.gpio := rfl
@[simp] theorem onGroup_heat (g : Nat) (f : Group → Group) : (onGroup g f s).heat = s.heat := rfl
@[simp] theorem onGroup_spk (g : Nat) (f : Group → Group) : (onGroup g f s).spk = s.spk := rfl
@[simp] theorem onGroup_mtr (g : Nat) (f : Group → Group) : (onGroup g f s).mtr = s.mtr := rfl
@[simp] theorem onGroup_saf (g : Nat) (f : Group → Group) : (onGroup g f s).saf = s.saf := rfl
@[simp] theorem onGroup_ldc (g : Nat) (f : Group → Group) : (onGroup g f s).ldc = s.ldc := rfl
@[simp] theorem onGroup_stk (g : Nat) (f : Group → Group) : (onGroup g f s).stk = s.stk := rfl
@[simp] theorem onGroup_tdm (g : Nat) (f : Group → Group) : (onGroup g f s).tdm = s.tdm := rfl
@[simp] theorem onGroup_plt (g : Nat) (f : Group → Group) : (onGroup g f s).plt = s.plt := rfl
@[simp] theorem onGroup_nv (g : Nat) (f : Group → Group) : (onGroup g f s).nv = s.nv := rfl
@[simp] theorem onGroup_nvRec (g : Nat) (f : Group → Group) : (onGroup g f s).nvRec = s.nvRec := rfl
@[simp] theorem onGroup_nvHub (g : Nat) (f : Group → Group) : (onGroup g f s).nvHub = s.nvHub := rfl
@[simp] theorem onGroup_nvOut (g : Nat) (f : Group → Group) : (onGroup g f s).nvOut = s.nvOut := rfl
@[simp] theorem onGroup_nvHeat (g : Nat) (f : Group → Group) : (onGroup g f s).nvHeat = s.nvHeat := rfl
@[simp] theorem onGroup_nvMtr (g : Nat) (f : Group → Group) : (onGroup g f s).nvMtr = s.nvMtr := rfl
@[simp] theorem onGroup_nvSaf (g : Nat) (f : Group → Group) : (onGroup g f s).nvSaf = s.nvSaf := rfl
@[simp] theorem onGroup_nvStk (g : Nat) (f : Group → Group) : (onGroup g f s).nvStk = s.nvStk := rfl
@[simp] theorem onGroup_slots (g : Nat) (f : Group → Group) : (onGroup g f s).slots = s.slots := rfl
@[simp] theorem onGroup_env (g : Nat) (f : Group → Group) : (onGroup g f s).env = s.env := rfl
@[simp] theorem onGroup_free (g : Nat) (f : Group → Group) : (onGroup g f s).free = s.free := rfl
@[simp] theorem onGroup_pending (g : Nat) (f : Group → Group) : (onGroup g f s).pending = s.pending := rfl

/-! ### A control loop changed -/

@[simp] theorem onLoop_cad_loops (i : Nat) (f : Loop → Loop) : (onLoop i f s).cad.loops = upd s.cad.loops i f := rfl
@[simp] theorem onLoop_sys (i : Nat) (f : Loop → Loop) : (onLoop i f s).sys = s.sys := rfl
@[simp] theorem onLoop_win (i : Nat) (f : Loop → Loop) : (onLoop i f s).win = s.win := rfl
@[simp] theorem onLoop_mbx (i : Nat) (f : Loop → Loop) : (onLoop i f s).mbx = s.mbx := rfl
@[simp] theorem onLoop_keys (i : Nat) (f : Loop → Loop) : (onLoop i f s).keys = s.keys := rfl
@[simp] theorem onLoop_recd (i : Nat) (f : Loop → Loop) : (onLoop i f s).recd = s.recd := rfl
@[simp] theorem onLoop_cfg (i : Nat) (f : Loop → Loop) : (onLoop i f s).cfg = s.cfg := rfl
@[simp] theorem onLoop_alc (i : Nat) (f : Loop → Loop) : (onLoop i f s).alc = s.alc := rfl
@[simp] theorem onLoop_chr (i : Nat) (f : Loop → Loop) : (onLoop i f s).chr = s.chr := rfl
@[simp] theorem onLoop_links (i : Nat) (f : Loop → Loop) : (onLoop i f s).links = s.links := rfl
@[simp] theorem onLoop_ses (i : Nat) (f : Loop → Loop) : (onLoop i f s).ses = s.ses := rfl
@[simp] theorem onLoop_grantAge (i : Nat) (f : Loop → Loop) : (onLoop i f s).grantAge = s.grantAge := rfl
@[simp] theorem onLoop_gpio (i : Nat) (f : Loop → Loop) : (onLoop i f s).gpio = s.gpio := rfl
@[simp] theorem onLoop_heat (i : Nat) (f : Loop → Loop) : (onLoop i f s).heat = s.heat := rfl
@[simp] theorem onLoop_spk (i : Nat) (f : Loop → Loop) : (onLoop i f s).spk = s.spk := rfl
@[simp] theorem onLoop_mtr (i : Nat) (f : Loop → Loop) : (onLoop i f s).mtr = s.mtr := rfl
@[simp] theorem onLoop_saf (i : Nat) (f : Loop → Loop) : (onLoop i f s).saf = s.saf := rfl
@[simp] theorem onLoop_ldc (i : Nat) (f : Loop → Loop) : (onLoop i f s).ldc = s.ldc := rfl
@[simp] theorem onLoop_stk (i : Nat) (f : Loop → Loop) : (onLoop i f s).stk = s.stk := rfl
@[simp] theorem onLoop_tdm (i : Nat) (f : Loop → Loop) : (onLoop i f s).tdm = s.tdm := rfl
@[simp] theorem onLoop_plt (i : Nat) (f : Loop → Loop) : (onLoop i f s).plt = s.plt := rfl
@[simp] theorem onLoop_nv (i : Nat) (f : Loop → Loop) : (onLoop i f s).nv = s.nv := rfl
@[simp] theorem onLoop_nvRec (i : Nat) (f : Loop → Loop) : (onLoop i f s).nvRec = s.nvRec := rfl
@[simp] theorem onLoop_nvHub (i : Nat) (f : Loop → Loop) : (onLoop i f s).nvHub = s.nvHub := rfl
@[simp] theorem onLoop_nvOut (i : Nat) (f : Loop → Loop) : (onLoop i f s).nvOut = s.nvOut := rfl
@[simp] theorem onLoop_nvHeat (i : Nat) (f : Loop → Loop) : (onLoop i f s).nvHeat = s.nvHeat := rfl
@[simp] theorem onLoop_nvMtr (i : Nat) (f : Loop → Loop) : (onLoop i f s).nvMtr = s.nvMtr := rfl
@[simp] theorem onLoop_nvSaf (i : Nat) (f : Loop → Loop) : (onLoop i f s).nvSaf = s.nvSaf := rfl
@[simp] theorem onLoop_nvStk (i : Nat) (f : Loop → Loop) : (onLoop i f s).nvStk = s.nvStk := rfl
@[simp] theorem onLoop_slots (i : Nat) (f : Loop → Loop) : (onLoop i f s).slots = s.slots := rfl
@[simp] theorem onLoop_env (i : Nat) (f : Loop → Loop) : (onLoop i f s).env = s.env := rfl
@[simp] theorem onLoop_free (i : Nat) (f : Loop → Loop) : (onLoop i f s).free = s.free := rfl
@[simp] theorem onLoop_pending (i : Nat) (f : Loop → Loop) : (onLoop i f s).pending = s.pending := rfl

/-! ### A stage changed -/

@[simp] theorem onStage_chr_stages (i : Nat) (f : Stage → Stage) : (onStage i f s).chr.stages = upd s.chr.stages i f := rfl
@[simp] theorem onStage_sys (i : Nat) (f : Stage → Stage) : (onStage i f s).sys = s.sys := rfl
@[simp] theorem onStage_win (i : Nat) (f : Stage → Stage) : (onStage i f s).win = s.win := rfl
@[simp] theorem onStage_mbx (i : Nat) (f : Stage → Stage) : (onStage i f s).mbx = s.mbx := rfl
@[simp] theorem onStage_keys (i : Nat) (f : Stage → Stage) : (onStage i f s).keys = s.keys := rfl
@[simp] theorem onStage_recd (i : Nat) (f : Stage → Stage) : (onStage i f s).recd = s.recd := rfl
@[simp] theorem onStage_cfg (i : Nat) (f : Stage → Stage) : (onStage i f s).cfg = s.cfg := rfl
@[simp] theorem onStage_alc (i : Nat) (f : Stage → Stage) : (onStage i f s).alc = s.alc := rfl
@[simp] theorem onStage_cad (i : Nat) (f : Stage → Stage) : (onStage i f s).cad = s.cad := rfl
@[simp] theorem onStage_links (i : Nat) (f : Stage → Stage) : (onStage i f s).links = s.links := rfl
@[simp] theorem onStage_ses (i : Nat) (f : Stage → Stage) : (onStage i f s).ses = s.ses := rfl
@[simp] theorem onStage_grantAge (i : Nat) (f : Stage → Stage) : (onStage i f s).grantAge = s.grantAge := rfl
@[simp] theorem onStage_gpio (i : Nat) (f : Stage → Stage) : (onStage i f s).gpio = s.gpio := rfl
@[simp] theorem onStage_heat (i : Nat) (f : Stage → Stage) : (onStage i f s).heat = s.heat := rfl
@[simp] theorem onStage_spk (i : Nat) (f : Stage → Stage) : (onStage i f s).spk = s.spk := rfl
@[simp] theorem onStage_mtr (i : Nat) (f : Stage → Stage) : (onStage i f s).mtr = s.mtr := rfl
@[simp] theorem onStage_saf (i : Nat) (f : Stage → Stage) : (onStage i f s).saf = s.saf := rfl
@[simp] theorem onStage_ldc (i : Nat) (f : Stage → Stage) : (onStage i f s).ldc = s.ldc := rfl
@[simp] theorem onStage_stk (i : Nat) (f : Stage → Stage) : (onStage i f s).stk = s.stk := rfl
@[simp] theorem onStage_tdm (i : Nat) (f : Stage → Stage) : (onStage i f s).tdm = s.tdm := rfl
@[simp] theorem onStage_plt (i : Nat) (f : Stage → Stage) : (onStage i f s).plt = s.plt := rfl
@[simp] theorem onStage_nv (i : Nat) (f : Stage → Stage) : (onStage i f s).nv = s.nv := rfl
@[simp] theorem onStage_nvRec (i : Nat) (f : Stage → Stage) : (onStage i f s).nvRec = s.nvRec := rfl
@[simp] theorem onStage_nvHub (i : Nat) (f : Stage → Stage) : (onStage i f s).nvHub = s.nvHub := rfl
@[simp] theorem onStage_nvOut (i : Nat) (f : Stage → Stage) : (onStage i f s).nvOut = s.nvOut := rfl
@[simp] theorem onStage_nvHeat (i : Nat) (f : Stage → Stage) : (onStage i f s).nvHeat = s.nvHeat := rfl
@[simp] theorem onStage_nvMtr (i : Nat) (f : Stage → Stage) : (onStage i f s).nvMtr = s.nvMtr := rfl
@[simp] theorem onStage_nvSaf (i : Nat) (f : Stage → Stage) : (onStage i f s).nvSaf = s.nvSaf := rfl
@[simp] theorem onStage_nvStk (i : Nat) (f : Stage → Stage) : (onStage i f s).nvStk = s.nvStk := rfl
@[simp] theorem onStage_slots (i : Nat) (f : Stage → Stage) : (onStage i f s).slots = s.slots := rfl
@[simp] theorem onStage_env (i : Nat) (f : Stage → Stage) : (onStage i f s).env = s.env := rfl
@[simp] theorem onStage_free (i : Nat) (f : Stage → Stage) : (onStage i f s).free = s.free := rfl
@[simp] theorem onStage_pending (i : Nat) (f : Stage → Stage) : (onStage i f s).pending = s.pending := rfl

/-! ### A ring changed -/

@[simp] theorem onRing_chr_rings (i : Nat) (f : Ring → Ring) : (onRing i f s).chr.rings = upd s.chr.rings i f := rfl
@[simp] theorem onRing_sys (i : Nat) (f : Ring → Ring) : (onRing i f s).sys = s.sys := rfl
@[simp] theorem onRing_win (i : Nat) (f : Ring → Ring) : (onRing i f s).win = s.win := rfl
@[simp] theorem onRing_mbx (i : Nat) (f : Ring → Ring) : (onRing i f s).mbx = s.mbx := rfl
@[simp] theorem onRing_keys (i : Nat) (f : Ring → Ring) : (onRing i f s).keys = s.keys := rfl
@[simp] theorem onRing_recd (i : Nat) (f : Ring → Ring) : (onRing i f s).recd = s.recd := rfl
@[simp] theorem onRing_cfg (i : Nat) (f : Ring → Ring) : (onRing i f s).cfg = s.cfg := rfl
@[simp] theorem onRing_alc (i : Nat) (f : Ring → Ring) : (onRing i f s).alc = s.alc := rfl
@[simp] theorem onRing_cad (i : Nat) (f : Ring → Ring) : (onRing i f s).cad = s.cad := rfl
@[simp] theorem onRing_links (i : Nat) (f : Ring → Ring) : (onRing i f s).links = s.links := rfl
@[simp] theorem onRing_ses (i : Nat) (f : Ring → Ring) : (onRing i f s).ses = s.ses := rfl
@[simp] theorem onRing_grantAge (i : Nat) (f : Ring → Ring) : (onRing i f s).grantAge = s.grantAge := rfl
@[simp] theorem onRing_gpio (i : Nat) (f : Ring → Ring) : (onRing i f s).gpio = s.gpio := rfl
@[simp] theorem onRing_heat (i : Nat) (f : Ring → Ring) : (onRing i f s).heat = s.heat := rfl
@[simp] theorem onRing_spk (i : Nat) (f : Ring → Ring) : (onRing i f s).spk = s.spk := rfl
@[simp] theorem onRing_mtr (i : Nat) (f : Ring → Ring) : (onRing i f s).mtr = s.mtr := rfl
@[simp] theorem onRing_saf (i : Nat) (f : Ring → Ring) : (onRing i f s).saf = s.saf := rfl
@[simp] theorem onRing_ldc (i : Nat) (f : Ring → Ring) : (onRing i f s).ldc = s.ldc := rfl
@[simp] theorem onRing_stk (i : Nat) (f : Ring → Ring) : (onRing i f s).stk = s.stk := rfl
@[simp] theorem onRing_tdm (i : Nat) (f : Ring → Ring) : (onRing i f s).tdm = s.tdm := rfl
@[simp] theorem onRing_plt (i : Nat) (f : Ring → Ring) : (onRing i f s).plt = s.plt := rfl
@[simp] theorem onRing_nv (i : Nat) (f : Ring → Ring) : (onRing i f s).nv = s.nv := rfl
@[simp] theorem onRing_nvRec (i : Nat) (f : Ring → Ring) : (onRing i f s).nvRec = s.nvRec := rfl
@[simp] theorem onRing_nvHub (i : Nat) (f : Ring → Ring) : (onRing i f s).nvHub = s.nvHub := rfl
@[simp] theorem onRing_nvOut (i : Nat) (f : Ring → Ring) : (onRing i f s).nvOut = s.nvOut := rfl
@[simp] theorem onRing_nvHeat (i : Nat) (f : Ring → Ring) : (onRing i f s).nvHeat = s.nvHeat := rfl
@[simp] theorem onRing_nvMtr (i : Nat) (f : Ring → Ring) : (onRing i f s).nvMtr = s.nvMtr := rfl
@[simp] theorem onRing_nvSaf (i : Nat) (f : Ring → Ring) : (onRing i f s).nvSaf = s.nvSaf := rfl
@[simp] theorem onRing_nvStk (i : Nat) (f : Ring → Ring) : (onRing i f s).nvStk = s.nvStk := rfl
@[simp] theorem onRing_slots (i : Nat) (f : Ring → Ring) : (onRing i f s).slots = s.slots := rfl
@[simp] theorem onRing_env (i : Nat) (f : Ring → Ring) : (onRing i f s).env = s.env := rfl
@[simp] theorem onRing_free (i : Nat) (f : Ring → Ring) : (onRing i f s).free = s.free := rfl
@[simp] theorem onRing_pending (i : Nat) (f : Ring → Ring) : (onRing i f s).pending = s.pending := rfl

/-! ### An assignment changed -/

@[simp] theorem onAssign_alc_assign (i : Nat) (f : Assign → Assign) : (onAssign i f s).alc.assign = upd s.alc.assign i f := rfl
@[simp] theorem onAssign_sys (i : Nat) (f : Assign → Assign) : (onAssign i f s).sys = s.sys := rfl
@[simp] theorem onAssign_win (i : Nat) (f : Assign → Assign) : (onAssign i f s).win = s.win := rfl
@[simp] theorem onAssign_mbx (i : Nat) (f : Assign → Assign) : (onAssign i f s).mbx = s.mbx := rfl
@[simp] theorem onAssign_keys (i : Nat) (f : Assign → Assign) : (onAssign i f s).keys = s.keys := rfl
@[simp] theorem onAssign_recd (i : Nat) (f : Assign → Assign) : (onAssign i f s).recd = s.recd := rfl
@[simp] theorem onAssign_cfg (i : Nat) (f : Assign → Assign) : (onAssign i f s).cfg = s.cfg := rfl
@[simp] theorem onAssign_cad (i : Nat) (f : Assign → Assign) : (onAssign i f s).cad = s.cad := rfl
@[simp] theorem onAssign_chr (i : Nat) (f : Assign → Assign) : (onAssign i f s).chr = s.chr := rfl
@[simp] theorem onAssign_links (i : Nat) (f : Assign → Assign) : (onAssign i f s).links = s.links := rfl
@[simp] theorem onAssign_ses (i : Nat) (f : Assign → Assign) : (onAssign i f s).ses = s.ses := rfl
@[simp] theorem onAssign_grantAge (i : Nat) (f : Assign → Assign) : (onAssign i f s).grantAge = s.grantAge := rfl
@[simp] theorem onAssign_gpio (i : Nat) (f : Assign → Assign) : (onAssign i f s).gpio = s.gpio := rfl
@[simp] theorem onAssign_heat (i : Nat) (f : Assign → Assign) : (onAssign i f s).heat = s.heat := rfl
@[simp] theorem onAssign_spk (i : Nat) (f : Assign → Assign) : (onAssign i f s).spk = s.spk := rfl
@[simp] theorem onAssign_mtr (i : Nat) (f : Assign → Assign) : (onAssign i f s).mtr = s.mtr := rfl
@[simp] theorem onAssign_saf (i : Nat) (f : Assign → Assign) : (onAssign i f s).saf = s.saf := rfl
@[simp] theorem onAssign_ldc (i : Nat) (f : Assign → Assign) : (onAssign i f s).ldc = s.ldc := rfl
@[simp] theorem onAssign_stk (i : Nat) (f : Assign → Assign) : (onAssign i f s).stk = s.stk := rfl
@[simp] theorem onAssign_tdm (i : Nat) (f : Assign → Assign) : (onAssign i f s).tdm = s.tdm := rfl
@[simp] theorem onAssign_plt (i : Nat) (f : Assign → Assign) : (onAssign i f s).plt = s.plt := rfl
@[simp] theorem onAssign_nv (i : Nat) (f : Assign → Assign) : (onAssign i f s).nv = s.nv := rfl
@[simp] theorem onAssign_nvRec (i : Nat) (f : Assign → Assign) : (onAssign i f s).nvRec = s.nvRec := rfl
@[simp] theorem onAssign_nvHub (i : Nat) (f : Assign → Assign) : (onAssign i f s).nvHub = s.nvHub := rfl
@[simp] theorem onAssign_nvOut (i : Nat) (f : Assign → Assign) : (onAssign i f s).nvOut = s.nvOut := rfl
@[simp] theorem onAssign_nvHeat (i : Nat) (f : Assign → Assign) : (onAssign i f s).nvHeat = s.nvHeat := rfl
@[simp] theorem onAssign_nvMtr (i : Nat) (f : Assign → Assign) : (onAssign i f s).nvMtr = s.nvMtr := rfl
@[simp] theorem onAssign_nvSaf (i : Nat) (f : Assign → Assign) : (onAssign i f s).nvSaf = s.nvSaf := rfl
@[simp] theorem onAssign_nvStk (i : Nat) (f : Assign → Assign) : (onAssign i f s).nvStk = s.nvStk := rfl
@[simp] theorem onAssign_slots (i : Nat) (f : Assign → Assign) : (onAssign i f s).slots = s.slots := rfl
@[simp] theorem onAssign_env (i : Nat) (f : Assign → Assign) : (onAssign i f s).env = s.env := rfl
@[simp] theorem onAssign_free (i : Nat) (f : Assign → Assign) : (onAssign i f s).free = s.free := rfl
@[simp] theorem onAssign_pending (i : Nat) (f : Assign → Assign) : (onAssign i f s).pending = s.pending := rfl

/-! ### The inputs of an outlet changed -/

@[simp] theorem onOut_alc_out (n : Nat) (f : OutletIn → OutletIn) : (onOut n f s).alc.out = upd s.alc.out (n - 1) f := rfl
@[simp] theorem onOut_sys (n : Nat) (f : OutletIn → OutletIn) : (onOut n f s).sys = s.sys := rfl
@[simp] theorem onOut_win (n : Nat) (f : OutletIn → OutletIn) : (onOut n f s).win = s.win := rfl
@[simp] theorem onOut_mbx (n : Nat) (f : OutletIn → OutletIn) : (onOut n f s).mbx = s.mbx := rfl
@[simp] theorem onOut_keys (n : Nat) (f : OutletIn → OutletIn) : (onOut n f s).keys = s.keys := rfl
@[simp] theorem onOut_recd (n : Nat) (f : OutletIn → OutletIn) : (onOut n f s).recd = s.recd := rfl
@[simp] theorem onOut_cfg (n : Nat) (f : OutletIn → OutletIn) : (onOut n f s).cfg = s.cfg := rfl
@[simp] theorem onOut_cad (n : Nat) (f : OutletIn → OutletIn) : (onOut n f s).cad = s.cad := rfl
@[simp] theorem onOut_chr (n : Nat) (f : OutletIn → OutletIn) : (onOut n f s).chr = s.chr := rfl
@[simp] theorem onOut_links (n : Nat) (f : OutletIn → OutletIn) : (onOut n f s).links = s.links := rfl
@[simp] theorem onOut_ses (n : Nat) (f : OutletIn → OutletIn) : (onOut n f s).ses = s.ses := rfl
@[simp] theorem onOut_grantAge (n : Nat) (f : OutletIn → OutletIn) : (onOut n f s).grantAge = s.grantAge := rfl
@[simp] theorem onOut_gpio (n : Nat) (f : OutletIn → OutletIn) : (onOut n f s).gpio = s.gpio := rfl
@[simp] theorem onOut_heat (n : Nat) (f : OutletIn → OutletIn) : (onOut n f s).heat = s.heat := rfl
@[simp] theorem onOut_spk (n : Nat) (f : OutletIn → OutletIn) : (onOut n f s).spk = s.spk := rfl
@[simp] theorem onOut_mtr (n : Nat) (f : OutletIn → OutletIn) : (onOut n f s).mtr = s.mtr := rfl
@[simp] theorem onOut_saf (n : Nat) (f : OutletIn → OutletIn) : (onOut n f s).saf = s.saf := rfl
@[simp] theorem onOut_ldc (n : Nat) (f : OutletIn → OutletIn) : (onOut n f s).ldc = s.ldc := rfl
@[simp] theorem onOut_stk (n : Nat) (f : OutletIn → OutletIn) : (onOut n f s).stk = s.stk := rfl
@[simp] theorem onOut_tdm (n : Nat) (f : OutletIn → OutletIn) : (onOut n f s).tdm = s.tdm := rfl
@[simp] theorem onOut_plt (n : Nat) (f : OutletIn → OutletIn) : (onOut n f s).plt = s.plt := rfl
@[simp] theorem onOut_nv (n : Nat) (f : OutletIn → OutletIn) : (onOut n f s).nv = s.nv := rfl
@[simp] theorem onOut_nvRec (n : Nat) (f : OutletIn → OutletIn) : (onOut n f s).nvRec = s.nvRec := rfl
@[simp] theorem onOut_nvHub (n : Nat) (f : OutletIn → OutletIn) : (onOut n f s).nvHub = s.nvHub := rfl
@[simp] theorem onOut_nvOut (n : Nat) (f : OutletIn → OutletIn) : (onOut n f s).nvOut = s.nvOut := rfl
@[simp] theorem onOut_nvHeat (n : Nat) (f : OutletIn → OutletIn) : (onOut n f s).nvHeat = s.nvHeat := rfl
@[simp] theorem onOut_nvMtr (n : Nat) (f : OutletIn → OutletIn) : (onOut n f s).nvMtr = s.nvMtr := rfl
@[simp] theorem onOut_nvSaf (n : Nat) (f : OutletIn → OutletIn) : (onOut n f s).nvSaf = s.nvSaf := rfl
@[simp] theorem onOut_nvStk (n : Nat) (f : OutletIn → OutletIn) : (onOut n f s).nvStk = s.nvStk := rfl
@[simp] theorem onOut_slots (n : Nat) (f : OutletIn → OutletIn) : (onOut n f s).slots = s.slots := rfl
@[simp] theorem onOut_env (n : Nat) (f : OutletIn → OutletIn) : (onOut n f s).env = s.env := rfl
@[simp] theorem onOut_free (n : Nat) (f : OutletIn → OutletIn) : (onOut n f s).free = s.free := rfl
@[simp] theorem onOut_pending (n : Nat) (f : OutletIn → OutletIn) : (onOut n f s).pending = s.pending := rfl

/-! ### A metering point changed -/

@[simp] theorem onPoint_mtr_points (p : Nat) (f : MPoint → MPoint) : (onPoint p f s).mtr.points = upd s.mtr.points p f := rfl
@[simp] theorem onPoint_sys (p : Nat) (f : MPoint → MPoint) : (onPoint p f s).sys = s.sys := rfl
@[simp] theorem onPoint_win (p : Nat) (f : MPoint → MPoint) : (onPoint p f s).win = s.win := rfl
@[simp] theorem onPoint_mbx (p : Nat) (f : MPoint → MPoint) : (onPoint p f s).mbx = s.mbx := rfl
@[simp] theorem onPoint_keys (p : Nat) (f : MPoint → MPoint) : (onPoint p f s).keys = s.keys := rfl
@[simp] theorem onPoint_recd (p : Nat) (f : MPoint → MPoint) : (onPoint p f s).recd = s.recd := rfl
@[simp] theorem onPoint_cfg (p : Nat) (f : MPoint → MPoint) : (onPoint p f s).cfg = s.cfg := rfl
@[simp] theorem onPoint_alc (p : Nat) (f : MPoint → MPoint) : (onPoint p f s).alc = s.alc := rfl
@[simp] theorem onPoint_cad (p : Nat) (f : MPoint → MPoint) : (onPoint p f s).cad = s.cad := rfl
@[simp] theorem onPoint_chr (p : Nat) (f : MPoint → MPoint) : (onPoint p f s).chr = s.chr := rfl
@[simp] theorem onPoint_links (p : Nat) (f : MPoint → MPoint) : (onPoint p f s).links = s.links := rfl
@[simp] theorem onPoint_ses (p : Nat) (f : MPoint → MPoint) : (onPoint p f s).ses = s.ses := rfl
@[simp] theorem onPoint_grantAge (p : Nat) (f : MPoint → MPoint) : (onPoint p f s).grantAge = s.grantAge := rfl
@[simp] theorem onPoint_gpio (p : Nat) (f : MPoint → MPoint) : (onPoint p f s).gpio = s.gpio := rfl
@[simp] theorem onPoint_heat (p : Nat) (f : MPoint → MPoint) : (onPoint p f s).heat = s.heat := rfl
@[simp] theorem onPoint_spk (p : Nat) (f : MPoint → MPoint) : (onPoint p f s).spk = s.spk := rfl
@[simp] theorem onPoint_saf (p : Nat) (f : MPoint → MPoint) : (onPoint p f s).saf = s.saf := rfl
@[simp] theorem onPoint_ldc (p : Nat) (f : MPoint → MPoint) : (onPoint p f s).ldc = s.ldc := rfl
@[simp] theorem onPoint_stk (p : Nat) (f : MPoint → MPoint) : (onPoint p f s).stk = s.stk := rfl
@[simp] theorem onPoint_tdm (p : Nat) (f : MPoint → MPoint) : (onPoint p f s).tdm = s.tdm := rfl
@[simp] theorem onPoint_plt (p : Nat) (f : MPoint → MPoint) : (onPoint p f s).plt = s.plt := rfl
@[simp] theorem onPoint_nv (p : Nat) (f : MPoint → MPoint) : (onPoint p f s).nv = s.nv := rfl
@[simp] theorem onPoint_nvRec (p : Nat) (f : MPoint → MPoint) : (onPoint p f s).nvRec = s.nvRec := rfl
@[simp] theorem onPoint_nvHub (p : Nat) (f : MPoint → MPoint) : (onPoint p f s).nvHub = s.nvHub := rfl
@[simp] theorem onPoint_nvOut (p : Nat) (f : MPoint → MPoint) : (onPoint p f s).nvOut = s.nvOut := rfl
@[simp] theorem onPoint_nvHeat (p : Nat) (f : MPoint → MPoint) : (onPoint p f s).nvHeat = s.nvHeat := rfl
@[simp] theorem onPoint_nvMtr (p : Nat) (f : MPoint → MPoint) : (onPoint p f s).nvMtr = s.nvMtr := rfl
@[simp] theorem onPoint_nvSaf (p : Nat) (f : MPoint → MPoint) : (onPoint p f s).nvSaf = s.nvSaf := rfl
@[simp] theorem onPoint_nvStk (p : Nat) (f : MPoint → MPoint) : (onPoint p f s).nvStk = s.nvStk := rfl
@[simp] theorem onPoint_slots (p : Nat) (f : MPoint → MPoint) : (onPoint p f s).slots = s.slots := rfl
@[simp] theorem onPoint_env (p : Nat) (f : MPoint → MPoint) : (onPoint p f s).env = s.env := rfl
@[simp] theorem onPoint_free (p : Nat) (f : MPoint → MPoint) : (onPoint p f s).free = s.free := rfl
@[simp] theorem onPoint_pending (p : Nat) (f : MPoint → MPoint) : (onPoint p f s).pending = s.pending := rfl

/-! ### A metering channel changed -/

@[simp] theorem onChannel_mtr_chans (c : Nat) (f : MChan → MChan) : (onChannel c f s).mtr.chans = upd s.mtr.chans c f := rfl
@[simp] theorem onChannel_sys (c : Nat) (f : MChan → MChan) : (onChannel c f s).sys = s.sys := rfl
@[simp] theorem onChannel_win (c : Nat) (f : MChan → MChan) : (onChannel c f s).win = s.win := rfl
@[simp] theorem onChannel_mbx (c : Nat) (f : MChan → MChan) : (onChannel c f s).mbx = s.mbx := rfl
@[simp] theorem onChannel_keys (c : Nat) (f : MChan → MChan) : (onChannel c f s).keys = s.keys := rfl
@[simp] theorem onChannel_recd (c : Nat) (f : MChan → MChan) : (onChannel c f s).recd = s.recd := rfl
@[simp] theorem onChannel_cfg (c : Nat) (f : MChan → MChan) : (onChannel c f s).cfg = s.cfg := rfl
@[simp] theorem onChannel_alc (c : Nat) (f : MChan → MChan) : (onChannel c f s).alc = s.alc := rfl
@[simp] theorem onChannel_cad (c : Nat) (f : MChan → MChan) : (onChannel c f s).cad = s.cad := rfl
@[simp] theorem onChannel_chr (c : Nat) (f : MChan → MChan) : (onChannel c f s).chr = s.chr := rfl
@[simp] theorem onChannel_links (c : Nat) (f : MChan → MChan) : (onChannel c f s).links = s.links := rfl
@[simp] theorem onChannel_ses (c : Nat) (f : MChan → MChan) : (onChannel c f s).ses = s.ses := rfl
@[simp] theorem onChannel_grantAge (c : Nat) (f : MChan → MChan) : (onChannel c f s).grantAge = s.grantAge := rfl
@[simp] theorem onChannel_gpio (c : Nat) (f : MChan → MChan) : (onChannel c f s).gpio = s.gpio := rfl
@[simp] theorem onChannel_heat (c : Nat) (f : MChan → MChan) : (onChannel c f s).heat = s.heat := rfl
@[simp] theorem onChannel_spk (c : Nat) (f : MChan → MChan) : (onChannel c f s).spk = s.spk := rfl
@[simp] theorem onChannel_saf (c : Nat) (f : MChan → MChan) : (onChannel c f s).saf = s.saf := rfl
@[simp] theorem onChannel_ldc (c : Nat) (f : MChan → MChan) : (onChannel c f s).ldc = s.ldc := rfl
@[simp] theorem onChannel_stk (c : Nat) (f : MChan → MChan) : (onChannel c f s).stk = s.stk := rfl
@[simp] theorem onChannel_tdm (c : Nat) (f : MChan → MChan) : (onChannel c f s).tdm = s.tdm := rfl
@[simp] theorem onChannel_plt (c : Nat) (f : MChan → MChan) : (onChannel c f s).plt = s.plt := rfl
@[simp] theorem onChannel_nv (c : Nat) (f : MChan → MChan) : (onChannel c f s).nv = s.nv := rfl
@[simp] theorem onChannel_nvRec (c : Nat) (f : MChan → MChan) : (onChannel c f s).nvRec = s.nvRec := rfl
@[simp] theorem onChannel_nvHub (c : Nat) (f : MChan → MChan) : (onChannel c f s).nvHub = s.nvHub := rfl
@[simp] theorem onChannel_nvOut (c : Nat) (f : MChan → MChan) : (onChannel c f s).nvOut = s.nvOut := rfl
@[simp] theorem onChannel_nvHeat (c : Nat) (f : MChan → MChan) : (onChannel c f s).nvHeat = s.nvHeat := rfl
@[simp] theorem onChannel_nvMtr (c : Nat) (f : MChan → MChan) : (onChannel c f s).nvMtr = s.nvMtr := rfl
@[simp] theorem onChannel_nvSaf (c : Nat) (f : MChan → MChan) : (onChannel c f s).nvSaf = s.nvSaf := rfl
@[simp] theorem onChannel_nvStk (c : Nat) (f : MChan → MChan) : (onChannel c f s).nvStk = s.nvStk := rfl
@[simp] theorem onChannel_slots (c : Nat) (f : MChan → MChan) : (onChannel c f s).slots = s.slots := rfl
@[simp] theorem onChannel_env (c : Nat) (f : MChan → MChan) : (onChannel c f s).env = s.env := rfl
@[simp] theorem onChannel_free (c : Nat) (f : MChan → MChan) : (onChannel c f s).free = s.free := rfl
@[simp] theorem onChannel_pending (c : Nat) (f : MChan → MChan) : (onChannel c f s).pending = s.pending := rfl

/-! ### A safety instance changed -/

@[simp] theorem onInst_saf_insts (j : Nat) (f : Inst → Inst) : (onInst j f s).saf.insts = upd s.saf.insts j f := rfl
@[simp] theorem onInst_sys (j : Nat) (f : Inst → Inst) : (onInst j f s).sys = s.sys := rfl
@[simp] theorem onInst_win (j : Nat) (f : Inst → Inst) : (onInst j f s).win = s.win := rfl
@[simp] theorem onInst_mbx (j : Nat) (f : Inst → Inst) : (onInst j f s).mbx = s.mbx := rfl
@[simp] theorem onInst_keys (j : Nat) (f : Inst → Inst) : (onInst j f s).keys = s.keys := rfl
@[simp] theorem onInst_recd (j : Nat) (f : Inst → Inst) : (onInst j f s).recd = s.recd := rfl
@[simp] theorem onInst_cfg (j : Nat) (f : Inst → Inst) : (onInst j f s).cfg = s.cfg := rfl
@[simp] theorem onInst_alc (j : Nat) (f : Inst → Inst) : (onInst j f s).alc = s.alc := rfl
@[simp] theorem onInst_cad (j : Nat) (f : Inst → Inst) : (onInst j f s).cad = s.cad := rfl
@[simp] theorem onInst_chr (j : Nat) (f : Inst → Inst) : (onInst j f s).chr = s.chr := rfl
@[simp] theorem onInst_links (j : Nat) (f : Inst → Inst) : (onInst j f s).links = s.links := rfl
@[simp] theorem onInst_ses (j : Nat) (f : Inst → Inst) : (onInst j f s).ses = s.ses := rfl
@[simp] theorem onInst_grantAge (j : Nat) (f : Inst → Inst) : (onInst j f s).grantAge = s.grantAge := rfl
@[simp] theorem onInst_gpio (j : Nat) (f : Inst → Inst) : (onInst j f s).gpio = s.gpio := rfl
@[simp] theorem onInst_heat (j : Nat) (f : Inst → Inst) : (onInst j f s).heat = s.heat := rfl
@[simp] theorem onInst_spk (j : Nat) (f : Inst → Inst) : (onInst j f s).spk = s.spk := rfl
@[simp] theorem onInst_mtr (j : Nat) (f : Inst → Inst) : (onInst j f s).mtr = s.mtr := rfl
@[simp] theorem onInst_ldc (j : Nat) (f : Inst → Inst) : (onInst j f s).ldc = s.ldc := rfl
@[simp] theorem onInst_stk (j : Nat) (f : Inst → Inst) : (onInst j f s).stk = s.stk := rfl
@[simp] theorem onInst_tdm (j : Nat) (f : Inst → Inst) : (onInst j f s).tdm = s.tdm := rfl
@[simp] theorem onInst_plt (j : Nat) (f : Inst → Inst) : (onInst j f s).plt = s.plt := rfl
@[simp] theorem onInst_nv (j : Nat) (f : Inst → Inst) : (onInst j f s).nv = s.nv := rfl
@[simp] theorem onInst_nvRec (j : Nat) (f : Inst → Inst) : (onInst j f s).nvRec = s.nvRec := rfl
@[simp] theorem onInst_nvHub (j : Nat) (f : Inst → Inst) : (onInst j f s).nvHub = s.nvHub := rfl
@[simp] theorem onInst_nvOut (j : Nat) (f : Inst → Inst) : (onInst j f s).nvOut = s.nvOut := rfl
@[simp] theorem onInst_nvHeat (j : Nat) (f : Inst → Inst) : (onInst j f s).nvHeat = s.nvHeat := rfl
@[simp] theorem onInst_nvMtr (j : Nat) (f : Inst → Inst) : (onInst j f s).nvMtr = s.nvMtr := rfl
@[simp] theorem onInst_nvSaf (j : Nat) (f : Inst → Inst) : (onInst j f s).nvSaf = s.nvSaf := rfl
@[simp] theorem onInst_nvStk (j : Nat) (f : Inst → Inst) : (onInst j f s).nvStk = s.nvStk := rfl
@[simp] theorem onInst_slots (j : Nat) (f : Inst → Inst) : (onInst j f s).slots = s.slots := rfl
@[simp] theorem onInst_env (j : Nat) (f : Inst → Inst) : (onInst j f s).env = s.env := rfl
@[simp] theorem onInst_free (j : Nat) (f : Inst → Inst) : (onInst j f s).free = s.free := rfl
@[simp] theorem onInst_pending (j : Nat) (f : Inst → Inst) : (onInst j f s).pending = s.pending := rfl

/-! ### An output pair changed -/

@[simp] theorem onPair_saf_pairs (n : Nat) (f : Pair → Pair) : (onPair n f s).saf.pairs = upd s.saf.pairs n f := rfl
@[simp] theorem onPair_sys (n : Nat) (f : Pair → Pair) : (onPair n f s).sys = s.sys := rfl
@[simp] theorem onPair_win (n : Nat) (f : Pair → Pair) : (onPair n f s).win = s.win := rfl
@[simp] theorem onPair_mbx (n : Nat) (f : Pair → Pair) : (onPair n f s).mbx = s.mbx := rfl
@[simp] theorem onPair_keys (n : Nat) (f : Pair → Pair) : (onPair n f s).keys = s.keys := rfl
@[simp] theorem onPair_recd (n : Nat) (f : Pair → Pair) : (onPair n f s).recd = s.recd := rfl
@[simp] theorem onPair_cfg (n : Nat) (f : Pair → Pair) : (onPair n f s).cfg = s.cfg := rfl
@[simp] theorem onPair_alc (n : Nat) (f : Pair → Pair) : (onPair n f s).alc = s.alc := rfl
@[simp] theorem onPair_cad (n : Nat) (f : Pair → Pair) : (onPair n f s).cad = s.cad := rfl
@[simp] theorem onPair_chr (n : Nat) (f : Pair → Pair) : (onPair n f s).chr = s.chr := rfl
@[simp] theorem onPair_links (n : Nat) (f : Pair → Pair) : (onPair n f s).links = s.links := rfl
@[simp] theorem onPair_ses (n : Nat) (f : Pair → Pair) : (onPair n f s).ses = s.ses := rfl
@[simp] theorem onPair_grantAge (n : Nat) (f : Pair → Pair) : (onPair n f s).grantAge = s.grantAge := rfl
@[simp] theorem onPair_gpio (n : Nat) (f : Pair → Pair) : (onPair n f s).gpio = s.gpio := rfl
@[simp] theorem onPair_heat (n : Nat) (f : Pair → Pair) : (onPair n f s).heat = s.heat := rfl
@[simp] theorem onPair_spk (n : Nat) (f : Pair → Pair) : (onPair n f s).spk = s.spk := rfl
@[simp] theorem onPair_mtr (n : Nat) (f : Pair → Pair) : (onPair n f s).mtr = s.mtr := rfl
@[simp] theorem onPair_ldc (n : Nat) (f : Pair → Pair) : (onPair n f s).ldc = s.ldc := rfl
@[simp] theorem onPair_stk (n : Nat) (f : Pair → Pair) : (onPair n f s).stk = s.stk := rfl
@[simp] theorem onPair_tdm (n : Nat) (f : Pair → Pair) : (onPair n f s).tdm = s.tdm := rfl
@[simp] theorem onPair_plt (n : Nat) (f : Pair → Pair) : (onPair n f s).plt = s.plt := rfl
@[simp] theorem onPair_nv (n : Nat) (f : Pair → Pair) : (onPair n f s).nv = s.nv := rfl
@[simp] theorem onPair_nvRec (n : Nat) (f : Pair → Pair) : (onPair n f s).nvRec = s.nvRec := rfl
@[simp] theorem onPair_nvHub (n : Nat) (f : Pair → Pair) : (onPair n f s).nvHub = s.nvHub := rfl
@[simp] theorem onPair_nvOut (n : Nat) (f : Pair → Pair) : (onPair n f s).nvOut = s.nvOut := rfl
@[simp] theorem onPair_nvHeat (n : Nat) (f : Pair → Pair) : (onPair n f s).nvHeat = s.nvHeat := rfl
@[simp] theorem onPair_nvMtr (n : Nat) (f : Pair → Pair) : (onPair n f s).nvMtr = s.nvMtr := rfl
@[simp] theorem onPair_nvSaf (n : Nat) (f : Pair → Pair) : (onPair n f s).nvSaf = s.nvSaf := rfl
@[simp] theorem onPair_nvStk (n : Nat) (f : Pair → Pair) : (onPair n f s).nvStk = s.nvStk := rfl
@[simp] theorem onPair_slots (n : Nat) (f : Pair → Pair) : (onPair n f s).slots = s.slots := rfl
@[simp] theorem onPair_env (n : Nat) (f : Pair → Pair) : (onPair n f s).env = s.env := rfl
@[simp] theorem onPair_free (n : Nat) (f : Pair → Pair) : (onPair n f s).free = s.free := rfl
@[simp] theorem onPair_pending (n : Nat) (f : Pair → Pair) : (onPair n f s).pending = s.pending := rfl

/-! ### A safe-transport connection changed -/

@[simp] theorem onConn_saf_conns (c : Nat) (f : Conn → Conn) : (onConn c f s).saf.conns = upd s.saf.conns c f := rfl
@[simp] theorem onConn_sys (c : Nat) (f : Conn → Conn) : (onConn c f s).sys = s.sys := rfl
@[simp] theorem onConn_win (c : Nat) (f : Conn → Conn) : (onConn c f s).win = s.win := rfl
@[simp] theorem onConn_mbx (c : Nat) (f : Conn → Conn) : (onConn c f s).mbx = s.mbx := rfl
@[simp] theorem onConn_keys (c : Nat) (f : Conn → Conn) : (onConn c f s).keys = s.keys := rfl
@[simp] theorem onConn_recd (c : Nat) (f : Conn → Conn) : (onConn c f s).recd = s.recd := rfl
@[simp] theorem onConn_cfg (c : Nat) (f : Conn → Conn) : (onConn c f s).cfg = s.cfg := rfl
@[simp] theorem onConn_alc (c : Nat) (f : Conn → Conn) : (onConn c f s).alc = s.alc := rfl
@[simp] theorem onConn_cad (c : Nat) (f : Conn → Conn) : (onConn c f s).cad = s.cad := rfl
@[simp] theorem onConn_chr (c : Nat) (f : Conn → Conn) : (onConn c f s).chr = s.chr := rfl
@[simp] theorem onConn_links (c : Nat) (f : Conn → Conn) : (onConn c f s).links = s.links := rfl
@[simp] theorem onConn_ses (c : Nat) (f : Conn → Conn) : (onConn c f s).ses = s.ses := rfl
@[simp] theorem onConn_grantAge (c : Nat) (f : Conn → Conn) : (onConn c f s).grantAge = s.grantAge := rfl
@[simp] theorem onConn_gpio (c : Nat) (f : Conn → Conn) : (onConn c f s).gpio = s.gpio := rfl
@[simp] theorem onConn_heat (c : Nat) (f : Conn → Conn) : (onConn c f s).heat = s.heat := rfl
@[simp] theorem onConn_spk (c : Nat) (f : Conn → Conn) : (onConn c f s).spk = s.spk := rfl
@[simp] theorem onConn_mtr (c : Nat) (f : Conn → Conn) : (onConn c f s).mtr = s.mtr := rfl
@[simp] theorem onConn_ldc (c : Nat) (f : Conn → Conn) : (onConn c f s).ldc = s.ldc := rfl
@[simp] theorem onConn_stk (c : Nat) (f : Conn → Conn) : (onConn c f s).stk = s.stk := rfl
@[simp] theorem onConn_tdm (c : Nat) (f : Conn → Conn) : (onConn c f s).tdm = s.tdm := rfl
@[simp] theorem onConn_plt (c : Nat) (f : Conn → Conn) : (onConn c f s).plt = s.plt := rfl
@[simp] theorem onConn_nv (c : Nat) (f : Conn → Conn) : (onConn c f s).nv = s.nv := rfl
@[simp] theorem onConn_nvRec (c : Nat) (f : Conn → Conn) : (onConn c f s).nvRec = s.nvRec := rfl
@[simp] theorem onConn_nvHub (c : Nat) (f : Conn → Conn) : (onConn c f s).nvHub = s.nvHub := rfl
@[simp] theorem onConn_nvOut (c : Nat) (f : Conn → Conn) : (onConn c f s).nvOut = s.nvOut := rfl
@[simp] theorem onConn_nvHeat (c : Nat) (f : Conn → Conn) : (onConn c f s).nvHeat = s.nvHeat := rfl
@[simp] theorem onConn_nvMtr (c : Nat) (f : Conn → Conn) : (onConn c f s).nvMtr = s.nvMtr := rfl
@[simp] theorem onConn_nvSaf (c : Nat) (f : Conn → Conn) : (onConn c f s).nvSaf = s.nvSaf := rfl
@[simp] theorem onConn_nvStk (c : Nat) (f : Conn → Conn) : (onConn c f s).nvStk = s.nvStk := rfl
@[simp] theorem onConn_slots (c : Nat) (f : Conn → Conn) : (onConn c f s).slots = s.slots := rfl
@[simp] theorem onConn_env (c : Nat) (f : Conn → Conn) : (onConn c f s).env = s.env := rfl
@[simp] theorem onConn_free (c : Nat) (f : Conn → Conn) : (onConn c f s).free = s.free := rfl
@[simp] theorem onConn_pending (c : Nat) (f : Conn → Conn) : (onConn c f s).pending = s.pending := rfl

/-! ### A load channel changed -/

@[simp] theorem onLoad_ldc_chans (c : Nat) (f : Load → Load) : (onLoad c f s).ldc.chans = upd s.ldc.chans c f := rfl
@[simp] theorem onLoad_sys (c : Nat) (f : Load → Load) : (onLoad c f s).sys = s.sys := rfl
@[simp] theorem onLoad_win (c : Nat) (f : Load → Load) : (onLoad c f s).win = s.win := rfl
@[simp] theorem onLoad_mbx (c : Nat) (f : Load → Load) : (onLoad c f s).mbx = s.mbx := rfl
@[simp] theorem onLoad_keys (c : Nat) (f : Load → Load) : (onLoad c f s).keys = s.keys := rfl
@[simp] theorem onLoad_recd (c : Nat) (f : Load → Load) : (onLoad c f s).recd = s.recd := rfl
@[simp] theorem onLoad_cfg (c : Nat) (f : Load → Load) : (onLoad c f s).cfg = s.cfg := rfl
@[simp] theorem onLoad_alc (c : Nat) (f : Load → Load) : (onLoad c f s).alc = s.alc := rfl
@[simp] theorem onLoad_cad (c : Nat) (f : Load → Load) : (onLoad c f s).cad = s.cad := rfl
@[simp] theorem onLoad_chr (c : Nat) (f : Load → Load) : (onLoad c f s).chr = s.chr := rfl
@[simp] theorem onLoad_links (c : Nat) (f : Load → Load) : (onLoad c f s).links = s.links := rfl
@[simp] theorem onLoad_ses (c : Nat) (f : Load → Load) : (onLoad c f s).ses = s.ses := rfl
@[simp] theorem onLoad_grantAge (c : Nat) (f : Load → Load) : (onLoad c f s).grantAge = s.grantAge := rfl
@[simp] theorem onLoad_gpio (c : Nat) (f : Load → Load) : (onLoad c f s).gpio = s.gpio := rfl
@[simp] theorem onLoad_heat (c : Nat) (f : Load → Load) : (onLoad c f s).heat = s.heat := rfl
@[simp] theorem onLoad_spk (c : Nat) (f : Load → Load) : (onLoad c f s).spk = s.spk := rfl
@[simp] theorem onLoad_mtr (c : Nat) (f : Load → Load) : (onLoad c f s).mtr = s.mtr := rfl
@[simp] theorem onLoad_saf (c : Nat) (f : Load → Load) : (onLoad c f s).saf = s.saf := rfl
@[simp] theorem onLoad_stk (c : Nat) (f : Load → Load) : (onLoad c f s).stk = s.stk := rfl
@[simp] theorem onLoad_tdm (c : Nat) (f : Load → Load) : (onLoad c f s).tdm = s.tdm := rfl
@[simp] theorem onLoad_plt (c : Nat) (f : Load → Load) : (onLoad c f s).plt = s.plt := rfl
@[simp] theorem onLoad_nv (c : Nat) (f : Load → Load) : (onLoad c f s).nv = s.nv := rfl
@[simp] theorem onLoad_nvRec (c : Nat) (f : Load → Load) : (onLoad c f s).nvRec = s.nvRec := rfl
@[simp] theorem onLoad_nvHub (c : Nat) (f : Load → Load) : (onLoad c f s).nvHub = s.nvHub := rfl
@[simp] theorem onLoad_nvOut (c : Nat) (f : Load → Load) : (onLoad c f s).nvOut = s.nvOut := rfl
@[simp] theorem onLoad_nvHeat (c : Nat) (f : Load → Load) : (onLoad c f s).nvHeat = s.nvHeat := rfl
@[simp] theorem onLoad_nvMtr (c : Nat) (f : Load → Load) : (onLoad c f s).nvMtr = s.nvMtr := rfl
@[simp] theorem onLoad_nvSaf (c : Nat) (f : Load → Load) : (onLoad c f s).nvSaf = s.nvSaf := rfl
@[simp] theorem onLoad_nvStk (c : Nat) (f : Load → Load) : (onLoad c f s).nvStk = s.nvStk := rfl
@[simp] theorem onLoad_slots (c : Nat) (f : Load → Load) : (onLoad c f s).slots = s.slots := rfl
@[simp] theorem onLoad_env (c : Nat) (f : Load → Load) : (onLoad c f s).env = s.env := rfl
@[simp] theorem onLoad_free (c : Nat) (f : Load → Load) : (onLoad c f s).free = s.free := rfl
@[simp] theorem onLoad_pending (c : Nat) (f : Load → Load) : (onLoad c f s).pending = s.pending := rfl

end Sys2Proof.Machine
end

