-- ==== Sys2Proof/Laws/Table.lean ====
section
/-!
SUPPORT. The command tables and the meanings agree: every mailbox command runs as `command` of its table row.
-/
namespace Sys2Proof.Machine

/-- The meaning of a command of the tables is the shared `command` of its row. -/
theorem exec_table {c : Instr} {k : Cmd} {r : Req} (h : tableRow c = some (k, r)) (s : State) :
    ∃ body, exec c s = command k r body s := by
  cases c <;> first
    | (have h' : (none : Option (Cmd × Req)) = some (k, r) := h; cases h')
    | (obtain ⟨rfl, rfl⟩ := Prod.mk.inj (Option.some.inj h); exact ⟨_, rfl⟩)

/-- A send changes only the mailbox and the event window. -/
theorem sendFrame_mbx (ch : Nat) (f : Bytes) (s : State) :
    sendFrame ch f s = { s with mbx := (sendFrame ch f s).mbx, win := (sendFrame ch f s).win } := by
  unfold sendFrame; dsimp only; repeat' split
  all_goals rfl

/-- A final answer changes only the mailbox and the event window. -/
theorem finish_mbx (r : Req) (op st : Nat) (key : Option Bytes) (p : Bytes) (s : State) :
    finish r op st key p s = { s with mbx := (finish r op st key p s).mbx, win := (finish r op st key p s).win } := by
  unfold finish; dsimp only; split
  · exact sendFrame_mbx _ _ _
  · rfl

/-- An answer changes only the mailbox and the event window. -/
theorem answerOnly_mbx (r : Req) (op st : Nat) (key : Option Bytes) (p : Bytes) (s : State) :
    answerOnly r op st key p s =
      { s with mbx := (answerOnly r op st key p s).mbx, win := (answerOnly r op st key p s).win } := by
  unfold answerOnly; exact sendFrame_mbx _ _ _

end Sys2Proof.Machine
end

