-- ==== Sys2Proof/Tests/Slice0.lean ====
section
/-!
SUPPORT. Tests: ill-formed commands that WellFormed refuses; worked examples and figures of the spec; and for every statement
of Certificates/Slice0/Obligations.lean that has hypotheses, values that meet all of them together, clause by clause.
-/
open Sys2Proof Sys2Proof.Machine
namespace Sys2Proof.Tests

-- the small kernel evaluations below one after another, not one thread each
set_option Elab.async false

/-! ### Benches -/

/-- A credential of the owner under handle 1. -/
def cred1 : Cred := { handle := 1, kind := 1, slot := 4, key := [1] }

/-- A Secure request on channel 0 under that credential. -/
def r0 : Req := { ch := 0, tag := 3, seq := 7, world := 1, handle := 1 }

/-- A running part in a role, in INTEGRATION, with the credential open on channel 0. -/
def bench (role : Nat) : State := { State.reset with
  sys.phase := .running
  sys.live := true
  sys.role := role
  nv.lc := [{ state := 3 }, { state := 3 }]
  mbx.channels := [{ creds := [cred1] }, {}, {}, {}] }

/-- The bench in another life-cycle state. -/
def inState (c : Nat) (s : State) : State := { s with nv.lc := [{ state := c }, { state := c }] }

/-- An outlet entry and a ring-position entry of a made-up island (R130): outlet, post, A, V; position, reach, kW, A. -/
def outletEntry (n post amps volts : Nat) : Bytes :=
  slice (u8 n ++ u8 post ++ u16 amps ++ u16 volts ++ u16 150 ++ u16 100 ++ u8 0 ++ u8 1) 0 16
def positionEntry (pos reach kw amps : Nat) : Bytes :=
  slice (u8 pos ++ u8 1 ++ u16 reach ++ u16 kw ++ u16 amps ++ u16 100) 0 16

/-- A hub with two outlets of post 1 and two stages on ring 0 that reach both. -/
def hub : State := { bench 1 with
  cfg.role := 1
  cfg.outlets := [outletEntry 1 1 500 1000, outletEntry 2 1 500 1000]
  cfg.positions := [positionEntry 1 3 100 150, positionEntry 2 3 100 150]
  cfg.chain.enabled := [true, true] }

/-- Post 1 with both local outlets, outlet A of type 1. -/
def post : State := { bench 2 with
  sys.nodeStrap := 1
  cfg.role := 2
  cfg.outlets := [outletEntry 1 1 500 1000, outletEntry 2 1 500 1000]
  cfg.links := [[0, 1, 7, 1, 4], [1, 1, 7, 1, 4]]
  cfg.sessions := [slice [0, 0, 1, 255, 0, 255] 0 32, slice [1, 2, 3, 255, 1, 255] 0 32] }

/-- The post with the session of outlet A in a state. -/
def inSes (n : Nat) : State := onSes 0 (fun x => { x with state := n }) post

/-- A valid key of a usage and algorithm for every caller, world and life-cycle state. -/
def key (usage alg : Nat) : KeyCopy :=
  { state := 1, alg := alg, usage := usage, masters := 0xFF, lifecycles := 0xFE, flags := 3, material := [9] }

/-- The bench with a key in a slot. -/
def withKey (n : Nat) (k : KeyCopy) (s : State) : State := { s with slots := s.slots.set n { a := k } }

/-- A safe configuration set in service, acknowledged or not. -/
def withSet (acked : Bool) (t : SafeSet) (s : State) : State := { s with nvSaf.copies := [{ acked := acked, set := some t }, {}] }

/-- A record of the metering ring, and a ring that holds it. -/
def record1 : MRec :=
  { mseq := 1, kind := 1, point := 0, flags := 0, session := 0, opStart := 0, opEnd := 0, wallStart := 0, wallEnd := 0, cycStart := 0,
    cycEnd := 0, protocol := 0, method := 0, endFirst := 0, endCode := 0, reversals := 0, wallQ := 0, start := [], stop := [], ident := [],
    fb := 0, lcfb := 0, fault := 0, legalCount := 0, legalDigest := [] }
def withRecord (x : MRec) (s : State) : State := { s with nvMtr.ring := [x], nvMtr.head := 2 }

/-- A safe configuration set that uses nothing. -/
def goodSet : SafeSet := { header := [1, 0, 0, 0, 100, 0, 254, 0, 0, 0, 0, 0, 0, 0, 0, 0] }

/-- A public key of a usage and algorithm. -/
def publicKey (usage alg : Nat) : KeyCopy := { key usage alg with flags := 0 }

/-- A signature verifies where it was made with the key over the message. -/
theorem sig_ok {g : Sig} {k m : Bytes} (h0 : k ≠ []) (h1 : g.key = k) (h2 : g.msg = m) : sigOk g k m = true := by
  simp [sigOk, h0, h1, h2]

/-- A token of the owner that names state, part and nonce rightly has the owner's authority. -/
theorem token_ok {s : State} {target : Nat} {t : Token} {n : Bytes} {b : Bool} (h : transition (lifecycle s) target = some (true, b))
    (hn : s.sys.lcNonce = some n) (h0 : t.target = target) (h1 : t.identity = identity s) (h2 : t.nonce = n)
    (hp : lifecycle s ≠ lcProvisioned) (hs : sigOk t.sig (publicOf s 4) (tokenSigned t) = true) :
    tokenAuthority s target t = some 1 := by
  simp [tokenAuthority, h, hn, h0, h1, h2, hp, hs]

/-- A request frame with its CRC: an echo of one byte by default. -/
def request (op : Nat) (payload : Bytes) : Bytes :=
  header op 3 0 1 0 payload.length 7 0 [] (crc32c ((header op 3 0 1 0 payload.length 7 0 [] 0).take 28 ++ payload)) ++ payload

/-- The bench with a frame in the first slot of channel 0's request ring. -/
def withFrame (f : Bytes) (s : State) : State :=
  { s with mbx.ring := memWrites [] 0x100000 f, mbx.channels := [{ reqProd := 1 }, {}, {}, {}] }

/-- A bench whose channel 1 is bound to ETH0, connected or not. -/
def streaming (connected : Bool) : State :=
  { bench 1 with mbx.channels := [{}, { binding := 1, connected := connected }, {}, {}] }

/-- A held reset, and the part just before its images are verified, with or without a good firmware image. -/
def goodImage : FwImage :=
  { magicOk := true, digestOk := true, signer := [9], signerUsage := 0x40, signerIssuer := [9], sig := { key := [9], msg := [] } }

/-- A part of a tandem pair in a state. -/
def pairPart (role : Nat) (x : TandemState) : State := { bench role with tdm.state := x }

/-- A member of a peloton. -/
def pelotonText : Bytes := [1] ++ List.replicate 95 0
def pelotonFrame1 : Bytes := pelotonText ++ u32 (crc32c pelotonText)
theorem peloton_ok {t : Bytes} {m : Nat} (hl : t.length = 96) (hm : pfMember t = m) : pfGood m (t ++ u32 (crc32c t)) = true := by
  have hc : crc32c t < 2 ^ 32 := BitVec.isLt _
  have ht : (t ++ u32 (crc32c t)).take 96 = t := by simp [← hl]
  have hp : pfMember (t ++ u32 (crc32c t)) = m := by
    rw [← hm]; unfold pfMember g8; simp only [List.getD_eq_getElem?_getD]; rw [List.getElem?_append_left (by omega)]
  unfold pfGood
  rw [ht, hp]
  generalize crc32c t = n at hc
  have h1 : (t ++ u32 n).length = 100 := by simp [hl, u32, uLE]
  have h2 : g32 (t ++ u32 n) 96 = n := by
    simp [g32, slice, ← hl, u32, uLE, leNat]
    omega
  simp [h1, h2]
theorem peloton_good : pfGood 1 pelotonFrame1 = true := peloton_ok rfl rfl

/-- Evidence that a lookup with an answer answers something. -/
theorem some_pair {α β : Type} {p : Option α × β} (h : p.1.isSome = true) : ∃ a b, p = (some a, b) := by
  obtain ⟨_ | a, b⟩ := p
  · cases h
  · exact ⟨a, b, rfl⟩
theorem none_pair {α β : Type} {p : Option α × β} (h : p.1.isSome = false) : ∃ b, p = (none, b) := by
  obtain ⟨_ | a, b⟩ := p
  · exact ⟨b, rfl⟩
  · cases h

/-- A hub with a Cadence group that has an actuator sink. -/
def groupDesc (sink : Nat) : Bytes := slice [15, BitVec.ofNat 8 sink, 1, 1, 50, 0] 0 64
def withGroup (d : Bytes) (kick : Bool) : State := { hub with cad.groups := List.replicate 16 { desc := d, kick := kick } }

/-- A ring in service on the hub that has sent `sent`, the header and outbound block of a frame of a master, and the frame as it comes back. -/
def ringHub (sent : Bytes) : State := { hub with chr.rings := [{ running := true, frame := sent }, { running := true, frame := sent }] }
def headOf (master : Nat) : Bytes := ringHeader master 0 0 0 20 0
def lineOf (master : Nat) : List RingSymbol := [.k28_5, .k28_5, .k27_7] ++ (formFrame (headOf master) []).map .data ++ [.k29_7]

/-- A part with the network key of the Spoke-line in slot 255. -/
def spoke (role : Nat) : State := { withKey 255 (key 0x0D 1) (bench role) with cfg.spoke.keySlot := 255 }

/-- Slicing a string that has the length gives it back, and slicing a slice from its start gives it back. -/
theorem slice_self {b : Bytes} {n : Nat} (h : b.length = n) : slice b 0 n = b := by simp [slice, ← h]
theorem slice_length (b : Bytes) (o n : Nat) : (slice b o n).length = n := by simp [slice] <;> omega
theorem slice_append {a : Bytes} (b : Bytes) {o n : Nat} (h : o + n ≤ a.length) : slice (a ++ b) o n = slice a o n := by
  have h1 : ((a ++ b).drop o).take n = (a.drop o).take n := by
    rw [List.drop_append_of_le_length (by omega), List.take_append_of_le_length (by simp; omega)]
  simp only [slice, h1]
theorem slice_tail {a b : Bytes} {o n : Nat} (h : a.length = o) (h1 : b.length = n) : slice (a ++ b) o n = b := by simp [slice, ← h, ← h1]

/-- A tag made with the network key over a header and what follows it is the right one. -/
theorem seal_made {s : State} {p w : Nat} {h t : Bytes} (hk : (networkKey s byApplication != []) = true) :
    sealRight s p w h t (sealTag s p w h t) = true := by
  have hs : slice (sealTag s p w h t) 0 8 = sealTag s p w h t := slice_self (slice_length _ _ _)
  simp [sealRight, hk, hs]

/-- A slot message of node 2 of a kind in period 5, BURST_IDX 1. -/
def slotSeal (kind : Nat) (s : State) : SlotMsg :=
  { period := 5, head := [BitVec.ofNat 8 kind, 0, 2, 255, 0, 1, 0, 0], text := List.replicate 40 0
    tag := sealTag s 5 0 [BitVec.ofNat 8 kind, 0, 2, 255, 0, 1, 0, 0] (List.replicate 40 0) }
theorem slot_sealed {kind : Nat} {s : State} (hk : (networkKey s byApplication != []) = true) : slotSealed s (slotSeal kind s) = true :=
  seal_made hk

/-- A beacon in period 5 of a sender with an AUTH_GEN and a network. -/
def beaconText (src gen net : Nat) : Bytes :=
  [1] ++ u8 net ++ u8 src ++ [255, 0, 0, 0, 0] ++ slice [5] 0 6 ++ u32 40000 ++ u16 gen ++ List.replicate 212 0
def beaconBytes (s : State) (src gen net : Nat) : Bytes :=
  beaconText src gen net ++ sealTag s 5 0 (slice (beaconText src gen net) 0 8) (slice (beaconText src gen net) 8 224)
theorem beacon_sealed {s : State} {src gen net : Nat} (hk : (networkKey s byApplication != []) = true) (h0 : (beaconText src gen net).length = 232)
    (h1 : hdKind (beaconText src gen net) = 1) (h2 : leNat (slice (beaconText src gen net) 8 6) = 5) :
    beaconSealed s (beaconBytes s src gen net) = true := by
  have ht : (sealTag s 5 0 (slice (beaconText src gen net) 0 8) (slice (beaconText src gen net) 8 224)).length = 8 := slice_length _ _ _
  have hkd : hdKind (beaconBytes s src gen net) = 1 := by
    rw [← h1]; unfold hdKind g8 beaconBytes; simp only [List.getD_eq_getElem?_getD]; rw [List.getElem?_append_left (by omega)]
  have hl : (beaconBytes s src gen net).length = 240 := by unfold beaconBytes; rw [List.length_append, h0, ht]
  unfold beaconSealed
  rw [hkd, hl]
  unfold beaconBytes
  rw [slice_append _ (by omega), slice_append _ (by omega), slice_append _ (by omega), slice_tail h0 ht, h2, seal_made hk]
  rfl

/-- The acknowledgement of node 2 for BURST_IDX 3, with one code word outstanding. -/
def ackFrom : State := { spoke 1 with spk.links := [{ peer := 2, sent := [(3, {})] }] }
def ackText : Bytes := [6, 0, 2, BitVec.ofNat 8 (spkSrc ackFrom), 0, 0, 0, 0, 3] ++ List.replicate 89 0
def ackSent : Bytes := ackText ++ sealTag ackFrom 0 0 (slice ackText 0 8) (slice ackText 8 90)
theorem ack_sealed : ackSealed ackFrom ackSent = true := by
  have h0 : ackText.length = 98 := by decide +kernel
  have ht : (sealTag ackFrom 0 0 (slice ackText 0 8) (slice ackText 8 90)).length = 8 := slice_length _ _ _
  have hl : ackSent.length = 106 := by unfold ackSent; rw [List.length_append, h0, ht]
  have hs : sealRight ackFrom 0 0 (slice ackSent 0 8) (slice ackSent 8 90) (slice ackSent 98 8) = true := by
    unfold ackSent
    rw [slice_append _ (by omega), slice_append _ (by omega), slice_tail h0 ht]
    exact seal_made (by decide +kernel)
  have hp : ackFrom.spk.period = 0 := rfl
  unfold ackSealed
  rw [hl, hp, hs]
  decide +kernel

/-- A burst of node 2 with one code word that came whole and one that did not. -/
def burst1 (dst : Nat) : Burst := { period := 5, head := [5, 0, 2, BitVec.ofNat 8 dst, 0, 1, 0, 0], words := [some (List.replicate 540 0), none] }

/-- A safe configuration set in which everything named exists: instance 0 a guard with lock, pair 5 under it, connection 7. -/
def fullSet : SafeSet :=
  { header := [1, 0, 0, 0, 100, 0, 254, 0, 0, 0, 0, 0, 0, 0, 0, 0]
    insts := [[0, 2, 0, 1, 0, 254]] ++ List.replicate 31 []
    pairs := List.replicate 6 [5, 2, 1, 0, 0, 0, 1]
    conns := List.replicate 8 [7, 1, 1] }
def safe : State := withSet true fullSet (bench 1)

/-- A pair that is on since tick 0, at tick 200. -/
def pairOn (low : Bool) : State :=
  { safe with saf.tick := 200, saf.pairs := List.replicate 6 { on := true, lowSide := low } }

/-- The first 28 bytes of a frame of LENGTH 4,065 with good magic, and the frame of 4,064 zero bytes with its CRC, on a stream. -/
def longHead : Bytes := [0xA1, 0xD2, 1, 1, 3, 0, 0, 0, 0xE1, 0x0F] ++ List.replicate 18 0
def longFrame : Frame :=
  { head := longHead ++ u32 (crc32c (longHead ++ List.replicate 4064 0)), payload := List.replicate 4064 0 }
def streamOf (raw : Bytes) : State := onChan 1 (fun c => { c with streamIn := [raw] }) (streaming true)
def longOn : State := streamOf (longFrame.head ++ longFrame.payload)

/-- A frame whose last header bytes are its CRC has the right CRC. -/
theorem crc_ok (h p : Bytes) (hl : h.length = 28) : crcOk { head := h ++ u32 (crc32c (h ++ p)), payload := p } = true := by
  have hc : crc32c (h ++ p) < 2 ^ 32 := BitVec.isLt _
  generalize hn : crc32c (h ++ p) = n at hc
  simp [crcOk, g32, slice, hl, u32, uLE, leNat, hn]
  omega

/-- Cutting a stream into head and payload gives them back. -/
theorem stream_cut (h p : Bytes) (hl : h.length = 32) (hp : p.length = min (g16 h 8) 4064) : streamFrame (h ++ p) = { head := h, payload := p } := by
  have h0 : slice (h ++ p) 0 32 = h := by simp [slice, ← hl]
  simp only [streamFrame, h0, payloadLength, ← hp]
  simp [slice, ← hl]

/-- The post whose session entry of outlet A names a mirror input, and with session flags. -/
def mirrored (i : Nat) : State := { post with cfg.sessions := [slice [0, 0, 1, BitVec.ofNat 8 i] 0 32] }
def withFlags (f : Nat) : State := { post with cfg.sessions := [slice (slice [0, 0, 1, 255] 0 26 ++ [BitVec.ofNat 8 f]) 0 32] }
def vehicle : VehicleLoop :=
  { iTarget := 0, iMax := 0, vMax := 0, pMax := 0, pSched := 100, pDisch := 0, departS := 0, bidirectional := true }

/-- The part when it selects its images. -/
def verifying (x : FwImage) : State := { State.reset with sys.phase := .verify, nv.fw := [{ image := x }, {}], slots := State.reset.slots.set 2 { a := publicKey 3 0x13 } }

theorem image_good : (selectFw (noteOpenTransition (discardTorn (wipeKeys (resolveSlots (verifying goodImage)))))).1.isSome = true := by
  decide +kernel

/-- The one frame on the stream is the next one, where it is no fence and asks for nothing that a running command works on. -/
theorem stream_next {raw : Bytes} {f : Frame} (hf : streamFrame raw = f) (hn : frameFence f = false) (ho : frameOp f ≠ 0x0705) :
    nextFrame (streamOf raw) = some (1, f) := by
  have h0 : ready (streamOf raw) 0 = false := rfl
  have h1 : waiting (streamOf raw) 1 = some (streamFrame raw) := rfl
  have h2 : (chan (streamOf raw) 1).held = [] ∧ (chan (streamOf raw) 1).binding = 1 ∧ serves (streamOf raw) 1 = true := ⟨rfl, rfl, rfl⟩
  have h3 : ready (streamOf raw) 1 = true := by simp [ready, mayRead, sameObject, h1, h2, hf, hn, ho]
  have h4 : nextChannel (streamOf raw) = some 1 := by
    have ht : (streamOf raw).mbx.turn = 0 := rfl
    simp [nextChannel, ht, h0, h3]
  simp [nextFrame, h4, h1, hf]

theorem long_next : nextFrame longOn = some (1, longFrame) :=
  stream_next (stream_cut _ _ rfl (by decide +kernel)) (by decide +kernel) (by decide +kernel)

/-- The post whose mirror input shows both contactors open, as commanded. -/
def mirrorSet : State :=
  { mirrored 5 with saf.inputs := List.replicate 16 { a := { raw := true, run := 3 }, b := { raw := true, run := 3 } } }

/-! ### Ill-formed commands: for every check of WellFormed.lean one that it refuses -/

theorem test_ill_formed_1 :
    ([.sysEchoPayload { ch := 4 } [], .sysEchoPayload { ch := 0 } (List.replicate 4065 0),
     .sysOpenCredential { ch := 4 } 0 0 (List.replicate 56 0) { key := [], msg := [], len := 1 },
     .sysOpenCredential { ch := 0 } 256 0 (List.replicate 56 0) { key := [], msg := [], len := 1 },
     .sysOpenCredential { ch := 0 } 0 256 (List.replicate 56 0) { key := [], msg := [], len := 1 },
     .sysOpenCredential { ch := 0 } 0 0 [] { key := [], msg := [], len := 1 },
     .sysOpenCredential { ch := 0 } 0 0 (List.replicate 56 0) { key := [], msg := [], len := 65536 },
     .sysCloseCredential { ch := 4 } 0, .sysCloseCredential { ch := 0 } 4294967296, .sysGetChannelStats { ch := 4 } 0,
     .sysGetChannelStats { ch := 0 } 256, .sysGetBootInfo { ch := 4 }, .sysResetPart { ch := 4 }, .sysEnterKickstand { ch := 4 },
     .sysGetKickstand { ch := 4 }, .sysReleaseKickstand { ch := 4 }, .sysGetLifecycle { ch := 4 },
     .sysSetLifecycle { ch := 4 } 0 { target := 0, identity := [], nonce := [], ownerKey := [], sig := { key := [], msg := [], len := 1 } },
     .sysSetLifecycle { ch := 0 } 256 { target := 0, identity := [], nonce := [], ownerKey := [], sig := { key := [], msg := [], len := 1 } },
     .sysSetLifecycle { ch := 0 } 0 { target := 256, identity := [], nonce := [], ownerKey := [], sig := { key := [], msg := [], len := 1 } },
     .sysSetLifecycle { ch := 0 } 0 { target := 0, identity := [], nonce := [], ownerKey := [], sig := { key := [], msg := [], len := 1401 } },
     .sysWriteImage { ch := 4 } 0 0 [], .sysWriteImage { ch := 0 } 256 0 [], .sysWriteImage { ch := 0 } 0 4294967296 [],
     .sysWriteImage { ch := 0 } 0 0 (List.replicate 4060 0), .sysActivateImage { ch := 4 } 0, .sysActivateImage { ch := 0 } 256,
     .sysConfirmImage { ch := 4 }, .alcGetStatus { ch := 4 }, .alcSetRules { ch := 4 } 0 0 [], .alcSetRules { ch := 0 } 256 0 [],
     .alcSetRules { ch := 0 } 0 256 [], .alcSetRules { ch := 0 } 0 0 (List.replicate 4063 0), .alcGetRules { ch := 4 } 0 0 0,
     .alcGetRules { ch := 0 } 256 0 0, .alcGetRules { ch := 0 } 0 256 0, .alcGetRules { ch := 0 } 0 0 256,
     .alcCommitRules { ch := 4 }, .alcSetSiteLimits { ch := 4 } 0 0 0, .alcSetSiteLimits { ch := 0 } (-2147483649) 0 0,
     .alcSetSiteLimits { ch := 0 } 2147483648 0 0, .alcSetSiteLimits { ch := 0 } 0 (-2147483649) 0,
     .alcSetSiteLimits { ch := 0 } 0 2147483648 0, .alcSetSiteLimits { ch := 0 } 0 0 65536, .alcSetSessionClass { ch := 4 } 0 0,
     .alcSetSessionClass { ch := 0 } 256 0, .alcSetSessionClass { ch := 0 } 0 256, .alcGetGrants { ch := 4 },
     .alcGetInputs { ch := 4 } 0, .alcGetInputs { ch := 0 } 256, .alcGetAssignment { ch := 4 }, .alcSetStageService { ch := 4 } 0 0,
     .alcSetStageService { ch := 0 } 256 0, .alcSetStageService { ch := 0 } 0 256] : List Instr).all (fun i => !i.wf) = true := by
  decide +kernel

theorem test_ill_formed_2 :
    ([.cadGetGroup { ch := 4 } 0, .cadGetGroup { ch := 0 } 256, .cadGetLoop { ch := 4 } 0, .cadGetLoop { ch := 0 } 256,
     .cadClearFlags { ch := 4 } 0 0, .cadClearFlags { ch := 0 } 18446744073709551616 0, .cadClearFlags { ch := 0 } 0 256,
     .cadSetReference { ch := 4 } 0 0, .cadSetReference { ch := 0 } 256 0, .cadSetReference { ch := 0 } 0 (-2147483649),
     .cadSetReference { ch := 0 } 0 2147483648, .cadReleaseGroup { ch := 4 } 0, .cadReleaseGroup { ch := 0 } 256,
     .cadStageDescriptor { ch := 4 } 0 0 [], .cadStageDescriptor { ch := 0 } 256 0 [], .cadStageDescriptor { ch := 0 } 0 65536 [],
     .cadStageDescriptor { ch := 0 } 0 0 (List.replicate 4062 0), .cadCommitGroup { ch := 4 } 0, .cadCommitGroup { ch := 0 } 256,
     .chrGetRing { ch := 4 } 0, .chrGetRing { ch := 0 } 256, .chrGetStage { ch := 4 } 0, .chrGetStage { ch := 0 } 256,
     .chrClearCounters { ch := 4 } 0, .chrClearCounters { ch := 0 } 256, .outGetLink { ch := 4 } 0, .outGetLink { ch := 0 } 256,
     .outGetLinkStats { ch := 4 } 0, .outGetLinkStats { ch := 0 } 256, .outClearLinkStats { ch := 4 } 0,
     .outClearLinkStats { ch := 0 } 256, .outSetPilotTest { ch := 4 } 0 0, .outSetPilotTest { ch := 0 } 256 0,
     .outSetPilotTest { ch := 0 } 0 256, .outGetSession { ch := 4 } 0, .outGetSession { ch := 0 } 256,
     .outAuthorise { ch := 4 } 0 0 0 0 [], .outAuthorise { ch := 0 } 256 0 0 0 [], .outAuthorise { ch := 0 } 0 256 0 0 [],
     .outAuthorise { ch := 0 } 0 0 256 0 [], .outAuthorise { ch := 0 } 0 0 0 65536 [],
     .outAuthorise { ch := 0 } 0 0 0 0 (List.replicate 256 0), .outStopSession { ch := 4 } 0, .outStopSession { ch := 0 } 256,
     .outSetAvailability { ch := 4 } 0 0, .outSetAvailability { ch := 0 } 256 0, .outSetAvailability { ch := 0 } 0 256,
     .outClearWeld { ch := 4 } 0, .outClearWeld { ch := 0 } 256, .outGetChecks { ch := 4 } 0, .outGetChecks { ch := 0 } 256,
     .outRenegotiate { ch := 4 } 0, .outRenegotiate { ch := 0 } 256, .heatGetInput { ch := 4 } 0 0] : List Instr).all (fun i => !i.wf) = true := by
  decide +kernel

theorem test_ill_formed_3 :
    ([.heatGetInput { ch := 0 } 256 0, .heatGetInput { ch := 0 } 0 256, .heatGetOutlet { ch := 4 } 0, .heatGetOutlet { ch := 0 } 256,
     .heatGetThresholds { ch := 4 } 0 0, .heatGetThresholds { ch := 0 } 256 0, .heatGetThresholds { ch := 0 } 0 256,
     .heatAckSensor { ch := 4 } 0 0, .heatAckSensor { ch := 0 } 256 0, .heatAckSensor { ch := 0 } 0 256, .heatGetDie { ch := 4 },
     .mtrGetRegisters { ch := 4 } 0, .mtrGetRegisters { ch := 0 } 256, .mtrGetPoint { ch := 4 } 0, .mtrGetPoint { ch := 0 } 256,
     .mtrGetRecord { ch := 4 } 0, .mtrGetRecord { ch := 0 } 18446744073709551616, .mtrRenderRecord { ch := 4 } 0 0 0,
     .mtrRenderRecord { ch := 0 } 18446744073709551616 0 0, .mtrRenderRecord { ch := 0 } 0 256 0,
     .mtrRenderRecord { ch := 0 } 0 0 4294967296, .mtrAckRecords { ch := 4 } 0, .mtrAckRecords { ch := 0 } 18446744073709551616,
     .mtrSetWallTime { ch := 4 } 0 0, .mtrSetWallTime { ch := 0 } 256 0, .mtrSetWallTime { ch := 0 } 0 (-9223372036854775809),
     .mtrSetWallTime { ch := 0 } 0 9223372036854775808, .mtrWriteParameters { ch := 4 } 0 0 [],
     .mtrWriteParameters { ch := 0 } 256 0 [], .mtrWriteParameters { ch := 0 } 0 256 [],
     .mtrWriteParameters { ch := 0 } 0 0 (List.replicate 4063 0), .mtrSealParameters { ch := 4 }, .mtrGetLegalId { ch := 4 },
     .mtrReadParameters { ch := 4 } 0 0, .mtrReadParameters { ch := 0 } 256 0, .mtrReadParameters { ch := 0 } 0 256,
     .spkGetStatus { ch := 4 }, .spkGetNodes { ch := 4 }, .spkGetLink { ch := 4 } 0, .spkGetLink { ch := 0 } 256,
     .spkClearStats { ch := 4 } 0, .spkClearStats { ch := 0 } 256, .safGetStatus { ch := 4 }, .safGetInstance { ch := 4 } 0,
     .safGetInstance { ch := 0 } 256, .safGetInput { ch := 4 } 0, .safGetInput { ch := 0 } 256, .safGetPair { ch := 4 } 0,
     .safGetPair { ch := 0 } 256, .safReset { ch := 4 } 0 0, .safReset { ch := 0 } 4294967296 0, .safReset { ch := 0 } 0 256,
     .safSetOutput { ch := 4 } 0 0, .safSetOutput { ch := 0 } 256 0] : List Instr).all (fun i => !i.wf) = true := by
  decide +kernel

theorem test_ill_formed_4 :
    ([.safSetOutput { ch := 0 } 0 256, .safDoorLock { ch := 4 } 0 0, .safDoorLock { ch := 0 } 256 0, .safDoorLock { ch := 0 } 0 256,
     .safGetLink { ch := 4 } 0, .safGetLink { ch := 0 } 256, .safCfgGet { ch := 4 }, .safCfgRead { ch := 4 } 0 0 0,
     .safCfgRead { ch := 0 } 256 0 0, .safCfgRead { ch := 0 } 0 256 0, .safCfgRead { ch := 0 } 0 0 256, .safCfgOpen { ch := 4 } [],
     .safCfgOpen { ch := 0 } (List.replicate 256 0), .safCfgWrite { ch := 4 } 0 0 [], .safCfgWrite { ch := 0 } 256 0 [],
     .safCfgWrite { ch := 0 } 0 256 [], .safCfgWrite { ch := 0 } 0 0 (List.replicate 4063 0), .safCfgCommit { ch := 4 },
     .safCfgClose { ch := 4 }, .safCfgAck { ch := 4 } 0 [], .safCfgAck { ch := 0 } 4294967296 [],
     .safCfgAck { ch := 0 } 0 (List.replicate 256 0), .safCfgSetPassword { ch := 4 } [] [],
     .safCfgSetPassword { ch := 0 } (List.replicate 256 0) [], .safCfgSetPassword { ch := 0 } [] (List.replicate 256 0),
     .safCfgGetLog { ch := 4 } 0 0, .safCfgGetLog { ch := 0 } 256 0, .safCfgGetLog { ch := 0 } 0 256, .ldcGetChannel { ch := 4 } 0,
     .ldcGetChannel { ch := 0 } 256, .ldcSetChannel { ch := 4 } 0 0, .ldcSetChannel { ch := 0 } 256 0,
     .ldcSetChannel { ch := 0 } 0 256, .ldcSetDuty { ch := 4 } 0 0, .ldcSetDuty { ch := 0 } 256 0, .ldcSetDuty { ch := 0 } 0 65536,
     .ldcClearFault { ch := 4 } 0, .ldcClearFault { ch := 0 } 4294967296, .ldcGetPackage { ch := 4 }, .stkGetStatus { ch := 4 },
     .stkGetCompanion { ch := 4 } 0 0, .stkGetCompanion { ch := 0 } 256 0, .stkGetCompanion { ch := 0 } 0 256,
     .stkSetSoc { ch := 4 } 0 0, .stkSetSoc { ch := 0 } 256 0, .stkSetSoc { ch := 0 } 0 65536, .stkClearFault { ch := 4 } 0 0,
     .stkClearFault { ch := 0 } 256 0, .stkClearFault { ch := 0 } 0 256, .keyGetSlot { ch := 4 } 0, .keyGetSlot { ch := 0 } 256,
     .keyGenerate { ch := 4 } 0 { alg := 0, usage := 0, masters := 0, world := 0, lifecycles := 0, flags := 0 } (List.replicate 32 0),
     .keyGenerate { ch := 0 } 256 { alg := 0, usage := 0, masters := 0, world := 0, lifecycles := 0, flags := 0 } (List.replicate 32 0),
     .keyGenerate { ch := 0 } 0 { alg := 256, usage := 0, masters := 0, world := 0, lifecycles := 0, flags := 0 } (List.replicate 32 0)] : List Instr).all (fun i => !i.wf) = true := by
  decide +kernel

theorem test_ill_formed_5 :
    ([.keyGenerate { ch := 0 } 0 { alg := 0, usage := 0, masters := 0, world := 0, lifecycles := 0, flags := 0 } [],
     .keyImport { ch := 4 } 0 { alg := 0, usage := 0, masters := 0, world := 0, lifecycles := 0, flags := 0 } (List.replicate 32 0) 0 0 [],
     .keyImport { ch := 0 } 256 { alg := 0, usage := 0, masters := 0, world := 0, lifecycles := 0, flags := 0 } (List.replicate 32 0) 0 0 [],
     .keyImport { ch := 0 } 0 { alg := 256, usage := 0, masters := 0, world := 0, lifecycles := 0, flags := 0 } (List.replicate 32 0) 0 0 [],
     .keyImport { ch := 0 } 0 { alg := 0, usage := 0, masters := 0, world := 0, lifecycles := 0, flags := 0 } [] 0 0 [],
     .keyImport { ch := 0 } 0 { alg := 0, usage := 0, masters := 0, world := 0, lifecycles := 0, flags := 0 } (List.replicate 32 0) 65536 0 [],
     .keyImport { ch := 0 } 0 { alg := 0, usage := 0, masters := 0, world := 0, lifecycles := 0, flags := 0 } (List.replicate 32 0) 0 256 [],
     .keyImport { ch := 0 } 0 { alg := 0, usage := 0, masters := 0, world := 0, lifecycles := 0, flags := 0 } (List.replicate 32 0) 0 0 (List.replicate 4023 0),
     .keyDerive { ch := 4 } 0 0 { alg := 0, usage := 0, masters := 0, world := 0, lifecycles := 0, flags := 0 } (List.replicate 32 0),
     .keyDerive { ch := 0 } 256 0 { alg := 0, usage := 0, masters := 0, world := 0, lifecycles := 0, flags := 0 } (List.replicate 32 0),
     .keyDerive { ch := 0 } 0 256 { alg := 0, usage := 0, masters := 0, world := 0, lifecycles := 0, flags := 0 } (List.replicate 32 0),
     .keyDerive { ch := 0 } 0 0 { alg := 256, usage := 0, masters := 0, world := 0, lifecycles := 0, flags := 0 } (List.replicate 32 0),
     .keyDerive { ch := 0 } 0 0 { alg := 0, usage := 0, masters := 0, world := 0, lifecycles := 0, flags := 0 } [],
     .keyRevoke { ch := 4 } 0, .keyRevoke { ch := 0 } 256, .keyErase { ch := 4 } 0, .keyErase { ch := 0 } 256,
     .keyExport { ch := 4 } 0, .keyExport { ch := 0 } 256, .keySign { ch := 4 } 0 [], .keySign { ch := 0 } 256 [],
     .keySign { ch := 0 } 0 (List.replicate 256 0), .keyAttest { ch := 4 } (List.replicate 32 0), .keyAttest { ch := 0 } [],
     .keyGetCertificate { ch := 4 } 0 0, .keyGetCertificate { ch := 0 } 256 0, .keyGetCertificate { ch := 0 } 0 65536,
     .recGetInfo { ch := 4 }, .recRead { ch := 4 } 0 0 0 0, .recRead { ch := 0 } 256 0 0 0,
     .recRead { ch := 0 } 0 18446744073709551616 0 0, .recRead { ch := 0 } 0 0 18446744073709551616 0, .recRead { ch := 0 } 0 0 0 256,
     .recGetLimits { ch := 4 }, .recGetChallenge { ch := 4 }, .recClear { ch := 4 } 0 0 0 { key := [], msg := [], len := 1 },
     .recClear { ch := 0 } 256 0 0 { key := [], msg := [], len := 1 },
     .recClear { ch := 0 } 0 18446744073709551616 0 { key := [], msg := [], len := 1 },
     .recClear { ch := 0 } 0 0 256 { key := [], msg := [], len := 1 },
     .recClear { ch := 0 } 0 0 0 { key := [], msg := [], len := 65536 }, .recWriteNote { ch := 4 } (List.replicate 22 0),
     .recWriteNote { ch := 0 } [], .tdmGetStatus { ch := 4 }, .tdmSwitchOver { ch := 4 }, .tdmGetPeloton { ch := 4 },
     .qspiUnknownInstruction 256 [], .chnReqProdWrite 4 0, .chnRspConsWrite 4 0, .chnCtrlReset 4, .chnCtrlEnable 4 true,
     .evPendClear 4 0 0, .registerWrite 16777216 [], .responseWrite 4, .commandCompletion 4 0] : List Instr).all (fun i => !i.wf) = true := by
  decide +kernel

theorem test_ill_formed_6 :
    ([.commandCompletion 0 32, .commandTimeout 4 0, .commandTimeout 0 32, .mbxConnectionOpen 4 default,
     .mbxConnectionOpen 0 { eth := 2 }, .mbxConnectionOpen 0 { port := 65536 }, .mbxStreamFrame 4 (List.replicate 32 0),
     .mbxStreamFrame 0 (List.replicate 31 0), .mbxStreamFrame 0 (List.replicate 33 0), .mbxKeepaliveExpiry 4, .mbxConnectionClosed 4,
     .resetNRelease 8 0 0, .resetNRelease 0 8 0, .resetNRelease 0 0 4294967296, .powerOnResetRelease 8 0 0 true,
     .powerOnResetRelease 0 8 0 true, .powerOnResetRelease 0 0 65536 true, .railFaultReset 3, .kickstandCauseGone 65536,
     .firewallViolation 12 0 true, .firewallViolation 0 4294967296 true, .sramUncorrectableError 12, .norReadError 65536 true,
     .alcInputStale 5 0, .alcInputStale 0 13, .stageReleaseDelay 13, .matrixConfirmTimeout 25, .controlTick 16, .groupOverrun 16 [],
     .zeroHoldComplete 16, .chainringFrameReturn 2 [], .stageLost 25, .stagePresent 25, .ringBroken 2, .pilotPeriodEnd 3 0 0 0,
     .pilotPeriodEnd 0 0 0 65536, .pilotStateConfirmed 3, .proximityClassConfirmed 3,
     .cmSlacParamReq 3 (List.replicate 6 0) (List.replicate 8 0), .cmSlacParamReq 0 [] (List.replicate 8 0),
     .cmSlacParamReq 0 (List.replicate 6 0) [], .slacSoundsReceived 3 (List.replicate 8 0) [], .slacSoundsReceived 0 [] [],
     .slacSoundsReceived 0 (List.replicate 8 0) [[1], []], .cmValidate 3, .cmSlacMatchReq 3 (List.replicate 6 0) (List.replicate 8 0),
     .cmSlacMatchReq 0 [] (List.replicate 8 0), .cmSlacMatchReq 0 (List.replicate 6 0) [], .t1sFrameReceived 3 default,
     .t1sLinkTimeout 3, .bridgeGpioChange 16 true, .sessionSequencerStep 3 true, .sdpRequest 3 none, .sdpRequest 0 (some 4095)] : List Instr).all (fun i => !i.wf) = true := by
  decide +kernel

theorem test_ill_formed_7 :
    ([.supportedAppProtocolReq 3 [], .tlsHandshakeComplete 3 0 default,
     .tlsHandshakeComplete 0 0 { version := 65536, suites := [], groups := [], sigs := [] }, .tlsHandshakeComplete 0 256 default,
     .authorizationReq 3 0 [] [], .authorizationReq 0 256 [] [], .authTimeoutExpiry 3, .authValidityExpiry 3, .cableCheckReq 3 0,
     .cableCheckReq 0 65536, .prechargeReq 3 0, .prechargeReq 0 65536, .powerDeliveryStartReq 3 true, .powerDeliveryStopReq 3,
     .directionChangeReq 3 true, .weldingDetectionReq 3, .vehicleRenegotiationReq 3 [], .vehicleRenegotiationReq 0 [(4294967296, 0)],
     .vehicleRenegotiationReq 0 [(0, 65536)], .grantReceived [], .contactorConfirmed 3, .contactorConfirmTimeout 3,
     .weldTestStepRead 3, .postcheckGrantTimeout 3, .imdSettleComplete 3, .cableCheckMaxExpiry 3, .prechargeTimeout 3,
     .renegHoldExpiry 3, .outletCurrentAtOpen 3, .endTimeoutExpiry 3, .urgentStop100msExpiry 3, .thresholdCrossed 64,
     .thresholdRearmed 64, .sensorRecovered 4 0, .sensorRecovered 0 32, .shutdownHoldEnd 8 0, .shutdownHoldEnd 0 8,
     .meteringSample [], .meteringSample (List.replicate 40 [true]), .meterChannelFaulted 40, .meterChannelValid 40,
     .directionEstablished 11, .operatingSecond 4294967296, .intervalClose 11, .testPulseStart 2, .zxEdge 18446744073709551616 0,
     .zxEdge 0 4294967296, .beaconReceived 18446744073709551616 (List.replicate 240 0), .beaconReceived 0 [], .nodeSilent 256,
     .postLost 16, .acknowledgementReceived [], .acknowledgementMissing 256, .toneMapUpdate 256] : List Instr).all (fun i => !i.wf) = true := by
  decide +kernel

theorem test_ill_formed_8 :
    ([.toneMapReceived 256 0 0 0 0 [], .toneMapReceived 0 256 0 0 0 [], .toneMapReceived 0 0 256 0 0 [],
     .toneMapReceived 0 0 0 256 0 [], .toneMapReceived 0 0 0 0 256 [], .joinDecision 32 [], .powerFailNotice 16,
     .bridgedEthernetFrame true 4096 0 [], .bridgedEthernetFrame true 0 65536 [], .safetyTick [] [] [] [] 65536, .safetyEdgeMissed 2,
     .testSample 4 [], .discrepancyLate 16, .resetInputPress 16, .twoHandLate 35, .muteMaxExpiry 35, .lockFeedbackTimeout 35,
     .unlockDelayExpiry 35, .maxRampExpiry 6, .darkTest 6 0 0 0, .darkTest 0 65536 0 0, .darkTest 0 0 65536 0, .darkTest 0 0 0 65536,
     .pairOvercurrent 6, .safetyCopyReceived 2 (List.replicate 36 0) [], .safetyCopyReceived 0 [] [],
     .safetyCopyReceived 0 (List.replicate 36 0) (List.replicate 9 0), .skewWindowClose 8, .transportWatchdogExpiry 8,
     .degradedHoldExpiry 8, .transportFaultClear 8, .ldcDiagnosticEval 65536 [], .ldcShortToGround 24, .ldcOvertemperature 24,
     .ldcLatchClear 24, .ldcRetryDelayExpiry 24, .ldcRetryReload 24, .ldcSwitchOnAdmitted 24, .loadWatchdogTrip 2,
     .loadWatchdogTest 1048576 0, .loadWatchdogTest 0 1048576, .readAllReturn 2 true [], .readAllTimeout 2,
     .enumerateReturn 2 0 true [], .enumerateReturn 0 256 true [], .enumerationRetry 2, .faultLoopOpen 2, .faultLoopPermitReturn 2,
     .norRecordCopy 8129, .rateLimitWindowEnd 65536, .bulkTransferReceived [] [] [] 65536 0,
     .bulkTransferReceived [] [] [] 0 281474976710656, .pelotonFrame 4 (List.replicate 100 0), .pelotonFrame 0 []] : List Instr).all (fun i => !i.wf) = true := by
  decide +kernel

theorem test_ill_formed_9 :
    ([.pelotonMemberLost 4, .testPulseEnd 2, .vehicleLoopRequest 3 default, .vehicleNegotiationRequest 3 default true default [],
     .vehicleNegotiationRequest 0 default true default [(4294967296, 0)],
     .vehicleNegotiationRequest 0 default true default [(0, 65536)], .slacTimerExpiry 3, .erroneousWindowRead 16777216 0,
     .erroneousWindowRead 0 4294967296] : List Instr).all (fun i => !i.wf) = true := by
  decide +kernel

/-! ### Worked examples of the spec, and figures that it states -/

/-- The check value of the CRC of R59 over "123456789", and an empty string. -/
theorem test_crc32c : crc32c (ascii "123456789") = 0xE3069283 ∧ crc32c [] = 0 := by decide +kernel

/-- Under R59 and R175: CRC-16 with polynomial 0x1021 and initial value 0xFFFF over "123456789". -/
theorem test_crc16 : crc16 (ascii "123456789") = 0x29B1 := by decide +kernel

/-- Worked examples of R42 and R108: 400,000 and 160,000 cycles are admitted, 100 more rules cost 140,000 and are not. -/
theorem test_derailleur_cost :
    derailCost 8 33 120 true = 400000 ∧ recorderCost 32 = 160000 ∧ derailCost 8 33 120 true + recorderCost 32 ≤ 640000 ∧
      derailCost 8 33 220 true + recorderCost 32 = 700000 := by decide

/-- Worked example of R167: the loop costs of the Kettle Yard hub and the costliest shape. -/
theorem test_loop_costs :
    [costLoop 12 2 3 1, costLoop 6 1 2 1, costLoop 6 1 3 1, costLoop 1 1 1 1, costLoop 8 1 2 1, costLoop 2 1 1 1, costLoop 16 8 8 0]
      = [338, 133, 145, 56, 177, 65, 832] := by decide

/-- Worked example of R179: 17 slots and 60 m of cable need a tick of 23 us; 24 slots and 150 m need 31 us. -/
theorem test_ring_tick :
    [(22, 17, 60), (23, 17, 60), (30, 24, 150), (31, 24, 150)].map (fun (x : Nat × Nat × Nat) =>
      chainFits { role := 1, chain := { tick := x.1, enabled := [false, true], slots := [0, x.2.1], lengthM := [150, x.2.2] } })
        = [false, true, false, true] := by decide

/-- R311: 17,300 instructions a sample on the Kettle Yard hub, 6,500 on each post. -/
theorem test_meter_cost : meterCost 24 4 3 0 = 17300 ∧ meterCost 8 2 0 2 = 6500 := by decide

/-- Worked example of chapter 10: 86 degC gives 1,800 A and 83 degC 2,400 A, of 3,000 A between 80 and 95 degC. -/
theorem test_thermal_curve :
    (curve (u8 0 ++ u8 1 ++ u16 30000 ++ u16 800 ++ u16 950) 8600, curve (u8 0 ++ u8 1 ++ u16 30000 ++ u16 800 ++ u16 950) 8300)
      = (18000000, 24000000) := by decide +kernel

/-- Worked example of chapter 12: a span-2 burst at 1,536 coded bits a symbol and rate 2/3 carries 100 code words. -/
theorem test_span_words : spanWords 217 2 { rate := 1, carriers := List.replicate 192 0x33 } = 100 := by decide +kernel

/-- Worked example of R288: samples of 12.000 A at 781.000 V and of 15.000 A at 780.400 V are 0.325417 and 0.406458 mWh. -/
theorem test_sample_energy :
    [(12000, 781000), (15000, 780400)].map (fun (x : Nat × Nat) => (energyOf (x.1 * 256 * (x.2 * 256)) * 1000000 + 2 ^ 31) / 2 ^ 32)
      = [325417, 406458] := by decide

/-- Worked example of R304: 48 us at 3,750 kW, 1,800 us at 100 kW, and WIDTH, 2,000 us, at 50 kW. -/
theorem test_pulse_width :
    [3750, 100, 50].map (fun (kw : Nat) => pulseWidth { State.reset with
      nvMtr.header := slice (u8 15 ++ u8 0 ++ u8 0 ++ u8 0 ++ u8 8 ++ u8 0 ++ u32 10000 ++ u16 2000) 0 32
      mtr.points := List.replicate 11 { last8 := List.replicate 8 ((kw : Int) * 1000000000 * 65536) } } 0) = [48, 1800, 2000] := by
  decide +kernel

/-- Worked example of chapter 00 and R491: four records in [1,200, 1,210); a fifth at 1,209 is counted, one at 1,210 opens the next window. -/
def limited (t seen : Nat) : State :=
  { bench 1 with
    nv.opSeconds := t
    cfg.limits := [u16 0x4101 ++ u8 4 ++ u8 0 ++ u16 10 ++ u16 0]
    recd.windows := [{ code := 0x4101, start := 1200, length := 10, limit := 4, seen := seen }] }
theorem test_rate_limit :
    (record 0x4101 1 [] (limited 1209 3)).recd.intake.length = 1 ∧ (record 0x4101 1 [] (limited 1209 4)).recd.intake = [] ∧
      (record 0x4101 1 [] (limited 1209 4)).recd.windows.map (·.suppressed) = [1] ∧
      (record 0x4101 1 [] (limited 1210 4)).recd.windows.map (fun w => (w.start, w.seen)) = [(1210, 1)] := by decide +kernel

/-- Worked example of R60 to R72: CH1_REQ_PROD 0x1F to 0x20, a response in slot 7 at 0x1A_7000, CH1_RSP_PROD 8 and source 9 pending; the
bell stays released, for EV_EN0 still holds its reset value. -/
def channel1 : State :=
  { bench 1 with
    win.route := 1 <<< 18
    mbx.channels := [{}, { reqProd := 0x1F, reqCons := 0x1F, rspProd := 7, rspCons := 7 }, {}, {}] }
theorem test_doorbell : ∃ t, exec (.chnReqProdWrite 1 0x20) channel1 = .next t ∧ (chan t 1).reqProd = 0x20 := ⟨_, rfl, by decide +kernel⟩
theorem test_channel_stats : ∃ t, exec (.sysGetChannelStats { ch := 1, tag := 5, seq := 0x1A2B } 1) channel1 = .next t ∧
    (chan t 1).rspProd = 8 ∧ t.win.pend.getLsbD 9 = true ∧ bellAsserted t 1 = false ∧ memReads t.mbx.ring 0x1A7000 2 = [0xA1, 0xD2] :=
  ⟨_, rfl, by decide +kernel⟩

/-- Worked example of chapter 05, its seven rules and its eight outlets; the requests and the stages that serve them;
the stages deliver at 1,250 V what the column of the table grants. -/
def rule (kind outlets cmin cmax : Nat) (p : List Int) : Bytes :=
  slice (u8 kind ++ u8 1 ++ u16 outlets ++ u8 cmin ++ u8 cmax ++ u16 0 ++ u16 0 ++ u16 0 ++ p.flatMap i32) 0 32
def ask (outlet cls kw : Nat) : Bytes :=
  slice (u8 outlet ++ u8 3 ++ u8 4 ++ u8 cls ++ u16 30000 ++ u16 30000 ++ u16 12500 ++ u16 kw ++ u16 0xFFFF ++ u16 0 ++ u32 0xFFFFFFFF ++
    u16 30000 ++ u16 12500 ++ u32 1) 0 32
def yardStages : List (Nat × Nat) :=
  [(0, 1), (1, 1), (2, 1), (3, 1), (4, 1), (5, 1), (6, 2), (7, 2), (8, 2), (9, 2), (10, 2), (11, 2), (24, 3), (25, 3), (26, 3), (27, 3),
    (28, 3), (29, 3), (36, 6)]
def yard (more amps : List (Nat × Nat)) : State :=
  { bench 1 with
    cfg.role := 1
    cfg.site := { contractImport := some 12000, fallbackImport := some 12000, feederLimit := [some 12000, some 12000], maxOther := 400 }
    cfg.outlets := (List.range 8).map fun i => slice (u8 (i + 1) ++ u8 (i / 2 + 1) ++ u16 3000 ++ u16 1250 ++ u16 150 ++ u16 3750 ++ u8 60) 0 16
    cfg.positions := ((List.range 12).map fun i => slice (u8 (i + 1) ++ u8 1 ++ u16 255 ++ u16 625 ++ u16 1000 ++ u16 625) 0 16) ++
      ((List.range 20).map fun i => slice (u8 (129 + i) ++ u8 1 ++ u16 255 ++ u16 625 ++ u16 1000 ++ u16 625) 0 16) ++
      [slice (u8 152 ++ u8 2 ++ u16 0 ++ u16 2000 ++ u16 3000 ++ u16 625) 0 16]
    alc.rules := [rule 1 255 6 7 [4], rule 1 255 0 5 [1], rule 2 255 5 7 [500], rule 2 255 0 4 [150], rule 4 255 0 7 [500],
      rule 7 0 0 7 [200, 900, 2000, 1500], rule 6 0 0 7 [50, 10000, 3000, 1]]
    alc.feederAge := some 0
    alc.freqAge := some 0
    alc.bufferAge := some 0
    alc.freq := 50000
    alc.otherHist := List.replicate 100 400
    alc.assign := (List.range 48).map fun i => match (yardStages ++ more).find? (·.1 == i) with
      | some (_, o) => { at_ := o, dest := o, admitted := true, counted := 625 }
      | none => {}
    chr.stages := (List.range 48).map fun i =>
      { state := 3, clean := 9, since := some 0, slot := slice (u16 (lookupNat amps i) ++ u16 12500 ++ u32 0 ++ u8 1 ++ u8 0 ++ u8 (lookupNat (yardStages ++ more) i)) 0 16 }
    stk.soc := 600
    stk.dis := 4000
    stk.chg := 3000 }
def rest (outlet : Nat) : Bytes :=
  slice (u8 outlet ++ u8 1 ++ u8 0 ++ u8 255 ++ u16 0 ++ u16 0 ++ u16 0 ++ u16 0 ++ u16 0xFFFF ++ u16 0 ++ u32 0xFFFFFFFF ++ u16 30000) 0 32
def asked (l : List Bytes) (s : State) : State := l.foldl (fun s b => deliverRequest b s) s
def yard1 : State := asked [ask 1 6 3750, ask 2 6 3750, ask 3 2 3750, ask 6 2 400, rest 4, rest 5, rest 7, rest 8]
    (yard [] [(0, 30000), (6, 30000), (24, 30000), (36, 3200)])
def yard2 (o1 o2 o3 o4 : Nat) : State :=
  asked [ask 1 6 3750, ask 2 6 3750, ask 3 2 3750, ask 4 7 3750, ask 6 2 400, rest 5, rest 7, rest 8]
    (yard [(30, 4), (31, 4), (32, 4), (33, 4), (34, 4), (35, 4)] [(0, o1), (6, o2), (24, o3), (30, o4), (36, 3200)])

/-- G, A, the reserve, the buffer discharge and the grants of the first six outlets, kW. -/
def epochOf (s : State) : List Int :=
  let t := computeEpoch s
  [t.alc.g, t.alc.a, t.alc.reserve, t.alc.buffer] ++ (t.alc.next.take 6).map fun g => (g.p : Int)

/-- Step 1 of the table of chapter 05: every session is capped at its demand, and the buffer covers 50 kW. -/
theorem test_epoch_start : epochOf yard1 = [12000, 13600, 500, 50, 3750, 3750, 3750, 0, 0, 400] := by decide +kernel

/-- Step 2: the coach on O4 is capped at its demand, O3 falls to 1,450 kW. -/
theorem test_epoch_arrival : epochOf (yard2 30000 30000 11600 30000) = [12000, 13600, 500, 1500, 3750, 3750, 1450, 3750, 0, 400] := by decide +kernel

/-- Step 3: with one stage of O1 failed, O1 has 3,125 kW and O3 2,075 kW, by 2,500 A at 830 V. -/
theorem test_epoch_failure :
    epochOf (onAssign 0 (fun a => { a with counted := 0 }) (yard2 25000 30000 16600 30000))
      = [12000, 13600, 500, 1500, 3125, 3750, 2075, 3750, 0, 400] := by decide +kernel

/-- Step 4: under a host limit of 10,000 kW the weighted shares are rounded down. -/
theorem test_epoch_grid_limit :
    epochOf { yard2 26272 26272 6768 26272 with alc.host := some (10000, 0, 100000) } = [10000, 11600, 500, 1498, 3284, 3284, 846, 3284, 0, 400] := by decide +kernel

/-- Step 5: at 49.75 Hz the response is 2,000 kW. -/
theorem test_epoch_frequency :
    epochOf { yard2 21352 21352 5536 21352 with alc.host := some (10000, 0, 100000), alc.freq := 49750 }
      = [8000, 9600, 500, 1499, 2669, 2669, 692, 2669, 0, 400] := by decide +kernel

/-- Worked example of chapter 06: the two integral loops of one outlet, with the states of tick k0 and of tick k0 + 1. -/
def q28 (n : Int) : Int := n * 268435456 / 10000
def integralLoop (i src : Nat) (x : Int) : Loop :=
  { desc := [BitVec.ofNat 8 i, 0, 1, 1, 1, 1, 0, 1, 1], n := 1, m := 1, p := 1, q := 1, enabled := true
    inp := [(0x0100, -18, 938249922), (src, -15, 1172812403)], out := [0], a := [[q28 10000]], b := [[0]], c := [[0]]
    l := [[q28 (-2500), q28 2500]], k := [[q28 (-10000)]], r := [[0]], t := [q28 10000], x0 := [0], x := [x] }
def handOver (x0 x1 : Int) : State :=
  { bench 1 with
    cfg.role := 1
    cfg.outlets := [slice (u8 1 ++ u8 1 ++ u16 3000 ++ u16 1250 ++ u16 150 ++ u16 3750 ++ u8 60) 0 16]
    cfg.positions := (List.range 6).map fun i => slice (u8 (i + 1) ++ u8 1 ++ u16 255 ++ u16 625 ++ u16 1000 ++ u16 625) 0 16
    cad.loops := [integralLoop 0 0x1200 x0, integralLoop 1 0x1400 x1] ++ List.replicate 62 {}
    cad.groups := [{ g := q28 8000, desc := slice (u8 0 ++ u8 1 ++ u8 1 ++ u8 3 ++ u16 50 ++ u16 20 ++ u32 30000 ++ i32 (q28 10000) ++ i32 0 ++
      i32 (q28 100) ++ u32 300) 0 64 }] ++ List.replicate 15 {}
    alc.grants := [{ state := 3, p := 3750, i := 27000, iTarget := 24000, iTherm := 21000 }] ++ List.replicate 11 {}
    alc.assign := (List.range 48).map fun i => if i < 6 then { at_ := 1, dest := 1, admitted := true, counted := 625 } else {}
    chr.stages := List.replicate 48 { state := 3, clean := 9, since := some 0, slot := slice (u16 4000 ++ u16 8000 ++ u16 8000 ++ u16 0 ++ u8 1 ++ u8 0 ++ u8 33) 0 16 } }

/-- g, the winner and the next states in ten-thousandths. -/
def tickOf (s : State) : Int × Nat × List Int :=
  match exec (.controlTick 0) s with
  | .next t => (roundDiv ((Machine.group t 0).g * 10000) 268435456, (Machine.group t 0).winner,
      (t.cad.loops.take 2).flatMap fun l => l.x.map fun x => roundDiv (x * 10000) 268435456)
  | _ => (0, 0, [])

/-- At k0 the current loop wins at 0.8000 and the thermal loop's next state is 0.7750; at k0 + 1 that candidate wins. -/
theorem test_hand_over : tickOf (handOver (q28 8000) (q28 8250)) = (8000, 0, [8000, 7750]) := by decide +kernel
theorem test_hand_over_next : tickOf (handOver (q28 8000) (q28 7750)) = (7750, 1, [7750, 7500]) := by decide +kernel

/-- Worked example of chapter 17: with generations 6 and 5 the write goes into copy B with generation 7. -/
theorem test_key_write :
    (putCopy 9 (key 9 0x13) { a := { generation := 6 }, b := { generation := 5 } }).a.generation = 6 ∧
      (putCopy 9 (key 9 0x13) { a := { generation := 6 }, b := { generation := 5 } }).b.generation = 7 := by decide

/-- R172: every code group of a data byte holds four to six ones and no byte shares one with another or with a control symbol. -/
theorem test_code_groups :
    [false, true].all (fun rd =>
      let all := ((List.range 256).map fun b => codeGroup rd (.data (BitVec.ofNat 8 b))) ++ [codeGroup rd .k28_5, codeGroup rd .k27_7, codeGroup rd .k29_7]
      allDistinct all && all.all fun c => decide (4 ≤ weight10 c ∧ weight10 c ≤ 6)) = true := by decide +kernel

/-- R172 to R174: what a frame's symbols spell back is its header and outbound block; a frame with a damaged CRC spells none. -/
theorem test_ring_frame :
    ringHead 1 (ringSymbols (formFrame (ringHeader 129 7 9 1 20 0) [{}])) = some (ringHeader 129 7 9 1 20 0 ++ refBytes {}) ∧
      ringHead 1 (ringSymbols (ringHeader 129 7 9 1 20 0 ++ refBytes {} ++ [0, 0, 0, 0])) = none := by decide +kernel

/-- R320: the first eleven preamble values are the seed's ones, phase pi; the twelfth is the sum of two ones. -/
theorem test_preamble : (preambleBits 12) = List.replicate 11 true ++ [false] ∧ (preambleSymbol 1).map (·.i) = [-1] := by decide

/-- R324: of two code words of two bits, positions 0 to 3 carry the words' bits in turn and position 4 the fill. -/
theorem test_interleave : interleave [[true, true], [false, false]] 2 5 [true] = [true, false, true, false, true] := by decide

/-! ### Values that meet the hypotheses of the statements -/

theorem bench_sound : (bench 1).sound := by
  refine ⟨⟨⟨List.Pairwise.nil, fun _ h => nomatch h⟩, ?_, ?_⟩, ⟨rfl, ?_⟩,
    (List.length_replicate : (List.replicate 256 ({} : KeySlot)).length = 256), (fun h => nomatch h), rfl, rfl⟩
  · intro x hx
    have : x ∈ ([{}, {}] : List FwSlot) := hx
    simp only [List.mem_cons, List.not_mem_nil, or_false, or_self] at this; subst this
    exact ⟨List.Pairwise.nil, fun _ h => nomatch h⟩
  · intro x hx
    have : x ∈ ([{}, {}] : List CfgSlot) := hx
    simp only [List.mem_cons, List.not_mem_nil, or_false, or_self] at this; subst this
    exact ⟨List.Pairwise.nil, fun _ h => nomatch h⟩
  · intro c hc
    have : c ∈ ([{ creds := [cred1] }, {}, {}, {}] : List Channel) := hc
    simp only [List.mem_cons, List.not_mem_nil, or_false, or_self] at this
    rcases this with h | h <;> subst h <;> rfl

theorem witness_bell_pulse :
    (∃ (s : State), ∃ (n : Nat), n < 128 ∧ s.win.pulses.length = 4 ∧ bellAsserted s (routeOf s n) = true ∧ active s n = false ∧
      s.win.en.getLsbD n = true) ∧
    (∃ (s : State), ∃ (n : Nat), ∃ line, n < 128 ∧ s.win.pulses.length = 4 ∧ bellAsserted s (routeOf s n) = true ∧ active s n = false ∧
      s.win.en.getLsbD n = true ∧ s.win.pulse.getLsbD (routeOf s n) = true ∧ line < 4) ∧
    (∃ (s : State), ∃ (n : Nat), n < 128 ∧ s.win.pulses.length = 4 ∧ bellAsserted s (routeOf s n) = true ∧ active s n = false ∧
      s.win.en.getLsbD n = true ∧ s.win.pulse.getLsbD (routeOf s n) = false) :=
  ⟨⟨{ bench 1 with win.pend := 1, win.en := 3, win.pulse := 0 }, 1, by decide +kernel⟩,
   ⟨{ bench 1 with win.pend := 1, win.en := 3, win.pulse := 1 }, 1, 3, by decide +kernel⟩,
   ⟨{ bench 1 with win.pend := 1, win.en := 3, win.pulse := 0 }, 1, by decide +kernel⟩⟩

theorem witness_boot_runs :
    (∃ (s : State), s.sys.phase = .held ∧ s.env.resetN = false ∧ s.env.rails = true ∧ s.nv.strapLast = none) ∧
    (∃ (s : State), ∃ role, ∃ node, ∃ old, s.sys.phase = .held ∧ s.env.resetN = false ∧ s.env.rails = true ∧ s.nv.strapLast = some old ∧
      old ≠ role % 8 + 8 * (node % 8)) ∧
    (∃ (s : State), s.sys.phase = .held ∧ s.env.resetN = false ∧ s.env.rails = false) ∧
    (∃ (s : State), s.sys.phase = .held ∧ s.env.resetN = true ∧ s.env.heldMs = none ∧ s.nv.strapLast = none) ∧
    (∃ (s : State), ∃ held, s.sys.phase = .held ∧ s.env.resetN = true ∧ s.env.heldMs = some held ∧ s.nv.strapLast = none) ∧
    (∃ (s : State), s.sys.phase = .held ∧ s.env.resetN = false) ∧
    (∃ (s : State), s.sys.phase = .heatHold ∧ 3 ≤ s.nvHeat.coolRun ∧ s.env.resetN = true ∧ s.env.rails = true ∧ s.env.heldMs = none ∧
      s.nv.strapLast = none) ∧
    (∃ (s : State), s.sys.phase = .wipe) ∧
    (∃ (s : State), ∃ t, ∃ (x : State), s.sys.phase = .verify ∧
      selectFw (noteOpenTransition (discardTorn (wipeKeys (resolveSlots s)))) = (some t, x)) ∧
    (∃ (s : State), ∃ t, s.sys.phase = .verify ∧ selectFw (noteOpenTransition (discardTorn (wipeKeys (resolveSlots s)))) = (none, t)) ∧
    (∃ (s : State), ∃ result, ∃ t, s.sys.phase = .selfTest ∧
      t = bootCauses result (startRole (startHeat { interruptAll (wipeKeys s) with sys.phase := .running }))) :=
  ⟨⟨{ State.reset with env.rails := true, env.resetN := false, env.heldMs := none, nv.strapLast := none }, by decide +kernel⟩,
   ⟨{ State.reset with env.rails := true, env.resetN := false, env.heldMs := none, nv.strapLast := some 1 }, 2, 3, 1, by decide +kernel⟩,
   ⟨{ State.reset with env.rails := false, env.resetN := false, env.heldMs := none, nv.strapLast := none }, by decide +kernel⟩,
   ⟨{ State.reset with env.rails := false, env.resetN := true, env.heldMs := none, nv.strapLast := none }, by decide +kernel⟩,
   ⟨{ State.reset with env.rails := false, env.resetN := true, env.heldMs := some 5, nv.strapLast := none }, 5, by decide +kernel⟩,
   ⟨{ State.reset with env.rails := true, env.resetN := false, env.heldMs := none, nv.strapLast := none }, by decide +kernel⟩,
   ⟨{ State.reset with sys.phase := .heatHold, env.rails := true, env.resetN := true, nvHeat.coolRun := 3 }, by decide +kernel⟩,
   ⟨{ State.reset with sys.phase := .wipe }, by decide +kernel⟩,
   (let ⟨a, b, h⟩ := some_pair (p := selectFw (noteOpenTransition (discardTorn (wipeKeys (resolveSlots (verifying goodImage)))))) image_good; ⟨verifying goodImage, a, b, rfl, h⟩),
   (let ⟨b, h⟩ := none_pair (p := selectFw (noteOpenTransition (discardTorn (wipeKeys (resolveSlots ({ State.reset with sys.phase := .verify })))))) (by decide +kernel); ⟨{ State.reset with sys.phase := .verify }, b, rfl, h⟩),
   ⟨{ State.reset with sys.phase := .selfTest }, {}, _, by decide +kernel, rfl⟩⟩

theorem witness_cadence_commands_run :
    (∃ (s : State), ∃ (r : Req), ∃ group, Admits (.cadGetGroup r group) s ∧ group < 16) ∧
    (∃ (s : State), ∃ (r : Req), ∃ loop, Admits (.cadGetLoop r loop) s ∧ loop < 64) ∧
    (∃ (s : State), ∃ (r : Req), ∃ loops, ∃ flags, Admits (.cadClearFlags r loops flags) s ∧ flags < 32) ∧
    (∃ (s : State), ∃ (r : Req), ∃ number, ∃ value, Admits (.cadSetReference r number value) s ∧ number < 32) ∧
    (∃ (s : State), ∃ (r : Req), ∃ group, Admits (.cadReleaseGroup r group) s ∧ group < 16 ∧ (Machine.group s group).kick = true) ∧
    (∃ (s : State), ∃ (r : Req), ∃ descriptor, ∃ offset, ∃ data, Admits (.cadStageDescriptor r descriptor offset data) s ∧
      descriptor < 64 ∧ offset % 4 = 0 ∧ offset + data.length ≤ 4096 ∧ commitWaits s = false) ∧
    (∃ (s : State), ∃ (r : Req), ∃ descriptor, ∃ offset, ∃ data, Admits (.cadStageDescriptor r descriptor offset data) s ∧
      128 ≤ descriptor ∧ descriptor < 144 ∧ offset % 4 = 0 ∧ offset + data.length ≤ 64 ∧ commitWaits s = false) ∧
    (∃ (s : State), ∃ (r : Req), ∃ group, Admits (.cadCommitGroup r group) s ∧ group < 16 ∧ cadVerdict (candidate s group) = none ∧
      (Machine.group s group).g = 0 ∧ groupInTransfer s group = false ∧ (Machine.group s group).commit = none) :=
  ⟨⟨bench 1, r0, 15, by decide +kernel⟩,
   ⟨bench 1, r0, 63, by decide +kernel⟩,
   ⟨bench 1, r0, 1, 31, by decide +kernel⟩,
   ⟨bench 1, r0, 31, -5, by decide +kernel⟩,
   ⟨{ bench 1 with cad.groups := List.replicate 16 { kick := true } }, r0, 15, by decide +kernel⟩,
   ⟨bench 1, r0, 63, 0, [1, 2, 3, 4], by decide +kernel⟩,
   ⟨bench 1, r0, 143, 60, [1, 2, 3, 4], by decide +kernel⟩,
   ⟨bench 1, r0, 15, by decide +kernel⟩⟩

theorem witness_cadence_rounding :
    (∃ (s : Nat), 0 < s) :=
  ⟨1, by decide +kernel⟩

theorem witness_chainring_commands_run :
    (∃ (s : State), ∃ (r : Req), ∃ ring, Admits (.chrGetRing r ring) s ∧ ring < 2) ∧
    (∃ (s : State), ∃ (r : Req), ∃ position, Admits (.chrGetStage r position) s ∧ posOk position = true) ∧
    (∃ (s : State), ∃ (r : Req), ∃ ring, Admits (.chrClearCounters r ring) s ∧ ring < 2) :=
  ⟨⟨bench 1, r0, 1, by decide +kernel⟩,
   ⟨bench 1, r0, 0x81, by decide +kernel⟩,
   ⟨bench 1, r0, 1, by decide +kernel⟩⟩

theorem witness_command_not_in_role :
    (∃ (c : Instr), ∃ (k : Cmd), ∃ (r : Req), ∃ (s : State), tableRow c = some (k, r) ∧ serves s r.ch = true ∧ k.fits = true ∧
      (tagOf (chan s r.ch) r.tag).used = false ∧ (tagOf (chan s r.ch) r.tag).kept = none ∧ opServed k s = true ∧ owned k s = false) :=
  ⟨.alcGetStatus r0, { op := 0x0201, own := .hub, reads := true }, r0, bench 2, by decide +kernel⟩

theorem witness_control_steps_run :
    (∃ (s : State), ∃ group, ∃ x, up s = true ∧ working s = true ∧ group < 16 ∧ groupUsed (Machine.group s group).desc = true ∧
      x = tickBegins group (onGroup group (fun t => { t with overRun := 0 }) s) ∧ (Machine.group x group).kick = true) ∧
    (∃ (s : State), ∃ group, ∃ x, ∃ y, up s = true ∧ working s = true ∧ group < 16 ∧ groupUsed (Machine.group s group).desc = true ∧
      x = tickBegins group (onGroup group (fun t => { t with overRun := 0 }) s) ∧ (Machine.group x group).kick = false ∧
        y = tickModes group (tickRestart group x) ∧ gSink (Machine.group y group).desc ≠ 3) ∧
    (∃ (s : State), ∃ group, ∃ x, ∃ y, up s = true ∧ working s = true ∧ group < 16 ∧ groupUsed (Machine.group s group).desc = true ∧
      x = tickBegins group (onGroup group (fun t => { t with overRun := 0 }) s) ∧ (Machine.group x group).kick = false ∧
        y = tickModes group (tickRestart group x) ∧ gSink (Machine.group y group).desc = 3) ∧
    (∃ (s : State), ∃ group, ∃ (completed : List Nat), ∃ x, ∃ y, up s = true ∧ working s = true ∧ group < 16 ∧
      groupUsed (Machine.group s group).desc = true ∧ (Machine.group s group).kick = false ∧
        x = setLate (lateGroup group) (onGroup group (fun t => { t with overruns := (t.overruns + 1) % 2 ^ 32, overRun := t.overRun + 1 }) (holdOver group (tickRestart group (tickBegins group s)))) ∧ y = (groupLoops x group).foldl (fun s i => if completed.contains i then s else setFlags i flOverrun s) x) ∧
    (∃ (s : State), ∃ group, group < 16 ∧ holdDue (Machine.group s group) = true) ∧
    (∃ (s : State), ∃ ring, up s = true ∧ ring < 2 ∧ ringEnabled s ring = true ∧ masters s = true ∧ (Machine.ring s ring).running = true ∧
      (Machine.ring s ring).off = false ∧ (Machine.ring s ring).frame = []) ∧
    (∃ (s : State), ∃ ring, ∃ line, ∃ head, up s = true ∧ ring < 2 ∧ ringEnabled s ring = true ∧ masters s = true ∧
      (Machine.ring s ring).running = true ∧ (Machine.ring s ring).off = false ∧ (Machine.ring s ring).frame ≠ [] ∧
        ringHead (ringSlots s ring) line = some head ∧ ownHead s ring head = true) ∧
    (∃ (s : State), ∃ ring, ∃ line, up s = true ∧ ring < 2 ∧ ringEnabled s ring = true ∧ masters s = true ∧
      (Machine.ring s ring).running = true ∧ (Machine.ring s ring).off = false ∧ (Machine.ring s ring).frame ≠ [] ∧
        ringHead (ringSlots s ring) line = none) ∧
    (∃ (s : State), ∃ ring, ∃ line, ∃ head, up s = true ∧ ring < 2 ∧ ringEnabled s ring = true ∧ masters s = true ∧
      (Machine.ring s ring).running = true ∧ (Machine.ring s ring).off = false ∧ (Machine.ring s ring).frame ≠ [] ∧
        ringHead (ringSlots s ring) line = some head ∧ ownHead s ring head = false) ∧
    (∃ (s : State), ∃ ring, ∃ line, ∃ head, up s = true ∧ ring < 2 ∧ ringEnabled s ring = true ∧ masters s = false ∧
      ringHead (ringSlots s ring) line = some head) ∧
    (∃ (s : State), ∃ position, stageDueLost (stage s (posIndex position)) = true) ∧
    (∃ (s : State), ∃ position, stageDuePresent (stage s (posIndex position)) = true) :=
  ⟨⟨withGroup (groupDesc 1) true, 15, _, by decide +kernel, by decide +kernel, by decide +kernel, by decide +kernel, rfl,
    by decide +kernel⟩,
   ⟨withGroup (groupDesc 1) false, 15, _, _, by decide +kernel, by decide +kernel, by decide +kernel, by decide +kernel, rfl,
     by decide +kernel, rfl, by decide +kernel⟩,
   ⟨withGroup (groupDesc 3) false, 15, _, _, by decide +kernel, by decide +kernel, by decide +kernel, by decide +kernel, rfl,
     by decide +kernel, rfl, by decide +kernel⟩,
   ⟨withGroup (groupDesc 1) false, 15, [], _, _, by decide +kernel, by decide +kernel, by decide +kernel, by decide +kernel,
     by decide +kernel, rfl, rfl⟩,
   ⟨{ bench 1 with cad.groups := List.replicate 16 { hold := true, holdUs := some 20000 } }, 15, by decide +kernel⟩,
   ⟨ringHub [], 1, by decide +kernel⟩,
   ⟨ringHub [1], 1, lineOf 129, headOf 129, by decide +kernel⟩,
   ⟨ringHub [1], 1, [], by decide +kernel⟩,
   ⟨ringHub [1], 1, lineOf 1, headOf 1, by decide +kernel⟩,
   ⟨{ pairPart 4 .standby with cfg.chain.enabled := [true, true] }, 1, lineOf 1, headOf 1, by decide +kernel⟩,
   ⟨{ hub with chr.stages := List.replicate 48 { state := 3, unclean := 3 } }, 0x98, by decide +kernel⟩,
   ⟨{ hub with chr.stages := List.replicate 48 { state := 1, clean := 3 } }, 0x98, by decide +kernel⟩⟩

theorem witness_credential_commands_run :
    (∃ (s : State), ∃ (r : Req), ∃ kind, ∃ slot, ∃ eph, ∃ sig, ∃ (k : KeyCopy), Admits (.sysOpenCredential r kind slot eph sig) s ∧
      winner s slot = some k ∧ k.state = 1 ∧ 1 ≤ kind ∧ kind ≤ 3 ∧ k.usage = credUsage kind ∧ bit (credStates kind) (lifecycle s) = true ∧
        sigOk sig (keyPublic k) (credSigned s kind slot r.ch eph) = true ∧ (chan (started r s) r.ch).creds.length < 4) ∧
    (∃ (s : State), ∃ (r : Req), ∃ kind, ∃ slot, ∃ eph, ∃ sig, ∃ (k : KeyCopy), Admits (.sysOpenCredential r kind slot eph sig) s ∧
      winner s slot = some k ∧ k.state = 1 ∧ 1 ≤ kind ∧ kind ≤ 3 ∧ k.usage = credUsage kind ∧ bit (credStates kind) (lifecycle s) = true ∧
        sigOk sig (keyPublic k) (credSigned s kind slot r.ch eph) = false) ∧
    (∃ (s : State), ∃ (r : Req), ∃ handle, Admits (.sysCloseCredential r handle) s ∧
      ((chan (started r s) r.ch).creds.any fun c => c.handle == handle) = true) :=
  ⟨⟨withKey 4 (publicKey 6 0x11) (bench 1), r0, 1, 4, List.replicate 56 5,
    { key := [9], msg := credSigned (withKey 4 (publicKey 6 0x11) (bench 1)) 1 4 0 (List.replicate 56 5) }, publicKey 6 0x11,
      by decide +kernel, by decide +kernel, by decide +kernel, by decide +kernel, by decide +kernel, by decide +kernel, by decide +kernel,
        sig_ok (by decide) rfl rfl, by decide +kernel⟩,
   ⟨withKey 4 (publicKey 6 0x11) (bench 1), r0, 1, 4, List.replicate 56 5, { key := [8], msg := [] }, publicKey 6 0x11, by decide +kernel⟩,
   ⟨bench 1, r0, 1, by decide +kernel⟩⟩

theorem witness_derailleur_commands_run :
    (∃ (s : State), ∃ (r : Req), Admits (.alcGetStatus r) s) ∧
    (∃ (s : State), ∃ (r : Req), ∃ first, ∃ count, ∃ rules, Admits (.alcSetRules r first count rules) s ∧ 1 ≤ count ∧ count ≤ 64 ∧
      first + count ≤ 256 ∧ s.alc.commit = none) ∧
    (∃ (s : State), ∃ (r : Req), ∃ first, ∃ count, Admits (.alcGetRules r 0 first count) s ∧ 1 ≤ count ∧ count ≤ 64 ∧ first + count ≤ 256) ∧
    (∃ (s : State), ∃ (r : Req), ∃ first, ∃ count, Admits (.alcGetRules r 1 first count) s ∧ 1 ≤ count ∧ count ≤ 64 ∧ first + count ≤ 256) ∧
    (∃ (s : State), ∃ (r : Req), Admits (.alcCommitRules r) s ∧ ruleTableOk (outlets s) (ruleTable s.alc.staging) = true ∧
      epochCost s.cfg (ruleTable s.alc.staging) ≤ 640000 ∧ s.alc.commit = none) ∧
    (∃ (s : State), ∃ (r : Req), ∃ imp, ∃ exp, ∃ validity, Admits (.alcSetSiteLimits r imp exp validity) s ∧ validity ≤ 3600) ∧
    (∃ (s : State), ∃ (r : Req), ∃ outlet, ∃ cls, Admits (.alcSetSessionClass r outlet cls) s ∧ 1 ≤ outlet ∧ outlet ≤ 12 ∧
      (outIn s outlet).session = true ∧ cls ≤ 7) ∧
    (∃ (s : State), ∃ (r : Req), Admits (.alcGetGrants r) s) ∧
    (∃ (s : State), ∃ (r : Req), ∃ outlet, Admits (.alcGetInputs r outlet) s ∧ outlet ∈ outlets s) ∧
    (∃ (s : State), ∃ (r : Req), Admits (.alcGetAssignment r) s) ∧
    (∃ (s : State), ∃ (r : Req), ∃ position, Admits (.alcSetStageService r position 0) s ∧ posOk position = true ∧
      posIndex position ∈ positions s ∧ (assignOf s (posIndex position)).phase = .idle) ∧
    (∃ (s : State), ∃ (r : Req), ∃ position, Admits (.alcSetStageService r position 1) s ∧ posOk position = true ∧
      posIndex position ∈ positions s ∧ (assignOf s (posIndex position)).phase = .idle) :=
  ⟨⟨hub, r0, by decide +kernel⟩,
   ⟨hub, r0, 192, 64, List.replicate 2048 0, by decide +kernel⟩,
   ⟨hub, r0, 192, 64, by decide +kernel⟩,
   ⟨hub, r0, 192, 64, by decide +kernel⟩,
   ⟨hub, r0, by decide +kernel⟩,
   ⟨hub, r0, -100, 100, 3600, by decide +kernel⟩,
   ⟨onOut 2 (fun o => { o with session := true }) hub, r0, 2, 7, by decide +kernel⟩,
   ⟨hub, r0, by decide +kernel⟩,
   ⟨hub, r0, 2, by decide +kernel⟩,
   ⟨hub, r0, by decide +kernel⟩,
   ⟨hub, r0, 1, by decide +kernel⟩,
   ⟨hub, r0, 2, by decide +kernel⟩⟩

theorem witness_derailleur_steps_run :
    (∃ (s : State), up s = true) ∧
    (∃ (s : State), 10 ≤ s.alc.lateRun) ∧
    (∃ (s : State), ∃ h, s.alc.host = some h ∧ h.2.2 ≤ s.alc.epoch) ∧
    (∃ (s : State), ∃ h, s.alc.host = some h ∧ s.alc.epoch < h.2.2) ∧
    (∃ (s : State), ∃ outlet, releaseDue s outlet = true ∧ kicked s = false) ∧
    (∃ (s : State), ∃ outlet, releaseDue s outlet = true ∧ kicked s = true) ∧
    (∃ (s : State), ∃ position, (assignOf s (posIndex position)).phase = .opening) ∧
    (∃ (s : State), ∃ position, (assignOf s (posIndex position)).phase = .closing) :=
  ⟨⟨hub, by decide +kernel⟩,
   ⟨{ hub with alc.lateRun := 10 }, by decide +kernel⟩,
   ⟨{ hub with alc.host := some (1, 2, 5), alc.epoch := 5 }, (1, 2, 5), by decide +kernel⟩,
   ⟨{ hub with alc.host := some (1, 2, 6), alc.epoch := 5 }, (1, 2, 6), by decide +kernel⟩,
   ⟨onOut 2 (fun o => { o with surplusEp := some 10000 }) hub, 2, by decide +kernel⟩,
   ⟨onOut 2 (fun o => { o with surplusEp := some 10000 }) { hub with sys.kicks := [{ code := 0x0601 }] }, 2, by decide +kernel⟩,
   ⟨{ hub with alc.assign := List.replicate 48 { phase := .opening } }, 0x98, by decide +kernel⟩,
   ⟨{ hub with alc.assign := List.replicate 48 { phase := .closing } }, 0x98, by decide +kernel⟩⟩

theorem witness_empty_queue_idles :
    (∃ (s : State), s.pending = []) :=
  ⟨bench 1, by decide +kernel⟩

theorem witness_heat_commands_run :
    (∃ (s : State), ∃ (r : Req), ∃ kind, ∃ index, Admits (.heatGetInput r kind index) s ∧ inputOk kind index = true) ∧
    (∃ (s : State), ∃ (r : Req), ∃ slot, Admits (.heatGetOutlet r slot) s ∧ slotOk s slot = true) ∧
    (∃ (s : State), ∃ (r : Req), ∃ first, ∃ count, Admits (.heatGetThresholds r first count) s ∧ 1 ≤ count ∧ first + count ≤ 64) ∧
    (∃ (s : State), ∃ (r : Req), ∃ kind, ∃ index, Admits (.heatAckSensor r kind index) s ∧ inputOk kind index = true ∧
      (inputAt s kind index).state = 3) ∧
    (∃ (s : State), ∃ (r : Req), Admits (.heatGetDie r) s) :=
  ⟨⟨bench 2, r0, 3, 2, by decide +kernel⟩,
   ⟨post, r0, 1, by decide +kernel⟩,
   ⟨bench 2, r0, 63, 1, by decide +kernel⟩,
   ⟨{ bench 2 with heat.out := [{}, {}, { hot.state := 3 }] }, r0, 3, 2, by decide +kernel⟩,
   ⟨bench 2, r0, by decide +kernel⟩⟩

theorem witness_heat_steps_run :
    (∃ (s : State), ∃ temps, ∃ freqs, ∃ due, ∃ x, ∃ y, up s = true ∧
      due = (inputsUsed s).filter (fun k => k.1 != 2 && inputDue s k.1 k.2) ∧
        x = due.foldl (fun s k => keepHist k.1 k.2 s) (convertInputs temps freqs due s) ∧
          y = ((thresholds x).filter (fun t => due.contains (thInput (thCfg x t)))).foldl (fun s t => evalThreshold t s) x) ∧
    (∃ (s : State), ∃ readings, ∃ x, ∃ thr, ∃ level, ∃ hot, up s = true ∧
      x = (List.range 8).foldl (fun s i => takeReading 2 i (nth readings i) (dieReading (nth s.heat.die i).last (nth s.heat.die i).period (nth readings i)) s) s ∧ thr = (x.heat.throttle.zip dieLevels).map (fun t => throttleStep x.cfg.dieHyst (junction x) t.2 t.1) ∧ level = ((thr.zipIdx.filter (fun t => t.1.state == 2)).map (fun t => t.2 + 1)).foldl max 0 ∧ hot = (x.heat.hotRun.zip x.heat.die).map (fun y => if 13500 ≤ y.2.value then y.1 + 1 else 0)) ∧
    (∃ (s : State), ∃ readings, ∃ (value : Nat → Int), s.sys.phase = .heatHold ∧ (∀ i < 8, dieFailed s i = false) ∧ (∀ i < 8,
      dieReading (nth s.nvHeat.prev i) 10 (nth readings i) = some (value i)) ∧ (∀ i < 8, value i < 10000)) ∧
    (∃ (s : State), ∃ readings, ∃ (value : Nat → Int), ∃ i, s.sys.phase = .heatHold ∧ i < 8 ∧ dieFailed s i = false ∧
      dieReading (nth s.nvHeat.prev i) 10 (nth readings i) = some (value i) ∧ 10000 ≤ value i) :=
  ⟨⟨bench 2, [], [], _, _, _, by decide +kernel, rfl, rfl, rfl⟩,
   ⟨bench 2, [], _, _, _, _, by decide +kernel, rfl, rfl, rfl, rfl⟩,
   ⟨{ State.reset with sys.phase := .heatHold }, List.replicate 8 (some 9999), fun _ => 9999, by decide +kernel⟩,
   ⟨{ State.reset with sys.phase := .heatHold }, List.replicate 8 (some 10000), fun _ => 10000, 7, by decide +kernel⟩⟩

theorem witness_key_commands_run :
    (∃ (s : State), ∃ (r : Req), ∃ slot, ∃ (w : KeyCopy), Admits (.keyGetSlot r slot) s ∧ slot < 256 ∧ winner s slot = some w) ∧
    (∃ (s : State), ∃ (r : Req), ∃ slot, Admits (.keyGetSlot r slot) s ∧ slot < 256 ∧ winner s slot = none) ∧
    (∃ (s : State), ∃ (r : Req), ∃ slot, ∃ attr, ∃ label, Admits (.keyGenerate r slot attr label) s ∧ 8 ≤ slot ∧ slot < 256 ∧
      writeDenied s slot attr.usage = false ∧ attrOk 0 attr = true ∧ attrFields attr = true ∧ writeBusy s slot = false ∧ attr.alg ≠ 0x20) ∧
    (∃ (s : State), ∃ (r : Req), ∃ slot, ∃ attr, ∃ label, Admits (.keyGenerate r slot attr label) s ∧ 8 ≤ slot ∧ slot < 256 ∧
      writeDenied s slot attr.usage = false ∧ attrOk 0 attr = true ∧ attrFields attr = true ∧ writeBusy s slot = false ∧ attr.alg = 0x20) ∧
    (∃ (s : State), ∃ (r : Req), ∃ slot, ∃ attr, ∃ label, ∃ data, Admits (.keyImport r slot attr label 0 1 data) s ∧ 8 ≤ slot ∧
      slot < 256 ∧ writeDenied s slot attr.usage = false ∧ attrOk 1 attr = true ∧ attrFields attr = true ∧ writeBusy s slot = false ∧
        data.length ≤ 4096 ∧ importLen attr.alg (importClear (started r s) r attr.alg data).length = true) ∧
    (∃ (s : State), ∃ (r : Req), ∃ slot, ∃ attr, ∃ label, ∃ offset, ∃ data, Admits (.keyImport r slot attr label offset 0 data) s ∧
      8 ≤ slot ∧ slot < 256 ∧ writeDenied s slot attr.usage = false ∧ attrOk 1 attr = true ∧ attrFields attr = true ∧
        writeBusy s slot = false ∧ (if offset = 0 then [] else importSoFar s r.ch slot).length = offset ∧ offset + data.length ≤ 4096) ∧
    (∃ (s : State), ∃ (r : Req), ∃ parent, ∃ child, ∃ attr, ∃ label, ∃ (p : KeyCopy), Admits (.keyDerive r parent child attr label) s ∧
      8 ≤ child ∧ child < 256 ∧ parent ≠ child ∧ invocation s parent (fun k => k.usage == useDerive && k.alg == 0x03) byKeyEngine true = none ∧ winner s parent = some p ∧ childOk s p attr = true ∧ writeDenied s child attr.usage = false ∧ attrOk 2 attr = true ∧ attrFields attr = true ∧ writeBusy s child = false ∧ attr.alg ≠ 0x20) ∧
    (∃ (s : State), ∃ (r : Req), ∃ slot, ∃ (w : KeyCopy), Admits (.keyRevoke r slot) s ∧ 8 ≤ slot ∧ slot < 256 ∧ winner s slot = some w ∧
      w.generation < 0xFFFFFFFE ∧ w.state = 1 ∧ writeBusy s slot = false) ∧
    (∃ (s : State), ∃ (r : Req), ∃ slot, Admits (.keyErase r slot) s ∧ 8 ≤ slot ∧ slot < 256 ∧ writeBusy s slot = false) ∧
    (∃ (s : State), ∃ (r : Req), ∃ slot, ∃ (k : KeyCopy), Admits (.keyExport r slot) s ∧ slot < 256 ∧ winner s slot = some k ∧
      k.state = 1 ∧ 0x10 ≤ k.alg) ∧
    (∃ (s : State), ∃ (r : Req), ∃ slot, ∃ (k : KeyCopy), ∃ (key : Bytes), Admits (.keyExport r slot) s ∧ slot < 256 ∧
      winner s slot = some k ∧ k.state = 1 ∧ k.alg < 0x10 ∧ keyExportable k = true ∧ (k.world = 1 → r.world = 1) ∧ authKey s r = some key) ∧
    (∃ (s : State), ∃ (r : Req), ∃ slot, ∃ digest, ∃ (k : KeyCopy), Admits (.keySign r slot digest) s ∧
      invocation s slot (fun k => k.usage == 0x0E && algSigns k.alg && keyPrivate k) r.ch (r.world == 1) = none ∧ winner s slot = some k ∧
        1 ≤ digest.length ∧ digest.length ≤ 64) ∧
    (∃ (s : State), ∃ (r : Req), ∃ nonce, ∃ (k : KeyCopy), Admits (.keyAttest r nonce) s ∧ winner s 1 = some k ∧ k.state = 1) ∧
    (∃ (s : State), ∃ (r : Req), ∃ which, ∃ offset, Admits (.keyGetCertificate r which offset) s ∧ which ≤ 1 ∧
      offset ≤ (Config.certificate which).length) :=
  ⟨⟨bench 1, r0, 255, {}, by decide +kernel⟩,
   ⟨{ bench 1 with slots := List.replicate 256 { a.readable := false, b.readable := false } }, r0, 255, by decide +kernel⟩,
   ⟨bench 1, r0, 8, { alg := 0x10, usage := 8, masters := 0x40, world := 1, lifecycles := 0xFE, flags := 0 }, List.replicate 32 0,
     by decide +kernel⟩,
   ⟨bench 1, r0, 255, { alg := 0x20, usage := 8, masters := 0x40, world := 1, lifecycles := 0xFE, flags := 0 }, List.replicate 32 0,
     by decide +kernel⟩,
   ⟨bench 1, r0, 255, { alg := 0x11, usage := 7, masters := 0x80, world := 1, lifecycles := 0xFE, flags := 0 }, List.replicate 32 0,
     List.replicate 97 4, by decide +kernel⟩,
   ⟨bench 1, r0, 255, { alg := 0x11, usage := 7, masters := 0x80, world := 1, lifecycles := 0xFE, flags := 0 }, List.replicate 32 0, 0,
     [1], by decide +kernel⟩,
   ⟨withKey 9 (key 1 3) (bench 1), r0, 9, 255, { alg := 1, usage := 0x0E, masters := 0x1F, world := 1, lifecycles := 0xFE, flags := 0 },
     List.replicate 32 0, key 1 3, by decide +kernel⟩,
   ⟨withKey 255 (key 7 0x11) (bench 1), r0, 255, key 7 0x11, by decide +kernel⟩,
   ⟨bench 1, r0, 8, by decide +kernel⟩,
   ⟨withKey 255 (key 7 0x11) (bench 1), r0, 255, key 7 0x11, by decide +kernel⟩,
   ⟨withKey 255 (key 7 1) (bench 1), r0, 255, key 7 1, [1], by decide +kernel⟩,
   ⟨withKey 8 (key 0x0E 0x10) (bench 1), r0, 8, List.replicate 64 0, key 0x0E 0x10, by decide +kernel⟩,
   ⟨withKey 1 (key 3 0x20) (bench 1), r0, List.replicate 32 0, key 3 0x20, by decide +kernel⟩,
   ⟨bench 1, r0, 1, 0, by decide +kernel⟩⟩

theorem witness_key_write_generations :
    (∃ (n : Nat), ∃ (k : KeySlot), ∃ w, slotWinner n k = some w) ∧
    (∃ (n : Nat), ∃ (k : KeySlot), slotWinner n k = none) :=
  ⟨⟨255, {}, {}, by decide +kernel⟩,
   ⟨255, { a.readable := false, b.readable := false }, by decide +kernel⟩⟩

theorem witness_kickstand_entry :
    (∃ (cause : Nat), ∃ (s : State), hasKick s cause = true) ∧
    (∃ (cause : Nat), ∃ (s : State), hasKick s cause = false) :=
  ⟨⟨0x0302, { bench 1 with sys.kicks := [{ code := 0x0302 }] }, by decide +kernel⟩,
   ⟨0x0302, bench 1, by decide +kernel⟩⟩

theorem witness_launched_references :
    (∃ (r : Nat), ∃ i, r < 2 ∧ i < 48) ∧
    (∃ (r : Nat), ∃ (s : State), r < 2 ∧ kicked s = true) ∧
    (∃ (r : Nat), ∃ (s : State), r < 2 ∧ r < s.chr.rings.length) ∧
    (∃ (r : Nat), ∃ (s : State), r < 2 ∧ mayEnergise s = false) ∧
    (∃ (r : Nat), ∃ (s : State), r < 2 ∧ kicked s = false ∧ mayEnergise s = true ∧ (∀ gi, gi < 16 → ceilBound s gi = false)) :=
  ⟨⟨1, 47, by decide +kernel⟩,
   ⟨1, { bench 1 with sys.kicks := [{ code := 0x0601 }] }, by decide +kernel⟩,
   ⟨1, hub, by decide +kernel⟩,
   ⟨1, inState 1 (bench 1), by decide +kernel⟩,
   ⟨1, bench 1, by decide +kernel⟩⟩

theorem witness_load_commands_run :
    (∃ (s : State), ∃ (r : Req), ∃ channel, Admits (.ldcGetChannel r channel) s ∧ channel < 24) ∧
    (∃ (s : State), ∃ (r : Req), ∃ channel, Admits (.ldcSetChannel r channel 1) s ∧ kicked s = false ∧ loadOwned s channel = false ∧
      channel < 24 ∧ loadUsed s channel = true) ∧
    (∃ (s : State), ∃ (r : Req), ∃ channel, Admits (.ldcSetChannel r channel 0) s ∧ loadOwned s channel = false ∧ channel < 24) ∧
    (∃ (s : State), ∃ (r : Req), ∃ generator, ∃ duty, Admits (.ldcSetDuty r generator duty) s ∧ (duty = 0 ∨ kicked s = false) ∧
      generator < 8 ∧ duty ≤ 1024 ∧ gnEnabled (genCfg s generator) = true ∧ genGroup s generator = none) ∧
    (∃ (s : State), ∃ (r : Req), ∃ mask, Admits (.ldcClearFault r mask) s ∧ mask < 2 ^ 24 ∧ (∀ c ∈ maskList mask 24,
      loadOwned s c = false) ∧ (∀ c ∈ maskList mask 24, (load s c).latch = false)) ∧
    (∃ (s : State), ∃ (r : Req), Admits (.ldcGetPackage r) s) :=
  ⟨⟨bench 1, r0, 23, by decide +kernel⟩,
   ⟨{ bench 1 with cfg.loads := [[23, 1]] }, r0, 23, by decide +kernel⟩,
   ⟨bench 1, r0, 23, by decide +kernel⟩,
   ⟨{ bench 1 with cfg.gens := [[7, 1]] }, r0, 7, 1024, by decide +kernel⟩,
   ⟨{ bench 1 with ldc.chans := List.replicate 24 { latch := false } }, r0, 2 ^ 24 - 1, by decide +kernel⟩,
   ⟨bench 1, r0, by decide +kernel⟩⟩

theorem witness_load_steps_run :
    (∃ (s : State), ∃ vload, ∃ readings, ∃ x, up s = true ∧ x = (List.range 24).foldl (evalLoad readings) { s with ldc.vload := vload }) ∧
    (∃ (s : State), ∃ channel, up s = true ∧ (load s channel).on = true) ∧
    (∃ (s : State), ∃ channel, up s = true ∧ loadUsed s channel = true ∧ ((load s channel).on = true ∨ (load s channel).latch = false)) ∧
    (∃ (s : State), up s = true) ∧
    (∃ (s : State), ∃ openUs, ∃ closeUs, up s = true ∧ s.ldc.tripped = true ∧ 4000 ≤ s.ldc.fed ∧ 4000 ≤ openUs ∧ openUs < 4500 ∧
      closeUs ≤ 250) ∧
    (∃ (s : State), ∃ openUs, ∃ closeUs, up s = true ∧ s.ldc.tripped = true ∧ 4000 ≤ s.ldc.fed ∧
      (openUs < 4000 ∨ 4500 ≤ openUs ∨ 250 < closeUs)) ∧
    (∃ (s : State), up s = true ∧ s.env.vload = false) ∧
    (∃ (s : State), up s = true ∧ s.env.vload = true) :=
  ⟨⟨bench 1, 24000, [], _, by decide +kernel, rfl⟩,
   ⟨{ bench 1 with ldc.chans := List.replicate 24 { on := true }, cfg.loads := [[23, 1]] }, 23, by decide +kernel⟩,
   ⟨{ bench 1 with ldc.chans := List.replicate 24 { on := true }, cfg.loads := [[23, 1]] }, 23, by decide +kernel⟩,
   ⟨bench 1, by decide +kernel⟩,
   ⟨{ bench 1 with ldc.tripped := true, ldc.fed := 4000 }, 4499, 250, by decide +kernel⟩,
   ⟨{ bench 1 with ldc.tripped := true, ldc.fed := 4000 }, 4500, 250, by decide +kernel⟩,
   ⟨{ bench 1 with env.vload := false }, by decide +kernel⟩,
   ⟨bench 1, by decide +kernel⟩⟩

theorem witness_metering_commands_run :
    (∃ (s : State), ∃ (r : Req), ∃ point, Admits (.mtrGetRegisters r point) s ∧ pointArg point = true ∧
      holdsPoint s.sys.role s.sys.nodeStrap point = true) ∧
    (∃ (s : State), ∃ (r : Req), ∃ point, Admits (.mtrGetPoint r point) s ∧ pointArg point = true ∧
      holdsPoint s.sys.role s.sys.nodeStrap point = true) ∧
    (∃ (s : State), ∃ (r : Req), ∃ wall, Admits (.mtrSetWallTime r 0 wall) s ∧ legalFull s = false ∧ legalPlace s = true) ∧
    (∃ (s : State), ∃ (r : Req), ∃ wall, Admits (.mtrSetWallTime r 1 wall) s ∧ (1000 * (wall - s.env.wall) - s.env.wallMs).natAbs ≤ 2000) ∧
    (∃ (s : State), ∃ (r : Req), ∃ kind, ∃ index, ∃ block, Admits (.mtrWriteParameters r kind index block) s ∧ legalHeld s < 7936 ∧
      legalPlace s = true ∧ blockOk kind index = true ∧ (changesSlots s.nvMtr kind block && 0 < ringUsed s) = false) ∧
    (∃ (s : State), ∃ (r : Req), Admits (.mtrSealParameters r) s ∧ legalFull s = false ∧ legalPlace s = true ∧
      parametersOk s.nvMtr = true) ∧
    (∃ (s : State), ∃ (r : Req), Admits (.mtrGetLegalId r) s) ∧
    (∃ (s : State), ∃ (r : Req), ∃ kind, ∃ index, Admits (.mtrReadParameters r kind index) s ∧ blockOk kind index = true) :=
  ⟨⟨bench 1, r0, 6, by decide +kernel⟩,
   ⟨bench 1, r0, 6, by decide +kernel⟩,
   ⟨bench 1, r0, 5, by decide +kernel⟩,
   ⟨bench 1, r0, 2, by decide +kernel⟩,
   ⟨bench 1, r0, 3, 10, List.replicate 64 0, by decide +kernel⟩,
   ⟨bench 1, r0, by decide +kernel⟩,
   ⟨bench 1, r0, by decide +kernel⟩,
   ⟨bench 1, r0, 2, 39, by decide +kernel⟩⟩

theorem witness_metering_records_run :
    (∃ (s : State), ∃ (r : Req), ∃ mseq, ∃ (x : MRec), Admits (.mtrGetRecord r mseq) s ∧ mseqHeld s mseq = true ∧
      recordOf s mseq = some x ∧ x.bad = false) ∧
    (∃ (s : State), ∃ (r : Req), ∃ mseq, ∃ (x : MRec), Admits (.mtrGetRecord r mseq) s ∧ mseqHeld s mseq = true ∧
      recordOf s mseq = some x ∧ x.bad = true) ∧
    (∃ (s : State), ∃ (r : Req), ∃ mseq, ∃ format, ∃ offset, ∃ (x : MRec), Admits (.mtrRenderRecord r mseq format offset) s ∧
      renderKeys s format = none ∧ format < 2 ∧ mseqHeld s mseq = true ∧ recordOf s mseq = some x ∧ nth s.mtr.rendered r.ch = none) ∧
    (∃ (s : State), ∃ (r : Req), ∃ mseq, ∃ format, ∃ offset, ∃ (x : Bytes), Admits (.mtrRenderRecord r mseq format offset) s ∧
      renderKeys s format = none ∧ format < 2 ∧ mseqHeld s mseq = true ∧ nth s.mtr.rendered r.ch = some (mseq, format, x) ∧
        offset ≤ x.length) ∧
    (∃ (s : State), ∃ (r : Req), ∃ mseq, ∃ format, ∃ offset, ∃ (x : MRec), ∃ m, ∃ f, ∃ (b : Bytes),
      Admits (.mtrRenderRecord r mseq format offset) s ∧ renderKeys s format = none ∧ format < 2 ∧ mseqHeld s mseq = true ∧
        recordOf s mseq = some x ∧ nth s.mtr.rendered r.ch = some (m, f, b) ∧ (m ≠ mseq ∨ f ≠ format)) ∧
    (∃ (s : State), ∃ (r : Req), ∃ mseq, Admits (.mtrAckRecords r mseq) s ∧ s.nvMtr.tail ≤ mseq ∧ mseq < s.nvMtr.head) :=
  ⟨⟨withRecord record1 (bench 1), r0, 1, record1, by decide +kernel⟩,
   ⟨withRecord { record1 with bad := true } (bench 1), r0, 1, { record1 with bad := true }, by decide +kernel⟩,
   ⟨withKey 0 (key 8 0x10) (withRecord record1 (bench 1)), r0, 1, 0, 0, record1, by decide +kernel⟩,
   ⟨{ withKey 0 (key 8 0x10) (withRecord record1 (bench 1)) with mtr.rendered := [some (1, 0, [1, 2]), none, none, none] }, r0, 1, 0, 2,
     [1, 2], by decide +kernel⟩,
   ⟨{ withKey 0 (key 8 0x10) (withRecord record1 (bench 1)) with mtr.rendered := [some (1, 1, [1, 2]), none, none, none] }, r0, 1, 0, 2,
     record1, 1, 1, [1, 2], by decide +kernel⟩,
   ⟨withRecord record1 (bench 1), r0, 1, by decide +kernel⟩⟩

theorem witness_metering_steps_run :
    (∃ (s : State), s.mtr.running = true) ∧
    (∃ (s : State), ∃ channel, up s = true ∧ channelOwned s channel = true ∧ (mchan s channel).faulted = false) ∧
    (∃ (s : State), ∃ channel, up s = true ∧ channelOwned s channel = true ∧ (mchan s channel).faulted = true) ∧
    (∃ (s : State), ∃ point, up s = true ∧ pointOn s point = true) ∧
    (∃ (s : State), outOfReset s = true) ∧
    (∃ (s : State), ∃ point, up s = true ∧ intervalDue s point = true) ∧
    (∃ (s : State), up s = true) ∧
    (∃ (s : State), ∃ output, up s = true ∧ ownsPulses s = true ∧ output < 2 ∧ (nth s.mtr.pulses output).high = false ∧
      0 < (nth s.mtr.pulses output).waiting) :=
  ⟨⟨{ bench 1 with mtr.running := true }, by decide +kernel⟩,
   ⟨bench 1, 39, by decide +kernel⟩,
   ⟨{ bench 1 with mtr.chans := List.replicate 40 { faulted := true } }, 39, by decide +kernel⟩,
   ⟨{ bench 1 with nvMtr.points := List.replicate 11 [0, 1] }, 6, by decide +kernel⟩,
   ⟨bench 1, by decide +kernel⟩,
   ⟨{ bench 1 with mtr.running := true, mtr.points := List.replicate 11 { interval := some {} } }, 10, by decide +kernel⟩,
   ⟨bench 1, by decide +kernel⟩,
   ⟨{ bench 2 with mtr.pulses := [{ waiting := 1 }, { waiting := 1 }] }, 1, by decide +kernel⟩⟩

theorem witness_mirrors_recover_energy :
    (∃ (m1 m2 : Nat), m1 ≤ m2 ∧ m2 / 1000 < 2 ^ 48) :=
  ⟨1000, 4294967296001, by decide +kernel⟩

theorem witness_only_admitted_commands_act :
    (∃ (c : Instr), ∃ (k : Cmd), ∃ (r : Req), ∃ (s : State), tableRow c = some (k, r) ∧ ¬Admits c s) :=
  ⟨.alcGetStatus r0, { op := 0x0201, own := .hub, reads := true }, r0, bench 2, by decide +kernel⟩

theorem witness_outlet_commands_run :
    (∃ (s : State), ∃ (r : Req), ∃ slot, Admits (.outGetLink r slot) s ∧ slotOk s slot = true) ∧
    (∃ (s : State), ∃ (r : Req), ∃ slot, Admits (.outGetLinkStats r slot) s ∧ slotOk s slot = true) ∧
    (∃ (s : State), ∃ (r : Req), ∃ slot, Admits (.outClearLinkStats r slot) s ∧ slotOk s slot = true) ∧
    (∃ (s : State), ∃ (r : Req), ∃ slot, Admits (.outSetPilotTest r slot 255) s ∧ localSlot s slot = true ∧ inSession s slot = false) ∧
    (∃ (s : State), ∃ (r : Req), ∃ slot, ∃ drive, Admits (.outSetPilotTest r slot drive) s ∧ localSlot s slot = true ∧
      inSession s slot = false ∧ drive < 4 ∧ linkType s slot ≠ lkMcs) ∧
    (∃ (s : State), ∃ (r : Req), ∃ slot, ∃ drive, Admits (.outSetPilotTest r slot drive) s ∧ localSlot s slot = true ∧
      inSession s slot = false ∧ (drive = driveX1 ∨ drive = driveOff) ∧ linkType s slot = lkMcs) ∧
    (∃ (s : State), ∃ (r : Req), ∃ slot, Admits (.outGetSession r slot) s ∧ slotOk s slot = true) ∧
    (∃ (s : State), ∃ (r : Req), ∃ slot, ∃ decision, ∃ cls, ∃ validity, ∃ ident,
      Admits (.outAuthorise r slot decision cls validity ident) s ∧ localSlot s slot = true ∧ decision ≤ 1 ∧ (cls ≤ 7 ∨ cls = 255) ∧
        validity ≤ 3600 ∧ 1 ≤ validity ∧ ident.length ≤ 64) ∧
    (∃ (s : State), ∃ (r : Req), ∃ slot, ∃ decision, ∃ cls, ∃ ident, Admits (.outAuthorise r slot decision cls 0 ident) s ∧
      localSlot s slot = true ∧ decision ≤ 1 ∧ (cls ≤ 7 ∨ cls = 255) ∧ ident.length ≤ 64 ∧ (ses s slot).state = 3 ∧
        (ses s slot).waiting = true) ∧
    (∃ (s : State), ∃ (r : Req), ∃ slot, Admits (.outStopSession r slot) s ∧ localSlot s slot = true ∧ inSession s slot = true) ∧
    (∃ (s : State), ∃ (r : Req), ∃ slot, Admits (.outStopSession r slot) s ∧ localSlot s slot = true ∧ inSession s slot = false) ∧
    (∃ (s : State), ∃ (r : Req), ∃ slot, ∃ mode, Admits (.outSetAvailability r slot mode) s ∧ localSlot s slot = true ∧ mode ≤ 2) ∧
    (∃ (s : State), ∃ (r : Req), ∃ slot, Admits (.outClearWeld r slot) s ∧ localSlot s slot = true ∧ nth s.nvOut.weld slot = true ∧
      connected s slot = false) ∧
    (∃ (s : State), ∃ (r : Req), ∃ slot, Admits (.outGetChecks r slot) s ∧ slotOk s slot = true) ∧
    (∃ (s : State), ∃ (r : Req), ∃ slot, Admits (.outRenegotiate r slot) s ∧ localSlot s slot = true ∧ (ses s slot).state = 8 ∧
      renegotiates s slot = true ∧ renegFree s slot = true) :=
  ⟨⟨post, r0, 1, by decide +kernel⟩,
   ⟨post, r0, 1, by decide +kernel⟩,
   ⟨post, r0, 1, by decide +kernel⟩,
   ⟨post, r0, 1, by decide +kernel⟩,
   ⟨post, r0, 1, 3, by decide +kernel⟩,
   ⟨{ post with cfg.links := [[0, 2], [1, 2]] }, r0, 1, driveOff, by decide +kernel⟩,
   ⟨post, r0, 1, by decide +kernel⟩,
   ⟨post, r0, 1, 1, 255, 3600, [], by decide +kernel⟩,
   ⟨onSes 0 (fun x => { x with state := 3, waiting := true }) post, r0, 0, 1, 7, [], by decide +kernel⟩,
   ⟨inSes 2, r0, 0, by decide +kernel⟩,
   ⟨inSes 1, r0, 0, by decide +kernel⟩,
   ⟨post, r0, 1, 2, by decide +kernel⟩,
   ⟨{ post with nvOut.weld := [true, true, true] }, r0, 1, by decide +kernel⟩,
   ⟨post, r0, 1, by decide +kernel⟩,
   ⟨onLink 0 (fun l => { l with protocol := 3 }) (inSes 8), r0, 0, by decide +kernel⟩⟩

theorem witness_pair_commands_run :
    (∃ (s : State), ∃ (r : Req), Admits (.tdmGetStatus r) s) ∧
    (∃ (s : State), ∃ (r : Req), Admits (.tdmSwitchOver r) s ∧ s.tdm.state = .active ∧ s.tdm.switchPending = false ∧
      s.tdm.switchSent = false) ∧
    (∃ (s : State), ∃ (r : Req), Admits (.tdmGetPeloton r) s) :=
  ⟨⟨bench 4, r0, by decide +kernel⟩,
   ⟨{ bench 4 with tdm.state := .active }, r0, by decide +kernel⟩,
   ⟨bench 6, r0, by decide +kernel⟩⟩

theorem witness_pair_steps_run :
    (∃ (s : State), paired s = true ∧ s.tdm.heartbeat = true) ∧
    (∃ (s : State), mayClaim s = true) ∧
    (∃ (s : State), s.tdm.guardRuns = true ∧ s.tdm.authI = false) ∧
    (∃ (s : State), ∃ partnerHigh, s.tdm.guardRuns = true ∧ (partnerHigh = true ∨ s.tdm.authI = true) ∧ s.sys.role = 5) ∧
    (∃ (s : State), ∃ partnerHigh, s.tdm.guardRuns = true ∧ (partnerHigh = true ∨ s.tdm.authI = true) ∧ s.sys.role ≠ 5) ∧
    (∃ (s : State), mayClaim s = true ∧ s.sys.live = true ∧ s.tdm.state = .syncing) ∧
    (∃ (s : State), paired s = true ∧ holds s = true) ∧
    (∃ (s : State), ∃ x, paired s = true ∧ s.tdm.authO = false ∧ s.tdm.state = .standby ∧
      x = { s with tdm.authI := false, tdm.heartbeat := true }) ∧
    (∃ (s : State), ∃ x, paired s = true ∧ s.tdm.authO = false ∧ s.tdm.state = .standby ∧
      x = raiseIf s.tdm.heartbeat evTdmPartnerLost { s with tdm.authI := false, tdm.heartbeat := false } ∧ mayClaim x = true) ∧
    (∃ (s : State), ∃ heartbeat, ∃ x, paired s = true ∧ s.tdm.authO = true ∧ s.tdm.guardRuns = false ∧ holds s = false ∧
      x = raiseIf (s.tdm.heartbeat && !heartbeat) evTdmPartnerLost { s with tdm.authI := false, tdm.heartbeat := heartbeat }) ∧
    (∃ (s : State), paired s = true) ∧
    (∃ (s : State), paired s = true ∧ s.tdm.state = .fenced) ∧
    (∃ (s : State), ∃ (frame : ShadowFrame), up s = true ∧ shadows s = true ∧ shadowGood s frame = true) ∧
    (∃ (s : State), ∃ (frame : ShadowFrame), up s = true ∧ shadows s = true ∧ shadowGood s frame = false ∧ frame.crcOk = false) ∧
    (∃ (s : State), ∃ (frame : ShadowFrame), up s = true ∧ shadows s = true ∧ shadowGood s frame = false ∧ frame.crcOk = true) ∧
    (∃ (s : State), up s = true ∧ paired s = true ∧ s.tdm.state = .standby) ∧
    (∃ (s : State), up s = true ∧ paired s = true ∧ s.tdm.state = .active) ∧
    (∃ (s : State), up s = true ∧ shadows s = true) ∧
    (∃ (s : State), up s = true ∧ paired s = true ∧ s.tdm.state = .alone) ∧
    (∃ (s : State), up s = true ∧ paired s = true ∧ s.tdm.state ≠ .alone) ∧
    (∃ (s : State), paired s = true ∧ holds s = true ∧ s.tdm.switchSent = true) ∧
    (∃ (s : State), ∃ slot, ∃ (frame : Bytes), up s = true ∧ s.sys.role = 6 ∧ slot < 4 ∧ slot ≠ s.sys.nodeStrap ∧
      pfGood slot frame = true) ∧
    (∃ (s : State), ∃ slot, ∃ (frame : Bytes), up s = true ∧ s.sys.role = 6 ∧ slot < 4 ∧ slot ≠ s.sys.nodeStrap ∧
      pfGood slot frame = false) ∧
    (∃ (s : State), ∃ member, up s = true ∧ s.sys.role = 6 ∧ member ≠ s.sys.nodeStrap ∧ (Machine.member s member).state = 1) ∧
    (∃ (s : State), up s = true ∧ s.sys.role = 6 ∧ s.sys.nodeStrap ≠ 0 ∧ s.plt.syncLost = false) :=
  ⟨⟨{ pairPart 4 .active with tdm.heartbeat := true }, by decide +kernel⟩,
   ⟨pairPart 5 .standby, by decide +kernel⟩,
   ⟨{ pairPart 4 .syncing with tdm.guardRuns := true }, by decide +kernel⟩,
   ⟨{ pairPart 5 .standby with tdm.guardRuns := true }, true, by decide +kernel⟩,
   ⟨{ pairPart 4 .standby with tdm.guardRuns := true, tdm.authI := true }, false, by decide +kernel⟩,
   ⟨pairPart 4 .syncing, by decide +kernel⟩,
   ⟨pairPart 4 .active, by decide +kernel⟩,
   ⟨pairPart 5 .standby, _, by decide +kernel, by decide +kernel, by decide +kernel, rfl⟩,
   ⟨pairPart 5 .standby, _, by decide +kernel, by decide +kernel, by decide +kernel, rfl, by decide +kernel⟩,
   ⟨{ pairPart 5 .standby with tdm.authO := true }, true, _, by decide +kernel, by decide +kernel, by decide +kernel, by decide +kernel,
     rfl⟩,
   ⟨pairPart 4 .active, by decide +kernel⟩,
   ⟨pairPart 5 .fenced, by decide +kernel⟩,
   ⟨pairPart 5 .standby, { digest := List.replicate 32 0 }, by decide +kernel⟩,
   ⟨pairPart 5 .standby, { crcOk := false }, by decide +kernel⟩,
   ⟨pairPart 5 .standby, { digest := [1] }, by decide +kernel⟩,
   ⟨pairPart 5 .standby, by decide +kernel⟩,
   ⟨pairPart 4 .active, by decide +kernel⟩,
   ⟨pairPart 5 .standby, by decide +kernel⟩,
   ⟨pairPart 4 .alone, by decide +kernel⟩,
   ⟨pairPart 4 .active, by decide +kernel⟩,
   ⟨{ pairPart 4 .active with tdm.switchSent := true }, by decide +kernel⟩,
   ⟨bench 6, 1, pelotonFrame1, by decide +kernel, by decide +kernel, by decide +kernel, by decide +kernel, peloton_good⟩,
   ⟨bench 6, 1, [1], by decide +kernel⟩,
   ⟨{ bench 6 with plt.members := List.replicate 4 { state := 1 } }, 3, by decide +kernel⟩,
   ⟨{ bench 6 with sys.nodeStrap := 3 }, by decide +kernel⟩⟩

theorem witness_rate_limit_entries :
    (∃ (c : ConfigImage), ∃ (b : Bytes), b ∈ c.limits ∧ cadVerdict (imageCadence c) ≠ some stNotInRole ∧
      (g16 b 0 / 4096 = 1 ∨ g16 b 0 / 4096 = 0 ∨ 5 ≤ g16 b 0 / 4096 ∨ g8 b 2 = 0 ∨ g16 b 4 = 0 ∨ 3600 < g16 b 4 ∨ g8 b 3 ≠ 0 ∨ allZero (slice b 6 2) = false ∨ 2 ≤ (c.limits.filter fun x => g16 x 0 == g16 b 0).length)) ∧
    (∃ (s : State), ∃ (code source : Nat), (∀ b ∈ s.cfg.limits, g16 b 0 ≠ code)) :=
  ⟨⟨{ limits := [[1, 0x11, 1, 0, 1, 0, 0, 0]] }, [1, 0x11, 1, 0, 1, 0, 0, 0], by decide +kernel⟩,
   ⟨bench 1, 0x4101, 1, by decide +kernel⟩⟩

theorem witness_recorder_commands_run :
    (∃ (s : State), ∃ (r : Req), Admits (.recGetInfo r) s) ∧
    (∃ (s : State), ∃ (r : Req), ∃ part, ∃ start, ∃ limit, ∃ count, ∃ (within : List Record),
      Admits (.recRead r part start limit count) s ∧ 1 ≤ part ∧ part ≤ 4 ∧ 1 ≤ count ∧ count ≤ 62 ∧
        within = (partRecords s part).filter (fun x => start ≤ x.pidx && x.seq ≤ limit)) ∧
    (∃ (s : State), ∃ (r : Req), Admits (.recGetLimits r) s) ∧
    (∃ (s : State), ∃ (r : Req), Admits (.recGetChallenge r) s) ∧
    (∃ (s : State), ∃ (r : Req), ∃ part, ∃ limit, ∃ kind, ∃ sig, ∃ (x : Nat × Bytes), Admits (.recClear r part limit kind sig) s ∧
      kind ≤ 1 ∧ 1 ≤ part ∧ part ≤ 4 ∧ clearAuthority (started r s) r part limit kind sig = some x ∧ (part = 1 → x.1 = 3) ∧
        clearState s part = true ∧ limit = (Machine.part s part).newest ∧ s.recd.clear = none) ∧
    (∃ (s : State), ∃ (r : Req), ∃ note, Admits (.recWriteNote r note) s ∧ hasPlace 4 s = true) :=
  ⟨⟨bench 1, r0, by decide +kernel⟩,
   ⟨bench 1, r0, 4, 0, 5, 62, _, by decide +kernel, by decide +kernel, by decide +kernel, by decide +kernel, by decide +kernel, rfl⟩,
   ⟨bench 1, r0, by decide +kernel⟩,
   ⟨bench 1, r0, by decide +kernel⟩,
   ⟨{ withKey 4 (key 6 0x11) (bench 1) with nvRec.parts := [{}, {}, {}, { newest := 9 }] }, r0, 4, 9, 0, { key := [], msg := [] }, _,
     by decide +kernel, by decide +kernel, by decide +kernel, by decide +kernel, rfl, by decide, by decide +kernel⟩,
   ⟨bench 1, r0, List.replicate 22 0, by decide +kernel⟩⟩

theorem witness_recorder_steps_run :
    (∃ (s : State), ∃ code, (s.recd.windows.any fun w => w.code == code && w.start + w.length ≤ s.nv.opSeconds) = true) ∧
    (∃ (s : State), up s = true) :=
  ⟨⟨{ bench 1 with recd.windows := [{ code := 0x4101, start := 0, length := 1, limit := 1, seen := 1 }], nv.opSeconds := 1 }, 0x4101,
    by decide +kernel⟩,
   ⟨bench 1, by decide +kernel⟩⟩

theorem witness_register_window_runs :
    (∃ (s : State), ∃ ch, ∃ (value : Word), windowAnswers s = true ∧ ch < 4 ∧ prodAccepted (chan s ch) (value.toNat % 64) = true) ∧
    (∃ (s : State), ∃ ch, ∃ (value : Word), windowAnswers s = true ∧ ch < 4 ∧ prodAccepted (chan s ch) (value.toNat % 64) = false) ∧
    (∃ (s : State), ∃ ch, ∃ (value : Word), windowAnswers s = true ∧ ch < 4 ∧ consAccepted (chan s ch) (value.toNat % 64) = true) ∧
    (∃ (s : State), ∃ ch, ∃ (value : Word), windowAnswers s = true ∧ ch < 4 ∧ consAccepted (chan s ch) (value.toNat % 64) = false) ∧
    (∃ (s : State), ∃ ch, windowAnswers s = true ∧ ch < 4) ∧
    (∃ (s : State), windowAnswers s = true) ∧
    (∃ (s : State), ∃ m, windowAnswers s = true ∧ m < 4) ∧
    (∃ (s : State), ∃ address, ∃ (data : Bytes), ∃ reg, windowAnswers s = true ∧ address < 0x1000 ∧ address % 4 = 0 ∧ data.length = 4 ∧
      regAt address = some reg) ∧
    (∃ (s : State), ∃ address, ∃ (data : Bytes), windowAnswers s = true ∧ address < 0x1000 ∧ regAt (address / 4 * 4) = none ∧
      data.length = 1) ∧
    (∃ (s : State), ∃ address, ∃ count, windowAnswers s = true ∧ address < 0x1000 ∧ regAt (address / 4 * 4) = none ∧ count = 1) :=
  ⟨⟨bench 1, 3, 32, by decide +kernel⟩,
   ⟨bench 1, 3, 33, by decide +kernel⟩,
   ⟨onChan 3 (fun c => { c with rspProd := 5 }) (bench 1), 3, 5, by decide +kernel⟩,
   ⟨bench 1, 3, 1, by decide +kernel⟩,
   ⟨bench 1, 3, by decide +kernel⟩,
   ⟨bench 1, by decide +kernel⟩,
   ⟨bench 1, 3, by decide +kernel⟩,
   ⟨bench 1, 0x12C, [1, 2, 3, 4], _, by decide +kernel, by decide +kernel, by decide +kernel, by decide +kernel, rfl⟩,
   ⟨bench 1, 0xFFF, [1], by decide +kernel⟩,
   ⟨bench 1, 0xFFF, 1, by decide +kernel⟩⟩

theorem witness_release_leaves_kickstand :
    (∃ (r : Req), ∃ (s : State), kicked s = true ∧ Admits (.sysReleaseKickstand r) s) :=
  ⟨r0, { bench 1 with sys.kicks := [{ code := 0x0302 }] }, by decide +kernel⟩

theorem witness_request_reading_runs :
    (∃ (s : State), ∃ ch, ∃ f, ∃ (c : State → Res), nextFrame s = some (ch, f) ∧ magicOk f = true ∧ crcOk f = true ∧ g16 f.head 8 ≤ 4064 ∧
      opInService (consume ch s) (frameOp f) = true ∧ commandOf (frameOp f) (frameReq (consume ch s) ch f) f.payload = some c) ∧
    (∃ (s : State), ∃ ch, ∃ f, nextFrame s = some (ch, f) ∧ magicOk f = true ∧ crcOk f = true ∧ 4064 < g16 f.head 8) ∧
    (∃ (s : State), ∃ ch, ∃ f, nextFrame s = some (ch, f) ∧ magicOk f = false ∧ (chan s ch).binding = 0) ∧
    (∃ (s : State), ∃ ch, ∃ f, nextFrame s = some (ch, f) ∧ magicOk f = true ∧ crcOk f = false) ∧
    (∃ (s : State), ∃ ch, ∃ f, nextFrame s = some (ch, f) ∧ magicOk f = true ∧ crcOk f = true ∧ g16 f.head 8 ≤ 4064 ∧
      opInService s (frameOp f) = false ∧ serves (consume ch s) ch = true ∧
        (tagOf (chan (consume ch s) ch) (g8 f.head 4 % 32)).used = false ∧
          (tagOf (chan (consume ch s) ch) (g8 f.head 4 % 32)).kept = none) ∧
    (∃ (s : State), ∃ ch, ∃ f, ∃ rest, (chan s ch).held = f :: rest ∧ rspFull (chan s ch) = false ∧ (chan s ch).binding = 0) ∧
    (∃ (s : State), ∃ ch, ∃ tag, ∃ w, ∃ p, orphanAt s ch tag = none ∧ runningAt s ch tag = some w ∧ finishWork w s = some p) ∧
    (∃ (s : State), ∃ ch, ∃ tag, ∃ w, orphanAt s ch tag = none ∧ runningAt s ch tag = some w) ∧
    (∃ (s : State), ∃ ch, ∃ conn, connectionAllowed s ch conn = true) ∧
    (∃ (s : State), ∃ ch, ∃ frame, connectedOn s ch = true ∧ magicOk (streamFrame frame) = true ∧ g16 frame 8 ≤ 4064 ∧
      (chan s ch).enable = true) ∧
    (∃ (s : State), ∃ ch, connectedOn s ch = true) :=
  ⟨⟨withFrame (request 0x0101 [5]) (bench 1), 0, slotFrame (withFrame (request 0x0101 [5]) (bench 1)) 0, _, by decide +kernel,
    by decide +kernel, by decide +kernel, by decide +kernel, by decide +kernel, rfl⟩,
   ⟨longOn, 1, longFrame, long_next, by decide +kernel, crc_ok _ _ rfl, by decide +kernel⟩,
   ⟨withFrame (List.replicate 33 1) (bench 1), 0, slotFrame (withFrame (List.replicate 33 1) (bench 1)) 0, by decide +kernel⟩,
   ⟨withFrame ([0xA1, 0xD2] ++ List.replicate 33 0) (bench 1), 0, slotFrame (withFrame ([0xA1, 0xD2] ++ List.replicate 33 0) (bench 1)) 0,
     by decide +kernel⟩,
   ⟨withFrame (request 0x01ff [5]) (bench 1), 0, slotFrame (withFrame (request 0x01ff [5]) (bench 1)) 0, by decide +kernel⟩,
   ⟨{ bench 1 with mbx.channels := [{}, {}, {}, { held := [[1]] }] }, 3, [1], [], by decide +kernel⟩,
   ⟨onChan 3 (fun c => { c with running := [{ req := { ch := 3, tag := 31 }, opcode := 0x0C09, work := .lifecycle }] }) (bench 1), 3, 31,
     { req := { ch := 3, tag := 31 }, opcode := 0x0C09, work := .lifecycle }, _, by decide +kernel, by decide +kernel, rfl⟩,
   ⟨onChan 3 (fun c => { c with running := [{ req := { ch := 3, tag := 31 }, opcode := 0x0C09, work := .clear }] }) (bench 1), 3, 31,
     { req := { ch := 3, tag := 31 }, opcode := 0x0C09, work := .clear }, by decide +kernel⟩,
   ⟨{ streaming false with cfg.plainTcp := true, cfg.ethAddresses := [[[10, 0, 0, 1]], []] }, 1, { address := [10, 0, 0, 1] },
     by decide +kernel⟩,
   ⟨streaming true, 1, request 0x0101 [5], by decide +kernel⟩,
   ⟨streaming true, 1, by decide +kernel⟩⟩

theorem witness_resets_run :
    (∃ (s : State), s.sys.phase ≠ .held ∧ s.sys.phase ≠ .heatHold) ∧
    (∃ (s : State), ∃ rail, s.sys.phase ≠ .held ∧ s.sys.phase ≠ .heatHold ∧ rail ≠ 0) ∧
    (∃ (s : State), s.sys.phase ≠ .held ∧ s.sys.phase ≠ .heatHold ∧ s.nv.causes.contains 0x0304 = false) ∧
    (∃ (s : State), s.sys.phase ≠ .held ∧ s.sys.phase ≠ .heatHold ∧ s.sys.resetDue = true) ∧
    (∃ (s : State), s.sys.phase = .held) ∧
    (∃ (s : State), s.sys.phase = .heatHold) ∧
    (∃ (s : State), up s = true ∧ s.heat.shutdown = true) ∧
    (∃ (s : State), ∃ p, ∃ t, s.sys.lcPending = some p ∧ t = meterCommit 3 (enterKick 0x0601 (commitDraft (draft 0x3101 srcA0 (u8 (lifecycle s) ++ u8 p.target ++ u8 p.authority ++ u8 1) s) s)) ∧ ¬(lifecycle s = lcProvisioned ∧ p.target = lcIntegration)) :=
  ⟨⟨bench 1, by decide +kernel⟩,
   ⟨bench 1, 2, by decide +kernel⟩,
   ⟨bench 1, by decide +kernel⟩,
   ⟨{ bench 1 with sys.resetDue := true }, by decide +kernel⟩,
   ⟨State.reset, by decide +kernel⟩,
   ⟨{ State.reset with sys.phase := .heatHold }, by decide +kernel⟩,
   ⟨{ bench 1 with heat.shutdown := true }, by decide +kernel⟩,
   ⟨{ bench 1 with sys.lcPending := some { target := 4, authority := 1, ownerKey := [], ch := 0, tag := 3 } },
     { target := 4, authority := 1, ownerKey := [], ch := 0, tag := 3 }, _, by decide +kernel, rfl, by decide +kernel⟩⟩

theorem witness_safe_transport_steps_run :
    (∃ (s : State), up s = true) ∧
    (∃ (s : State), ∃ path, up s = true ∧ path ≠ 0) ∧
    (∃ (s : State), ∃ conn, connOn s conn = true) ∧
    (∃ (s : State), ∃ conn, connOn s conn = true ∧ (Machine.conn s conn).watch.isSome = true) ∧
    (∃ (s : State), ∃ e, s.saf.edit = some e ∧ e.since + 600 ≤ s.nv.opSeconds) ∧
    (∃ (s : State), ∃ t, s.nvSaf.lockUntil = some t ∧ t ≤ s.nv.opSeconds) :=
  ⟨⟨bench 1, by decide +kernel⟩,
   ⟨bench 1, 1, by decide +kernel⟩,
   ⟨safe, 7, by decide +kernel⟩,
   ⟨{ safe with saf.conns := List.replicate 8 { watch := some 5 } }, 7, by decide +kernel⟩,
   ⟨{ bench 1 with saf.edit := some { ch := 0, handle := 1, staging := {} }, nv.opSeconds := 600 },
     { ch := 0, handle := 1, staging := {} }, by decide +kernel⟩,
   ⟨{ bench 1 with nvSaf.lockUntil := some 5, nv.opSeconds := 5 }, 5, by decide +kernel⟩⟩

theorem witness_safety_commands_run :
    (∃ (s : State), ∃ (r : Req), Admits (.safGetStatus r) s) ∧
    (∃ (s : State), ∃ (r : Req), ∃ index, Admits (.safGetInstance r index) s ∧ index < 32) ∧
    (∃ (s : State), ∃ (r : Req), ∃ input, Admits (.safGetInput r input) s ∧ input < 16) ∧
    (∃ (s : State), ∃ (r : Req), ∃ pair, Admits (.safGetPair r pair) s ∧ pair < 6) ∧
    (∃ (s : State), ∃ (r : Req), ∃ mask, ∃ part, Admits (.safReset r mask part) s ∧ safeAwaiting s = false ∧ resetMisnamed s mask = false ∧
      part ≤ 1 ∧ (part = 1 → partSource s = 254)) ∧
    (∃ (s : State), ∃ (r : Req), ∃ pair, Admits (.safSetOutput r pair 1) s ∧ kicked s = false ∧ safeAwaiting s = false ∧ pair < 6 ∧
      prMode (pairCfg s pair) = 2 ∧ permitMissing s pair = false) ∧
    (∃ (s : State), ∃ (r : Req), ∃ pair, Admits (.safSetOutput r pair 0) s ∧ pair < 6 ∧ prMode (pairCfg s pair) = 2) ∧
    (∃ (s : State), ∃ (r : Req), ∃ index, Admits (.safDoorLock r index 1) s ∧ safeAwaiting s = false ∧ index < 32 ∧
      locks (instCfg s index) = true) ∧
    (∃ (s : State), ∃ (r : Req), ∃ index, Admits (.safDoorLock r index 0) s ∧ safeAwaiting s = false ∧ index < 32 ∧
      locks (instCfg s index) = true) ∧
    (∃ (s : State), ∃ (r : Req), ∃ conn, Admits (.safGetLink r conn) s ∧ conn < 8) :=
  ⟨⟨bench 1, r0, by decide +kernel⟩,
   ⟨bench 1, r0, 31, by decide +kernel⟩,
   ⟨bench 1, r0, 15, by decide +kernel⟩,
   ⟨bench 1, r0, 5, by decide +kernel⟩,
   ⟨withSet true { header := [1, 0, 100, 0, 0, 0, 254], pairs := List.replicate 6 [5, 2] } (bench 1), r0, 0, 1, by decide +kernel⟩,
   ⟨withSet true { header := [1, 0, 100, 0, 0, 0, 254], pairs := List.replicate 6 [5, 2] } (bench 1), r0, 5, by decide +kernel⟩,
   ⟨withSet true { header := [1, 0, 100, 0, 0, 0, 254], pairs := List.replicate 6 [5, 2] } (bench 1), r0, 5, by decide +kernel⟩,
   ⟨withSet true { pairs := [[0, 2, 0, 0], [1, 2], [2, 2], [3, 2], [4, 2], [5, 2]], insts := List.replicate 32 [0, 2, 0, 0, 0, 254] } (bench 1), r0, 31, by decide +kernel⟩,
   ⟨withSet true { pairs := [[0, 2, 0, 0], [1, 2], [2, 2], [3, 2], [4, 2], [5, 2]], insts := List.replicate 32 [0, 2, 0, 0, 0, 254] } (bench 1), r0, 31, by decide +kernel⟩,
   ⟨bench 1, r0, 7, by decide +kernel⟩⟩

theorem witness_safety_configuration_commands_run :
    (∃ (s : State), ∃ (r : Req), Admits (.safCfgGet r) s) ∧
    (∃ (s : State), ∃ (r : Req), ∃ copy, ∃ kind, ∃ index, ∃ (set : SafeSet), Admits (.safCfgRead r copy kind index) s ∧
      index < (blockShape kind).1 ∧ copySet s copy = some set) ∧
    (∃ (s : State), ∃ (r : Req), ∃ password, Admits (.safCfgOpen r password) s ∧ s.nvSaf.lockUntil = none ∧
      s.nvSaf.password.isSome = true ∧ passwordLength password = true ∧ s.saf.edit = none ∧ passwordRight s password = true) ∧
    (∃ (s : State), ∃ (r : Req), ∃ kind, ∃ index, ∃ block, Admits (.safCfgWrite r kind index block) s ∧ editing s r = true ∧
      index < (blockShape kind).1) ∧
    (∃ (s : State), ∃ (r : Req), Admits (.safCfgCommit r) s ∧ editing s r = true ∧ safeSetOk s (stagingOf s) = true ∧
      safeCost (stagingOf s) ≤ 35000 ∧ (s.saf.pairs.any (·.on)) = false) ∧
    (∃ (s : State), ∃ (r : Req), Admits (.safCfgClose r) s ∧ editing s r = true) ∧
    (∃ (s : State), ∃ (r : Req), ∃ signature, ∃ password, Admits (.safCfgAck r signature password) s ∧ s.nvSaf.lockUntil = none ∧
      s.nvSaf.password.isSome = true ∧ safeAwaiting s = true ∧ setSignature (safeSet s) = signature ∧ passwordLength password = true ∧
        passwordRight s password = true) ∧
    (∃ (s : State), ∃ (r : Req), ∃ new, Admits (.safCfgSetPassword r [] new) s ∧ s.nvSaf.lockUntil = none ∧ passwordLength new = true ∧
      s.nvSaf.password = none ∧ lifecycle s = lcIntegration) ∧
    (∃ (s : State), ∃ (r : Req), ∃ old, ∃ new, Admits (.safCfgSetPassword r old new) s ∧ s.nvSaf.lockUntil = none ∧
      passwordLength new = true ∧ passwordLength old = true ∧ old ≠ [] ∧ passwordRight s old = true) ∧
    (∃ (s : State), ∃ (r : Req), ∃ first, ∃ count, Admits (.safCfgGetLog r first count) s ∧ first < 32 ∧ 1 ≤ count ∧ count ≤ 32) :=
  ⟨⟨bench 1, r0, by decide +kernel⟩,
   ⟨{ bench 1 with saf.edit := some { ch := 0, handle := 1, staging := {} } }, r0, 1, 5, 0, {}, by decide +kernel⟩,
   ⟨{ bench 1 with nvSaf.password := some ([], passwordDigest [] (List.replicate 8 65)) }, r0, List.replicate 8 65, by decide +kernel,
     by decide +kernel, by decide +kernel, by decide +kernel, by decide +kernel, by simp [passwordRight, passwordDigest]⟩,
   ⟨{ bench 1 with saf.edit := some { ch := 0, handle := 1, staging := {} } }, r0, 5, 0, List.replicate 16 255, by decide +kernel⟩,
   ⟨{ bench 1 with saf.edit := some { ch := 0, handle := 1, staging := goodSet } }, r0, by decide +kernel⟩,
   ⟨{ bench 1 with saf.edit := some { ch := 0, handle := 1, staging := {} } }, r0, by decide +kernel⟩,
   ⟨{ withSet false {} (bench 1) with nvSaf.password := some ([], passwordDigest [] (List.replicate 8 65)) }, r0, setSignature {},
     List.replicate 8 65, by decide +kernel, by decide +kernel, by decide +kernel, by decide +kernel, rfl, by decide +kernel,
       by simp [passwordRight, passwordDigest]⟩,
   ⟨bench 1, r0, List.replicate 64 65, by decide +kernel⟩,
   ⟨{ bench 1 with nvSaf.password := some ([], passwordDigest [] (List.replicate 8 65)) }, r0, List.replicate 8 65, List.replicate 64 66,
     by decide +kernel, by decide +kernel, by decide +kernel, by decide +kernel, by decide +kernel, by simp [passwordRight,
       passwordDigest]⟩,
   ⟨bench 1, r0, 31, 32, by decide +kernel⟩⟩

theorem witness_safety_steps_run :
    (∃ (s : State), up s = true) ∧
    (∃ (s : State), ∃ core, ∃ x, up s = true ∧ core < 2 ∧ x = setLate (lateSafety core) { s with saf.tick := s.saf.tick + 1, saf.missed := (upd s.saf.missed core (· + 1)).set (1 - core) 0 } ∧ x.saf.differ = false ∧ nth x.saf.missed core < 2) ∧
    (∃ (s : State), ∃ core, ∃ x, up s = true ∧ core < 2 ∧ x = setLate (lateSafety core) { s with saf.tick := s.saf.tick + 1, saf.missed := (upd s.saf.missed core (· + 1)).set (1 - core) 0 } ∧ (x.saf.differ = true ∨ 2 ≤ nth x.saf.missed core)) ∧
    (∃ (s : State), ∃ tp, up s = true ∧ nth s.saf.tp tp = true) ∧
    (∃ (s : State), up s = true ∧ safeRunning s = true) ∧
    (∃ (s : State), ∃ index, up s = true ∧ safeRunning s = true ∧ (inst s index).mute.isSome = true) ∧
    (∃ (s : State), ∃ index, up s = true ∧ safeRunning s = true ∧ followLate s index = true) ∧
    (∃ (s : State), ∃ index, up s = true ∧ safeRunning s = true ∧ unlockDue s index = true) ∧
    (∃ (s : State), ∃ pair, up s = true ∧ (pairOf s pair).on = true ∧ ((pairDemands s pair).any (demandDue s.saf.tick)) = true) ∧
    (∃ (s : State), ∃ pair, ∃ vLow, ∃ vsout, up s = true ∧ darkDue s pair = true ∧ (pairOf s pair).lowSide = true ∧ vsout ≤ vLow + 50) ∧
    (∃ (s : State), ∃ pair, ∃ vLow, ∃ vsout, up s = true ∧ darkDue s pair = true ∧ (pairOf s pair).lowSide = true ∧ vLow + 50 < vsout) ∧
    (∃ (s : State), ∃ pair, ∃ vHigh, up s = true ∧ darkDue s pair = true ∧ (pairOf s pair).lowSide = false ∧ vHigh ≤ 50) ∧
    (∃ (s : State), ∃ pair, ∃ vHigh, up s = true ∧ darkDue s pair = true ∧ (pairOf s pair).lowSide = false ∧ 50 < vHigh) ∧
    (∃ (s : State), ∃ pair, up s = true ∧ (pairOf s pair).on = true) ∧
    (∃ (s : State), up s = true ∧ s.env.vsout = true) ∧
    (∃ (s : State), up s = true ∧ s.env.vsout = false) :=
  ⟨⟨bench 1, by decide +kernel⟩,
   ⟨bench 1, 1, _, by decide +kernel, by decide +kernel, rfl, by decide +kernel⟩,
   ⟨{ bench 1 with saf.missed := [1, 1] }, 1, _, by decide +kernel, by decide +kernel, rfl, by decide +kernel⟩,
   ⟨{ bench 1 with saf.tp := [true, true, true, true] }, 3, by decide +kernel⟩,
   ⟨safe, by decide +kernel⟩,
   ⟨{ safe with saf.insts := List.replicate 35 { mute := some 4 } }, 34, by decide +kernel⟩,
   ⟨{ safe with saf.tick := 4000, saf.insts := List.replicate 35 { driven := some (0, true) } }, 0, by decide +kernel⟩,
   ⟨{ safe with saf.insts := List.replicate 35 { unlocking := true } }, 0, by decide +kernel⟩,
   ⟨withSet true { fullSet with insts := [] } { bench 1 with saf.pairs := List.replicate 6 { on := true } }, 5, by decide +kernel⟩,
   ⟨pairOn true, 5, 23950, 24000, by decide +kernel⟩,
   ⟨pairOn true, 5, 23949, 24000, by decide +kernel⟩,
   ⟨pairOn false, 5, 50, by decide +kernel⟩,
   ⟨pairOn false, 5, 51, by decide +kernel⟩,
   ⟨pairOn false, 5, by decide +kernel⟩,
   ⟨bench 1, by decide +kernel⟩,
   ⟨{ bench 1 with env.vsout := false }, by decide +kernel⟩⟩

theorem witness_session_power_path_steps_run :
    (∃ (s : State), ∃ slot, up s = true ∧ localSlot s slot = true ∧ mirrorShows s slot = true) ∧
    (∃ (s : State), ∃ slot, up s = true ∧ localSlot s slot = true ∧ (ses s slot).confirmed = false ∧ commandOld s slot = true ∧
      seMirror (sesCfg s slot) = 255) ∧
    (∃ (s : State), ∃ slot, up s = true ∧ localSlot s slot = true ∧ (ses s slot).confirmed = false ∧ commandOld s slot = true ∧
      seMirror (sesCfg s slot) ≠ 255 ∧ (ses s slot).state = 11) ∧
    (∃ (s : State), ∃ slot, up s = true ∧ localSlot s slot = true ∧ (ses s slot).confirmed = false ∧ commandOld s slot = true ∧
      seMirror (sesCfg s slot) ≠ 255 ∧ (ses s slot).state ≠ 11) ∧
    (∃ (s : State), ∃ slot, up s = true ∧ localSlot s slot = true ∧ ((ses s slot).state = 5 ∨ (ses s slot).state = 11)) ∧
    (∃ (s : State), ∃ slot, up s = true ∧ localSlot s slot = true ∧ (ses s slot).state = 11 ∧ granting s slot = false) ∧
    (∃ (s : State), ∃ slot, ∃ kohm, up s = true ∧ localSlot s slot = true ∧ (ses s slot).state = 6 ∧ (ses s slot).isoDone = false ∧
      (ses s slot).imdLow = some kohm ∧ seImdSettle (sesCfg s slot) ≤ (ses s slot).imdMs ∧ 500 * (ses s slot).vcc ≤ kohm * 10000) ∧
    (∃ (s : State), ∃ slot, ∃ kohm, up s = true ∧ localSlot s slot = true ∧ (ses s slot).state = 6 ∧ (ses s slot).isoDone = false ∧
      (ses s slot).imdLow = some kohm ∧ seImdSettle (sesCfg s slot) ≤ (ses s slot).imdMs ∧ kohm * 10000 < 500 * (ses s slot).vcc ∧
        100 * (ses s slot).vcc ≤ kohm * 10000) ∧
    (∃ (s : State), ∃ slot, ∃ kohm, up s = true ∧ localSlot s slot = true ∧ (ses s slot).state = 6 ∧ (ses s slot).isoDone = false ∧
      (ses s slot).imdLow = some kohm ∧ seImdSettle (sesCfg s slot) ≤ (ses s slot).imdMs ∧ kohm * 10000 < 100 * (ses s slot).vcc) ∧
    (∃ (s : State), ∃ slot, up s = true ∧ localSlot s slot = true ∧ ((ses s slot).state = 5 ∨ ((ses s slot).state = 6 ∧
      (ses s slot).isoDone = false))) ∧
    (∃ (s : State), ∃ slot, up s = true ∧ localSlot s slot = true ∧ (ses s slot).state = 7 ∧ (ses s slot).near = false) ∧
    (∃ (s : State), ∃ slot, up s = true ∧ localSlot s slot = true ∧ renegotiates s slot = true ∧ offSchedule s slot = true ∧
      renegFree s slot = true ∧ (ses s slot).state = 8) ∧
    (∃ (s : State), ∃ slot, up s = true ∧ localSlot s slot = true ∧ renegotiates s slot = true ∧ offSchedule s slot = true ∧
      renegFree s slot = true ∧ (ses s slot).state = 9) ∧
    (∃ (s : State), ∃ slot, up s = true ∧ localSlot s slot = true) ∧
    (∃ (s : State), ∃ slot, up s = true ∧ localSlot s slot = true ∧ stopUnderCurrent s slot .orderly = true) ∧
    (∃ (s : State), ∃ slot, up s = true ∧ localSlot s slot = true ∧ stopUnderCurrent s slot .urgent = true) ∧
    (∃ (s : State), up s = true) :=
  ⟨⟨mirrorSet, 0, by decide +kernel⟩,
   ⟨{ onSes 0 (fun x => { x with confirmed := false, cmdTick := 0, state := 6 }) (mirrored 255) with saf.tick := 200 }, 0,
     by decide +kernel⟩,
   ⟨{ onSes 0 (fun x => { x with confirmed := false, cmdTick := 0, state := 11 }) (mirrored 5) with saf.tick := 200 }, 0,
     by decide +kernel⟩,
   ⟨{ onSes 0 (fun x => { x with confirmed := false, cmdTick := 0, state := 6 }) (mirrored 5) with saf.tick := 200 }, 0, by decide +kernel⟩,
   ⟨onSes 0 (fun x => { x with state := 5 }) post, 0, by decide +kernel⟩,
   ⟨onSes 0 (fun x => { x with state := 11 }) post, 0, by decide +kernel⟩,
   ⟨onSes 0 (fun x => { x with state := 6, vcc := 5000, imdLow := some 250, imdMs := 500 }) post, 0, 250, by decide +kernel⟩,
   ⟨onSes 0 (fun x => { x with state := 6, vcc := 5000, imdLow := some 249, imdMs := 500 }) post, 0, 249, by decide +kernel⟩,
   ⟨onSes 0 (fun x => { x with state := 6, vcc := 5000, imdLow := some 49, imdMs := 500 }) post, 0, 49, by decide +kernel⟩,
   ⟨onSes 0 (fun x => { x with state := 6 }) post, 0, by decide +kernel⟩,
   ⟨onSes 0 (fun x => { x with state := 7 }) post, 0, by decide +kernel⟩,
   ⟨onLink 0 (fun l => { l with protocol := 3 }) (onSes 0 (fun x => { x with state := 8, loop := some { iTarget := 0, iMax := 0, vMax := 0, pMax := 0, pSched := 100, pDisch := 0, departS := 0, bidirectional := true } }) (mirrored 5)), 0, by decide +kernel⟩,
   ⟨onLink 0 (fun l => { l with protocol := 3 }) (onSes 0 (fun x => { x with state := 9, loop := some { iTarget := 0, iMax := 0, vMax := 0, pMax := 0, pSched := 100, pDisch := 0, departS := 0, bidirectional := true } }) (mirrored 5)), 0, by decide +kernel⟩,
   ⟨post, 1, by decide +kernel⟩,
   ⟨onSes 0 (fun x => { x with state := 10, stop := some .orderly, pos := true }) post, 0, by decide +kernel⟩,
   ⟨onSes 0 (fun x => { x with state := 10, stop := some .urgent, neg := true }) post, 0, by decide +kernel⟩,
   ⟨bench 2, by decide +kernel⟩⟩

theorem witness_session_protocol_steps_run :
    (∃ (s : State), ∃ slot, ∃ (protocolError : Bool), ∃ x, ∃ y, ∃ z, up s = true ∧ localSlot s slot = true ∧
      x = (if firstSlot s slot then settleHub { s with grantAge := s.grantAge.map (· + 1) } else s) ∧
        y = endCauses slot (stepCauses x slot protocolError) (settleContacts slot (stepInputs slot x)) ∧
          z = settleIdle slot (settleStopped slot (followSafety slot (settleWant slot (settleOpen slot (settleImd slot (countImd slot y))))))) ∧
    (∃ (s : State), ∃ slot, ∃ vid, ∃ x, up s = true ∧ localSlot s slot = true ∧ 2 ≤ (ses s slot).state ∧ (ses s slot).state ≤ 4 ∧
      (link s slot).up = true ∧ vehicleTraffic s slot vid = true ∧ (link s slot).port = 0 ∧
        x = onLink slot (fun l => { l with port := 49152 + Config.freshNat s.free 16384 % 16384 }) (drawn s)) ∧
    (∃ (s : State), ∃ slot, ∃ vid, up s = true ∧ localSlot s slot = true ∧ 2 ≤ (ses s slot).state ∧ (ses s slot).state ≤ 4 ∧
      (link s slot).up = true ∧ vehicleTraffic s slot vid = true ∧ (link s slot).port ≠ 0) ∧
    (∃ (s : State), ∃ slot, ∃ (offers : List Nat), ∃ p, up s = true ∧ localSlot s slot = true ∧ (ses s slot).state = 2 ∧
      (link s slot).up = true ∧ offers.find? (protocolOk s slot) = some p) ∧
    (∃ (s : State), ∃ slot, ∃ (offers : List Nat), up s = true ∧ localSlot s slot = true ∧ (ses s slot).state = 2 ∧
      (link s slot).up = true ∧ offers.find? (protocolOk s slot) = none) ∧
    (∃ (s : State), ∃ slot, ∃ keySlot, ∃ hello, up s = true ∧ localSlot s slot = true ∧ (ses s slot).state = 2 ∧ (link s slot).up = true ∧
      keySlot < 256 ∧ invocation s keySlot (fun k => k.usage == useTls && tlsFits hello k.alg) byApplication true = none) ∧
    (∃ (s : State), ∃ slot, up s = true ∧ localSlot s slot = true ∧ (link s slot).protocol ≠ 0 ∧ (ses s slot).state = 3) ∧
    (∃ (s : State), ∃ slot, ∃ method, ∃ chain, up s = true ∧ localSlot s slot = true ∧ (ses s slot).state = 2 ∧
      (link s slot).protocol ≠ 0 ∧ methodAllowed s slot method chain = true ∧ preAuth s slot = none) ∧
    (∃ (s : State), ∃ slot, ∃ method, ∃ chain, ∃ p, up s = true ∧ localSlot s slot = true ∧ (ses s slot).state = 2 ∧
      (link s slot).protocol ≠ 0 ∧ methodAllowed s slot method chain = true ∧ preAuth s slot = some p) ∧
    (∃ (s : State), ∃ slot, ∃ method, ∃ chain, up s = true ∧ localSlot s slot = true ∧ (ses s slot).state = 2 ∧
      (link s slot).protocol ≠ 0 ∧ methodAllowed s slot method chain = false) ∧
    (∃ (s : State), ∃ slot, up s = true ∧ localSlot s slot = true ∧ (ses s slot).state = 3) ∧
    (∃ (s : State), ∃ slot, up s = true ∧ localSlot s slot = true ∧ preAuth s slot = none) ∧
    (∃ (s : State), ∃ slot, up s = true ∧ localSlot s slot = true ∧ (ses s slot).state = 4) ∧
    (∃ (s : State), ∃ slot, up s = true ∧ localSlot s slot = true ∧ ((ses s slot).state = 5 ∨ (ses s slot).state = 6)) ∧
    (∃ (s : State), ∃ slot, up s = true ∧ localSlot s slot = true ∧ (((ses s slot).state = 6 ∧
      (ses s slot).isoDone = true) ∨ (ses s slot).state = 7)) ∧
    (∃ (s : State), ∃ slot, ∃ discharge, up s = true ∧ localSlot s slot = true ∧ (ses s slot).state = 7 ∧
      (discharge = true → mayExport s slot = true)) ∧
    (∃ (s : State), ∃ slot, up s = true ∧ localSlot s slot = true ∧ (ses s slot).state = 7 ∧ mayExport s slot = false) ∧
    (∃ (s : State), ∃ slot, up s = true ∧ localSlot s slot = true) ∧
    (∃ (s : State), ∃ slot, ∃ (exporting : Bool), ∃ x, up s = true ∧ localSlot s slot = true ∧ mayExport s slot = true ∧
      (ses s slot).mode ≠ (if exporting then 5 else 4) ∧ (ses s slot).state = 8 ∧
        x = raise evSesState (onSes slot (fun x => { x with state := 9, mode := if exporting then 5 else 4 }) s)) ∧
    (∃ (s : State), ∃ slot, ∃ (exporting : Bool), ∃ x, up s = true ∧ localSlot s slot = true ∧ mayExport s slot = true ∧
      (ses s slot).mode ≠ (if exporting then 5 else 4) ∧ (ses s slot).state = 9 ∧
        x = onSes slot (fun x => { x with mode := if exporting then 5 else 4 }) s) ∧
    (∃ (s : State), ∃ slot, ∃ (exporting : Bool), up s = true ∧ localSlot s slot = true ∧ mayExport s slot = false ∧
      (ses s slot).mode ≠ (if exporting then 5 else 4) ∧ ((ses s slot).state = 8 ∨ (ses s slot).state = 9)) ∧
    (∃ (s : State), ∃ slot, up s = true ∧ localSlot s slot = true ∧ (link s slot).up = true) ∧
    (∃ (s : State), ∃ slot, up s = true ∧ localSlot s slot = true ∧ 4 ≤ (ses s slot).state ∧ (ses s slot).state ≤ 9) ∧
    (∃ (s : State), up s = true) ∧
    (∃ (s : State), ∃ slot, up s = true ∧ localSlot s slot = true ∧ ((ses s slot).state = 8 ∨ (ses s slot).state = 9)) ∧
    (∃ (s : State), ∃ slot, ∃ service, up s = true ∧ localSlot s slot = true ∧ (ses s slot).state = 4 ∧
      serviceOffered s slot service = true) ∧
    (∃ (s : State), ∃ slot, ∃ service, up s = true ∧ localSlot s slot = true ∧ (ses s slot).state = 4 ∧
      serviceOffered s slot service = false) :=
  ⟨⟨post, 1, true, _, _, _, by decide +kernel, by decide +kernel, rfl, rfl, rfl⟩,
   ⟨onLink 0 (fun l => { l with up := true, port := 0, protocol := 0, tls := true }) (onSes 0 (fun x => { x with state := 4 }) post), 0,
     none, _, by decide +kernel, by decide +kernel, by decide +kernel, by decide +kernel, by decide +kernel, by decide +kernel,
       by decide +kernel, rfl⟩,
   ⟨onLink 0 (fun l => { l with up := true, port := 50000, protocol := 0, tls := true }) (onSes 0 (fun x => { x with state := 2 }) post),
     0, none, by decide +kernel⟩,
   ⟨onLink 0 (fun l => { l with up := true, port := 0, protocol := 0, tls := true }) (onSes 0 (fun x => { x with state := 2 }) post), 0,
     [1, 3], 1, by decide +kernel⟩,
   ⟨onLink 0 (fun l => { l with up := true, port := 0, protocol := 0, tls := true }) (onSes 0 (fun x => { x with state := 2 }) post), 0,
     [], by decide +kernel⟩,
   ⟨withKey 255 (key 0x09 0x10) (onLink 0 (fun l => { l with up := true, port := 0, protocol := 0, tls := true }) (onSes 0 (fun x => { x with state := 2 }) post)), 0, 255, { version := 0x0303, suites := [.ecdheAes128CbcSha256], groups := [.secp256r1], sigs := [] }, by decide +kernel⟩,
   ⟨onLink 0 (fun l => { l with protocol := 2 }) (onSes 0 (fun x => { x with state := 3, pre := none }) (withFlags 1)), 0,
     by decide +kernel⟩,
   ⟨onLink 0 (fun l => { l with protocol := 2 }) (onSes 0 (fun x => { x with state := 2, pre := none }) (withFlags 1)), 0, 1, [],
     by decide +kernel⟩,
   ⟨onLink 0 (fun l => { l with protocol := 2 }) (onSes 0 (fun x => { x with state := 2, pre := some { accept := true, cls := 1, until_ := 5, ident := [] } }) (withFlags 1)), 0, 1, [], { accept := true, cls := 1, until_ := 5, ident := [] }, by decide +kernel⟩,
   ⟨onLink 0 (fun l => { l with protocol := 2 }) (onSes 0 (fun x => { x with state := 2, pre := none }) (withFlags 0)), 0, 1, [],
     by decide +kernel⟩,
   ⟨onSes 0 (fun x => { x with state := 3 }) post, 0, by decide +kernel⟩,
   ⟨post, 1, by decide +kernel⟩,
   ⟨onSes 0 (fun x => { x with state := 4 }) post, 0, by decide +kernel⟩,
   ⟨onSes 0 (fun x => { x with state := 6 }) post, 0, by decide +kernel⟩,
   ⟨onSes 0 (fun x => { x with state := 7 }) post, 0, by decide +kernel⟩,
   ⟨onSes 0 (fun x => { x with state := 7 }) post, 0, false, by decide +kernel⟩,
   ⟨onSes 0 (fun x => { x with state := 7 }) post, 0, by decide +kernel⟩,
   ⟨post, 1, by decide +kernel⟩,
   ⟨onSes 0 (fun x => { x with state := 8, mode := 4, bpt := true, loop := some vehicle }) (withFlags 4), 0, true, _, by decide +kernel,
     by decide +kernel, by decide +kernel, by decide +kernel, by decide +kernel, rfl⟩,
   ⟨onSes 0 (fun x => { x with state := 9, mode := 4, bpt := true, loop := some vehicle }) (withFlags 4), 0, true, _, by decide +kernel,
     by decide +kernel, by decide +kernel, by decide +kernel, by decide +kernel, rfl⟩,
   ⟨onSes 0 (fun x => { x with state := 9, mode := 4, bpt := true, loop := some vehicle }) (withFlags 0), 0, true, by decide +kernel⟩,
   ⟨onLink 0 (fun l => { l with up := true, port := 0, protocol := 0, tls := true }) (post), 0, by decide +kernel⟩,
   ⟨onSes 0 (fun x => { x with state := 9 }) post, 0, by decide +kernel⟩,
   ⟨post, by decide +kernel⟩,
   ⟨onSes 0 (fun x => { x with state := 9 }) post, 0, by decide +kernel⟩,
   ⟨onLink 0 (fun l => { l with up := true, port := 0, protocol := 3, tls := true }) (onSes 0 (fun x => { x with state := 4 }) post), 0,
     .dc, by decide +kernel⟩,
   ⟨onLink 0 (fun l => { l with up := true, port := 0, protocol := 3, tls := true }) (onSes 0 (fun x => { x with state := 4 }) post), 0,
     .wpt, by decide +kernel⟩⟩

theorem witness_spoke_commands_run :
    (∃ (s : State), ∃ (r : Req), Admits (.spkGetStatus r) s) ∧
    (∃ (s : State), ∃ (r : Req), Admits (.spkGetNodes r) s) ∧
    (∃ (s : State), ∃ (r : Req), ∃ peer, Admits (.spkGetLink r peer) s ∧ (s.spk.links.any fun l => l.peer == peer) = true) ∧
    (∃ (s : State), ∃ (r : Req), ∃ peer, Admits (.spkClearStats r peer) s ∧ (s.spk.links.any fun l => l.peer == peer) = true ∧ peer ≠ 255) ∧
    (∃ (s : State), ∃ (r : Req), Admits (.spkClearStats r 255) s) :=
  ⟨⟨bench 1, r0, by decide +kernel⟩,
   ⟨bench 1, r0, by decide +kernel⟩,
   ⟨{ bench 1 with spk.links := [{ peer := 2 }] }, r0, 2, by decide +kernel⟩,
   ⟨{ bench 1 with spk.links := [{ peer := 2 }] }, r0, 2, by decide +kernel⟩,
   ⟨bench 1, r0, by decide +kernel⟩⟩

theorem witness_spoke_data_steps_run :
    (∃ (s : State), up s = true ∧ onSpoke s = true ∧ s.env.vline = true ∧ beaconCurrent s = true ∧ contender s = none) ∧
    (∃ (s : State), ∃ (m : Access), ∃ l, ∃ p, ∃ x, up s = true ∧ onSpoke s = true ∧ s.env.vline = true ∧ beaconCurrent s = true ∧
      contender s = some (l, p) ∧ symbolsLeft s l m.time ≠ 0 ∧ x = (if sendsPr0 p || (sendsPr1 p && !m.pr0) then sendPriority p s else s) ∧
        defers p m = true) ∧
    (∃ (s : State), ∃ (m : Access), ∃ l, ∃ p, ∃ x, up s = true ∧ onSpoke s = true ∧ s.env.vline = true ∧ beaconCurrent s = true ∧
      contender s = some (l, p) ∧ symbolsLeft s l m.time ≠ 0 ∧ x = (if sendsPr0 p || (sendsPr1 p && !m.pr0) then sendPriority p s else s) ∧
        defers p m = false ∧ m.idle < backoffNow s l p) ∧
    (∃ (s : State), ∃ (m : Access), ∃ l, ∃ p, ∃ x, up s = true ∧ onSpoke s = true ∧ s.env.vline = true ∧ beaconCurrent s = true ∧
      contender s = some (l, p) ∧ symbolsLeft s l m.time ≠ 0 ∧ x = (if sendsPr0 p || (sendsPr1 p && !m.pr0) then sendPriority p s else s) ∧
        defers p m = false ∧ backoffNow s l p ≤ m.idle) ∧
    (∃ (s : State), ∃ (burst : Burst), ∃ words, ∃ good, ∃ x, up s = true ∧ onSpoke s = true ∧ s.env.vline = true ∧
      hdDst burst.head = spkSrc s ∧ hdDst burst.head ≠ 255 ∧ words = burst.words.zipIdx.map (fun x => (openWord s burst x.2 x.1, x.2)) ∧
        good = words.map (fun x => x.1.isSome) ∧ x = settleMap (hdSrc burst.head) (words.foldl (arriveWord burst) (countBurst burst (good.filter (!·)).length s))) ∧
    (∃ (s : State), ∃ (burst : Burst), ∃ words, up s = true ∧ onSpoke s = true ∧ s.env.vline = true ∧ hdDst burst.head = 255 ∧
      words = burst.words.zipIdx.map (fun x => (openWord s burst x.2 x.1, x.2))) ∧
    (∃ (s : State), ∃ (ack : Bytes), up s = true ∧ onSpoke s = true ∧ ackSealed s ack = true ∧ (spkLink s (hdSrc ack)).sent ≠ [] ∧
      (∀ x ∈ (spkLink s (hdSrc ack)).sent, x.1 = g16 ack 8)) ∧
    (∃ (s : State), ∃ peer, up s = true ∧ onSpoke s = true ∧ (spkLink s peer).sent ≠ []) ∧
    (∃ (s : State), ∃ peer, ∃ m, up s = true ∧ onSpoke s = true ∧ beaconCurrent s = true ∧ mapDue (spkLink s peer) = true ∧
      m = chosenMap s (spkLink s peer)) ∧
    (∃ (s : State), up s = true ∧ onSpoke s = true ∧ beaconCurrent s = false) ∧
    (∃ (s : State), up s = true ∧ onSpoke s = true) ∧
    (∃ (s : State), up s = true ∧ isHub s = true) ∧
    (∃ (s : State), up s = true ∧ isMaster s = true) ∧
    (∃ (s : State), up s = true ∧ s.sys.role = 2 ∧ beaconCurrent s = false) ∧
    (∃ (s : State), ∃ (slot : SlotMsg), up s = true ∧ onSpoke s = true ∧ slotSealed s slot = true ∧ hdNet slot.head = s.cfg.spoke.network ∧
      (spkLink s (hdSrc slot.head)).ethLast = none) ∧
    (∃ (s : State), ∃ (slot : SlotMsg), ∃ q, up s = true ∧ onSpoke s = true ∧ slotSealed s slot = true ∧
      hdNet slot.head = s.cfg.spoke.network ∧ (spkLink s (hdSrc slot.head)).ethLast = some q ∧ pairBelow q (slot.period,
        hdIdx slot.head) = true) ∧
    (∃ (s : State), ∃ (slot : SlotMsg), ∃ q, up s = true ∧ onSpoke s = true ∧ slotSealed s slot = true ∧
      hdNet slot.head = s.cfg.spoke.network ∧ (spkLink s (hdSrc slot.head)).ethLast = some q ∧ pairBelow q (slot.period,
        hdIdx slot.head) = false) ∧
    (∃ (s : State), ∃ vid, ∃ etherType, up s = true ∧ onSpoke s = true ∧ vid = s.cfg.spoke.bridgeVid ∧ s.cfg.spoke.bridgeVid ≠ 0 ∧
      etherType ≠ 0x88B5 ∧ etherType ≠ 0x88B6) :=
  ⟨⟨spoke 1, by decide +kernel⟩,
   ⟨{ spoke 1 with spk.links := [{ peer := 2, queue := [{ prio := 1 }] }], spk.swStart := 30000, spk.backoff := some 3 },
     { time := 5, pr0 := true, idle := 3 }, _, 1, _, by decide +kernel, by decide +kernel, by decide +kernel, by decide +kernel, rfl,
       by decide +kernel, rfl, by decide +kernel⟩,
   ⟨{ spoke 1 with spk.links := [{ peer := 2, queue := [{ prio := 1 }] }], spk.swStart := 30000, spk.backoff := some 3 },
     { time := 5, idle := 2 }, _, 1, _, by decide +kernel, by decide +kernel, by decide +kernel, by decide +kernel, rfl,
       by decide +kernel, rfl, by decide +kernel⟩,
   ⟨{ spoke 1 with spk.links := [{ peer := 2, queue := [{ prio := 1 }] }], spk.swStart := 30000, spk.backoff := some 3 },
     { time := 5, idle := 3 }, _, 1, _, by decide +kernel, by decide +kernel, by decide +kernel, by decide +kernel, rfl,
       by decide +kernel, rfl, by decide +kernel⟩,
   ⟨spoke 1, burst1 (spkSrc (spoke 1)), _, _, _, by decide +kernel, by decide +kernel, by decide +kernel, by decide +kernel,
     by decide +kernel, rfl, rfl, rfl⟩,
   ⟨spoke 1, burst1 255, _, by decide +kernel, by decide +kernel, by decide +kernel, by decide +kernel, rfl⟩,
   ⟨ackFrom, ackSent, by decide +kernel, by decide +kernel, ack_sealed, by decide +kernel⟩,
   ⟨{ bench 1 with spk.links := [{ peer := 2, sent := [(3, {})] }] }, 2, by decide +kernel⟩,
   ⟨{ spoke 1 with spk.links := [{ peer := 2, snr := [List.replicate 1050 0] }] }, 2, _, by decide +kernel, by decide +kernel,
     by decide +kernel, by decide +kernel, rfl⟩,
   ⟨spoke 2, by decide +kernel⟩,
   ⟨bench 1, by decide +kernel⟩,
   ⟨bench 1, by decide +kernel⟩,
   ⟨spoke 1, by decide +kernel⟩,
   ⟨bench 2, by decide +kernel⟩,
   ⟨spoke 1, slotSeal 1 (spoke 1), by decide +kernel, by decide +kernel, slot_sealed rfl, by decide +kernel⟩,
   ⟨{ spoke 1 with spk.links := [{ peer := 2, ethLast := some (5, 0) }] },
     slotSeal 1 { spoke 1 with spk.links := [{ peer := 2, ethLast := some (5, 0) }] }, (5, 0), by decide +kernel, by decide +kernel,
       slot_sealed rfl, by decide +kernel⟩,
   ⟨{ spoke 1 with spk.links := [{ peer := 2, ethLast := some (5, 1) }] },
     slotSeal 1 { spoke 1 with spk.links := [{ peer := 2, ethLast := some (5, 1) }] }, (5, 1), by decide +kernel, by decide +kernel,
       slot_sealed rfl, by decide +kernel⟩,
   ⟨{ bench 1 with cfg.spoke.bridgeVid := 4094 }, 4094, 0x0800, by decide +kernel⟩⟩

theorem witness_spoke_timing_steps_run :
    (∃ (s : State), ∃ width, up s = true ∧ onSpoke s = true ∧ 100 ≤ width ∧ isMaster s = true) ∧
    (∃ (s : State), ∃ width, up s = true ∧ onSpoke s = true ∧ 100 ≤ width ∧ isMaster s = false ∧ beaconCurrent s = true) ∧
    (∃ width, width < 100) ∧
    (∃ (s : State), up s = true ∧ isMaster s = true) ∧
    (∃ (s : State), up s = true ∧ isMaster s = true ∧ s.spk.freeRun = true ∧ 8 ≤ s.spk.zxGood ∧
      100 < (localPhase s (s.spk.edges.headD 0)).natAbs) ∧
    (∃ (s : State), ∃ x, up s = true ∧ isMaster s = true ∧ s.spk.freeRun = true ∧ 8 ≤ s.spk.zxGood ∧
      (localPhase s (s.spk.edges.headD 0)).natAbs ≤ 100 ∧ x = { s with spk.origin := ((s.spk.origin : Int) + clampI (-100) 100 (localPhase s (s.spk.edges.headD 0))).toNat }) ∧
    (∃ (s : State), ∃ x, ∃ y, up s = true ∧ isMaster s = true ∧ s.env.vline = true ∧
      x = (if s.spk.freeRun then startPeriod (s.spk.origin + bpUs s) s else s) ∧ y = sendClear 1 255 2 (beaconBody x) x) ∧
    (∃ (s : State), ∃ (bytes : Bytes), ∃ b, up s = true ∧ onSpoke s = true ∧ s.env.vline = true ∧ beaconSealed s bytes = true ∧
      b = beaconOf bytes ∧ isMaster s = true ∧ b.network = s.cfg.spoke.network ∧ newer 16 b.authGen s.chr.authGen = true) ∧
    (∃ (s : State), ∃ (bytes : Bytes), ∃ b, up s = true ∧ onSpoke s = true ∧ s.env.vline = true ∧ beaconSealed s bytes = true ∧
      b = beaconOf bytes ∧ isMaster s = true ∧ b.network ≠ s.cfg.spoke.network) ∧
    (∃ (s : State), ∃ (bytes : Bytes), ∃ b, up s = true ∧ onSpoke s = true ∧ s.env.vline = true ∧ beaconSealed s bytes = true ∧
      b = beaconOf bytes ∧ isMaster s = false ∧ s.spk.master = none ∧ beaconNewer s b = true) ∧
    (∃ (s : State), ∃ (bytes : Bytes), ∃ b, ∃ m, up s = true ∧ onSpoke s = true ∧ s.env.vline = true ∧ beaconSealed s bytes = true ∧
      b = beaconOf bytes ∧ isMaster s = false ∧ s.spk.master = some m ∧ m.1 / 8 = b.src / 8 ∧ beaconNewer s b = true) ∧
    (∃ (s : State), ∃ (bytes : Bytes), ∃ b, ∃ m, up s = true ∧ onSpoke s = true ∧ s.env.vline = true ∧ beaconSealed s bytes = true ∧
      b = beaconOf bytes ∧ isMaster s = false ∧ s.spk.master = some m ∧ m.1 / 8 ≠ b.src / 8) ∧
    (∃ (s : State), ∃ m, up s = true ∧ onSpoke s = true ∧ isMaster s = false ∧ beaconCurrent s = true ∧ s.spk.master = some m) ∧
    (∃ (s : State), ∃ x, up s = true ∧ onSpoke s = true ∧ isJoined s = true ∧ isHub s = true ∧
      x = sendSlot 2 255 3 (grantBlock s ++ safeBlock s 151) s) ∧
    (∃ (s : State), ∃ x, up s = true ∧ onSpoke s = true ∧ isJoined s = true ∧ isHub s = false ∧
      x = sendSlot 3 255 1 (requestBlock s ++ safeBlock s 39) s) ∧
    (∃ (s : State), ∃ (slot : SlotMsg), ∃ text, up s = true ∧ onSpoke s = true ∧ s.env.vline = true ∧ slotSealed s slot = true ∧
      hdNet slot.head = s.cfg.spoke.network ∧ hdKind slot.head = 2 ∧ text = crypt s slot.period 0 slot.head slot.text ∧
        wordFresh (spkLink s (hdSrc slot.head)) (slot.period, hdIdx slot.head) 0 = true) ∧
    (∃ (s : State), ∃ (slot : SlotMsg), ∃ text, up s = true ∧ onSpoke s = true ∧ s.env.vline = true ∧ slotSealed s slot = true ∧
      hdNet slot.head = s.cfg.spoke.network ∧ hdKind slot.head ≠ 2 ∧ text = crypt s slot.period 0 slot.head slot.text ∧
        wordFresh (spkLink s (hdSrc slot.head)) (slot.period, hdIdx slot.head) 0 = true) ∧
    (∃ (s : State), ∃ (slot : SlotMsg), up s = true ∧ onSpoke s = true ∧ s.env.vline = true ∧ slotSealed s slot = true ∧
      hdNet slot.head = s.cfg.spoke.network ∧ wordFresh (spkLink s (hdSrc slot.head)) (slot.period, hdIdx slot.head) 0 = false) ∧
    (∃ (s : State), up s = true ∧ isHub s = true) ∧
    (∃ (s : State), ∃ post, up s = true ∧ isHub s = true ∧ 1 ≤ post) ∧
    (∃ (s : State), ∃ inRange, up s = true ∧ onSpoke s = true ∧ inRange ≠ s.env.vline) ∧
    (∃ (s : State), ∃ inRange, inRange = s.env.vline) :=
  ⟨⟨bench 1, 100, by decide +kernel⟩,
   ⟨{ spoke 2 with spk.missed := some 2, spk.master := some (1, 5), spk.joined := true }, 100, by decide +kernel⟩,
   ⟨99, by decide +kernel⟩,
   ⟨bench 1, by decide +kernel⟩,
   ⟨{ bench 1 with spk.freeRun := true, spk.zxGood := 8, spk.edges := [101] }, by decide +kernel⟩,
   ⟨{ bench 1 with spk.freeRun := true, spk.zxGood := 8, spk.edges := [100] }, _, by decide +kernel, by decide +kernel, by decide +kernel,
     by decide +kernel, by decide +kernel, rfl⟩,
   ⟨bench 1, _, _, by decide +kernel, by decide +kernel, by decide +kernel, rfl, rfl⟩,
   ⟨spoke 1, beaconBytes (spoke 1) 9 1 0, _, by decide +kernel, by decide +kernel, by decide +kernel,
     beacon_sealed rfl (by decide +kernel) (by decide +kernel) (by decide +kernel), rfl, by decide +kernel⟩,
   ⟨spoke 1, beaconBytes (spoke 1) 9 1 1, _, by decide +kernel, by decide +kernel, by decide +kernel,
     beacon_sealed rfl (by decide +kernel) (by decide +kernel) (by decide +kernel), rfl, by decide +kernel⟩,
   ⟨spoke 2, beaconBytes (spoke 2) 9 1 0, _, by decide +kernel, by decide +kernel, by decide +kernel,
     beacon_sealed rfl (by decide +kernel) (by decide +kernel) (by decide +kernel), rfl, by decide +kernel⟩,
   ⟨{ spoke 2 with spk.missed := some 2, spk.master := some (1, 5), spk.joined := true },
     beaconBytes ({ spoke 2 with spk.missed := some 2, spk.master := some (1, 5), spk.joined := true }) 1 6 0, _, (1, 5),
       by decide +kernel, by decide +kernel, by decide +kernel,
         beacon_sealed rfl (by decide +kernel) (by decide +kernel) (by decide +kernel), rfl, by decide +kernel⟩,
   ⟨{ spoke 2 with spk.missed := some 2, spk.master := some (1, 5), spk.joined := true },
     beaconBytes ({ spoke 2 with spk.missed := some 2, spk.master := some (1, 5), spk.joined := true }) 9 6 0, _, (1, 5),
       by decide +kernel, by decide +kernel, by decide +kernel,
         beacon_sealed rfl (by decide +kernel) (by decide +kernel) (by decide +kernel), rfl, by decide +kernel⟩,
   ⟨{ bench 2 with spk.missed := some 2, spk.master := some (1, 5), spk.joined := true }, (1, 5), by decide +kernel⟩,
   ⟨bench 1, _, by decide +kernel, by decide +kernel, by decide +kernel, by decide +kernel, rfl⟩,
   ⟨{ spoke 2 with spk.missed := some 2, spk.master := some (1, 5), spk.joined := true }, _, by decide +kernel, by decide +kernel,
     by decide +kernel, by decide +kernel, rfl⟩,
   ⟨spoke 1, slotSeal 2 (spoke 1), _, by decide +kernel, by decide +kernel, by decide +kernel, slot_sealed rfl, by decide +kernel,
     by decide +kernel, rfl, by decide +kernel⟩,
   ⟨spoke 1, slotSeal 3 (spoke 1), _, by decide +kernel, by decide +kernel, by decide +kernel, slot_sealed rfl, by decide +kernel,
     by decide +kernel, rfl, by decide +kernel⟩,
   ⟨{ spoke 1 with spk.links := [{ peer := 2, last := some (5, 2) }] },
     slotSeal 3 ({ spoke 1 with spk.links := [{ peer := 2, last := some (5, 2) }] }), by decide +kernel, by decide +kernel,
       by decide +kernel, slot_sealed rfl, by decide +kernel⟩,
   ⟨bench 1, by decide +kernel⟩,
   ⟨bench 1, 1, by decide +kernel⟩,
   ⟨bench 1, false, by decide +kernel⟩,
   ⟨bench 1, true, by decide +kernel⟩⟩

theorem witness_stack_commands_run :
    (∃ (s : State), ∃ (r : Req), Admits (.stkGetStatus r) s) ∧
    (∃ (s : State), ∃ (r : Req), ∃ chain, ∃ position, Admits (.stkGetCompanion r chain position) s ∧ chain < 2 ∧ 1 ≤ position ∧
      position ≤ chainLen s chain) ∧
    (∃ (s : State), ∃ (r : Req), ∃ string, ∃ soc, Admits (.stkSetSoc r string soc) s ∧ (stringCfg s string).isSome = true ∧ soc ≤ 1000) ∧
    (∃ (s : State), ∃ (r : Req), ∃ chain, ∃ position, Admits (.stkClearFault r chain position) s ∧ chain < 2 ∧ 1 ≤ chainLen s chain ∧
      position ≤ chainLen s chain ∧ (Machine.chain s chain).state ≠ 2 ∧ (Machine.chain s chain).state ≠ 3) :=
  ⟨⟨{ bench 1 with cfg.stack.companions := [0, 48], cfg.strings := [[3]] }, r0, by decide +kernel⟩,
   ⟨{ bench 1 with cfg.stack.companions := [0, 48], cfg.strings := [[3]] }, r0, 1, 48, by decide +kernel⟩,
   ⟨{ bench 1 with cfg.stack.companions := [0, 48], cfg.strings := [[3]] }, r0, 3, 1000, by decide +kernel⟩,
   ⟨{ bench 1 with cfg.stack.companions := [0, 48], cfg.strings := [[3]] }, r0, 1, 48, by decide +kernel⟩⟩

theorem witness_stack_steps_run :
    (∃ (s : State), up s = true ∧ ownsStack s = true ∧ (s.stk.chains.any fun h => h.reading.isSome) = false) ∧
    (∃ (s : State), ∃ chain, ∃ frame, up s = true ∧ shadowing s = false ∧ ownsStack s = true ∧ readAllOwn s chain frame = true ∧
      (Machine.chain s chain).reading = some false) ∧
    (∃ (s : State), ∃ chain, ∃ frame, up s = true ∧ shadowing s = false ∧ ownsStack s = true ∧ readAllOwn s chain frame = true ∧
      (Machine.chain s chain).reading = some true) ∧
    (∃ (s : State), up s = true ∧ shadowing s = true) ∧
    (∃ (s : State), ∃ chain, up s = true ∧ ownsStack s = true ∧ (Machine.chain s chain).reading = some false) ∧
    (∃ (s : State), ∃ chain, up s = true ∧ ownsStack s = true ∧ (Machine.chain s chain).reading = some true) ∧
    (∃ (s : State), ∃ chain, up s = true ∧ ownsStack s = true ∧ chainLen s chain ≠ 0 ∧ (Machine.chain s chain).enumDue = true) ∧
    (∃ (s : State), ∃ chain, ∃ counter, up s = true ∧ ownsStack s = true ∧ chainLen s chain ≠ 0 ∧ (Machine.chain s chain).enumDue = true ∧
      counter = chainLen s chain) ∧
    (∃ (s : State), ∃ chain, ∃ counter, up s = true ∧ ownsStack s = true ∧ chainLen s chain ≠ 0 ∧ (Machine.chain s chain).enumDue = true ∧
      counter ≠ chainLen s chain) ∧
    (∃ (s : State), ∃ chain, up s = true ∧ ownsStack s = true ∧ chainLen s chain ≠ 0 ∧ (Machine.chain s chain).enumDue = true ∧
      1 ≤ (Machine.chain s chain).tries) ∧
    (∃ (s : State), ∃ chain, up s = true ∧ ownsStack s = true ∧ chainLen s chain ≠ 0 ∧ (Machine.chain s chain).state = 4) ∧
    (∃ (s : State), up s = true ∧ ownsStack s = true) ∧
    (∃ (s : State), ∃ chain, up s = true ∧ (Machine.chain s chain).permit = true ∧ (Machine.chain s chain).loop.value = false) ∧
    (∃ (s : State), ∃ chain, up s = true ∧ (Machine.chain s chain).permit = false) :=
  ⟨⟨bench 1, by decide +kernel⟩,
   ⟨{ bench 1 with cfg.stack.companions := [48, 48], stk.chains := [{ reading := some false }, { reading := some false }] }, 1, [1],
     by decide +kernel⟩,
   ⟨{ bench 1 with cfg.stack.companions := [48, 48], stk.chains := [{ reading := some true, seq := 1 }, { reading := some true, seq := 1 }] }, 1, [1], by decide +kernel⟩,
   ⟨{ pairPart 5 .standby with stk.chains := [{}, {}] }, by decide +kernel⟩,
   ⟨{ bench 1 with cfg.stack.companions := [48, 48], stk.chains := [{ reading := some false }, { reading := some false }] }, 1,
     by decide +kernel⟩,
   ⟨{ bench 1 with cfg.stack.companions := [48, 48], stk.chains := [{ reading := some true }, { reading := some true }] }, 1,
     by decide +kernel⟩,
   ⟨{ bench 1 with cfg.stack.companions := [48, 48], stk.chains := [{ enumDue := true }, { enumDue := true }] }, 1, by decide +kernel⟩,
   ⟨{ bench 1 with cfg.stack.companions := [48, 48], stk.chains := [{ enumDue := true }, { enumDue := true }] }, 1, 48, by decide +kernel⟩,
   ⟨{ bench 1 with cfg.stack.companions := [48, 48], stk.chains := [{ enumDue := true }, { enumDue := true }] }, 1, 47, by decide +kernel⟩,
   ⟨{ bench 1 with cfg.stack.companions := [48, 48], stk.chains := [{ tries := 1 }, { tries := 1 }] }, 1, by decide +kernel⟩,
   ⟨{ bench 1 with cfg.stack.companions := [48, 48], stk.chains := [{ state := 4 }, { state := 4 }] }, 1, by decide +kernel⟩,
   ⟨bench 1, by decide +kernel⟩,
   ⟨{ bench 1 with cfg.stack.companions := [48, 48], stk.chains := [{ permit := true }, { permit := true }] }, 1, by decide +kernel⟩,
   ⟨bench 1, 1, by decide +kernel⟩⟩

theorem witness_step_runs_front_command :
    (∃ (s : State), ∃ (c : Instr), ∃ (rest : List Instr), s.pending = c :: rest) :=
  ⟨{ bench 1 with pending := [.alcGetStatus r0] }, .alcGetStatus r0, [], by decide +kernel⟩

theorem witness_supply_and_fault_steps_run :
    (∃ (s : State), up s = true) ∧
    (∃ (s : State), up s = false ∧ outOfReset s = true) ∧
    (∃ (s : State), ∃ cause, hasKick s cause = true ∧ causeCleared s cause = true ∧ cause ≠ 0x0301) ∧
    (∃ (s : State), hasKick s 0x0301 = true ∧ 4000 ≤ s.saf.compareOk) ∧
    (∃ (s : State), outOfReset s = true ∧ s.sys.belowSupply = false) ∧
    (∃ (s : State), outOfReset s = true ∧ s.sys.belowSupply = true) ∧
    (∃ (s : State), outOfReset s = true) ∧
    (∃ (s : State), s.sys.rtcLost = false ∧ outOfReset s = true) ∧
    (∃ (s : State), s.sys.rtcLost = false ∧ outOfReset s = false) ∧
    (∃ (s : State), ∃ engine, ∃ address, ∃ write, outOfReset s = true ∧ firewallRefuses engine address write = true ∧
      (4 ≤ engine && engine ≤ 6) = false) ∧
    (∃ (s : State), ∃ engine, ∃ address, ∃ write, outOfReset s = true ∧ firewallRefuses engine address write = true ∧ 4 ≤ engine ∧
      engine ≤ 6) ∧
    (∃ (s : State), ∃ engine, outOfReset s = true ∧ (4 ≤ engine && engine ≤ 6) = false) ∧
    (∃ (s : State), ∃ engine, outOfReset s = true ∧ 4 ≤ engine ∧ engine ≤ 6) ∧
    (∃ (s : State), ∃ sector, outOfReset s = true ∧ s.nv.badSectors.contains sector = false ∧ recorderSector sector = false) :=
  ⟨⟨bench 1, by decide +kernel⟩,
   ⟨{ State.reset with sys.phase := .verify }, by decide +kernel⟩,
   ⟨{ bench 1 with sys.kicks := [{ code := 0x0304 }] }, 0x0304, by decide +kernel⟩,
   ⟨{ bench 1 with sys.kicks := [{ code := 0x0301 }], saf.compareOk := 4000 }, by decide +kernel⟩,
   ⟨bench 1, by decide +kernel⟩,
   ⟨{ bench 1 with sys.belowSupply := true }, by decide +kernel⟩,
   ⟨bench 1, by decide +kernel⟩,
   ⟨bench 1, by decide +kernel⟩,
   ⟨State.reset, by decide +kernel⟩,
   ⟨bench 1, 7, 0xFFFFFFFF, true, by decide +kernel⟩,
   ⟨bench 1, 4, 0xFFFFFFFF, true, by decide +kernel⟩,
   ⟨bench 1, 11, by decide +kernel⟩,
   ⟨bench 1, 5, by decide +kernel⟩,
   ⟨bench 1, 591, by decide +kernel⟩⟩

theorem witness_system_commands_run :
    (∃ (s : State), ∃ (r : Req), ∃ data, Admits (.sysEchoPayload r data) s) ∧
    (∃ (s : State), ∃ (r : Req), ∃ channel, Admits (.sysGetChannelStats r channel) s ∧ channel < 4) ∧
    (∃ (s : State), ∃ (r : Req), Admits (.sysGetBootInfo r) s) ∧
    (∃ (s : State), ∃ (r : Req), Admits (.sysResetPart r) s) ∧
    (∃ (s : State), ∃ (r : Req), Admits (.sysEnterKickstand r) s) ∧
    (∃ (s : State), ∃ (r : Req), Admits (.sysGetKickstand r) s) ∧
    (∃ (s : State), ∃ (r : Req), Admits (.sysReleaseKickstand r) s ∧ (∀ c ∈ s.sys.kicks, c.gone = true) ∧ (∀ c ∈ s.sys.kicks,
      kickSafety c.code = true → c.resetGiven = true) ∧ kicked s = true) ∧
    (∃ (s : State), ∃ (r : Req), Admits (.sysReleaseKickstand r) s ∧ kicked s = false) ∧
    (∃ (s : State), ∃ (r : Req), Admits (.sysGetLifecycle r) s) ∧
    (∃ (s : State), ∃ (r : Req), ∃ target, ∃ token, ∃ authority, Admits (.sysSetLifecycle r target token) s ∧
      (transition (lifecycle s) target).isSome = true ∧ preconditions s target = true ∧ tokenAuthority s target token = some authority ∧
        (target = lcField → safeRunning s = true)) ∧
    (∃ (s : State), ∃ (r : Req), ∃ offset, ∃ data, Admits (.sysWriteImage r 0 offset data) s ∧ offset + data.length ≤ imageSlotSize 0 ∧
      trialRunning s = false ∧ activating (started r s) 0 = false) ∧
    (∃ (s : State), ∃ (r : Req), ∃ offset, ∃ data, Admits (.sysWriteImage r 1 offset data) s ∧ offset + data.length ≤ imageSlotSize 1 ∧
      activating (started r s) 1 = false) ∧
    (∃ (s : State), ∃ (r : Req), ∃ target, Admits (.sysActivateImage r target) s ∧ target ≤ 1 ∧ (target = 0 → trialRunning s = false) ∧
      activating (started r s) target = false) ∧
    (∃ (s : State), ∃ (r : Req), Admits (.sysConfirmImage r) s ∧ trialRunning s = true) :=
  ⟨⟨bench 1, r0, List.replicate 4064 0, by decide +kernel⟩,
   ⟨bench 1, r0, 3, by decide +kernel⟩,
   ⟨bench 1, r0, by decide +kernel⟩,
   ⟨bench 1, r0, by decide +kernel⟩,
   ⟨bench 1, r0, by decide +kernel⟩,
   ⟨bench 1, r0, by decide +kernel⟩,
   ⟨{ bench 1 with sys.kicks := [{ code := 0x0601, gone := true }] }, r0, by decide +kernel⟩,
   ⟨bench 1, r0, by decide +kernel⟩,
   ⟨bench 1, r0, by decide +kernel⟩,
   ⟨withKey 4 (publicKey 6 0x11) { bench 1 with sys.lcNonce := some [1] }, r0, 6,
     { target := 6, identity := identity (withKey 4 (publicKey 6 0x11) { bench 1 with sys.lcNonce := some [1] }), nonce := [1], ownerKey := [], sig := { key := [9], msg := tokenSigned { target := 6, identity := identity (withKey 4 (publicKey 6 0x11) { bench 1 with sys.lcNonce := some [1] }), nonce := [1], ownerKey := [], sig := default } } }, 1, by decide +kernel, by decide +kernel, by decide +kernel, token_ok rfl rfl rfl rfl rfl (by decide +kernel) (sig_ok (by decide +kernel) rfl rfl), by decide +kernel⟩,
   ⟨bench 1, r0, 16773216, List.replicate 4000 1, by decide +kernel⟩,
   ⟨bench 1, r0, 2093152, List.replicate 4000 1, by decide +kernel⟩,
   ⟨bench 1, r0, 1, by decide +kernel⟩,
   ⟨{ bench 1 with nv.onTrial := true, sys.trial := 1 }, r0, by decide +kernel⟩⟩

theorem witness_vehicle_link_steps_run :
    (∃ (s : State), ∃ slot, ∃ (vPlus vMinus : Int), ∃ pps, ∃ raw, ∃ x, ∃ y, up s = true ∧ localSlot s slot = true ∧ slot ≠ 2 ∧
      linkType s slot ≠ lkMcs ∧ x = sampleProx slot pps s ∧ linkType x slot = linkType s slot ∧ (link x slot).drive ≠ driveF ∧
        (link x slot).drive ≠ driveOff ∧ raw = pilotRaw (link x slot).drive vPlus vMinus ∧
          y = onLink slot (fun l => { l with vPlus := vPlus, vMinus := if (link x slot).drive = driveX2 then vMinus else 0 }) x) ∧
    (∃ (s : State), ∃ slot, ∃ pps, ∃ x, up s = true ∧ localSlot s slot = true ∧ slot ≠ 2 ∧ x = sampleProx slot pps s ∧
      ((link x slot).drive = driveF ∨ (link x slot).drive = driveOff)) ∧
    (∃ (s : State), up s = true ∧ localSlot s 2 = true) ∧
    (∃ (s : State), ∃ slot, up s = true ∧ localSlot s slot = true) ∧
    (∃ (s : State), ∃ slot, up s = true ∧ localSlot s slot = true ∧ linkFilter s slot ≤ (link s slot).prox.run ∧
      (link s slot).prox.value ≠ (link s slot).prox.raw) ∧
    (∃ (s : State), ∃ slot, up s = true ∧ localSlot s slot = true ∧ (link s slot).prox.value = (link s slot).prox.raw) ∧
    (∃ (s : State), up s = true ∧ s.sys.role = 6 ∧ localSlot s 2 = true ∧ linkFilter s 2 ≤ (link s 2).pilot.run ∧
      (link s 2).pilot.value ≠ (link s 2).pilot.raw) ∧
    (∃ (s : State), ∃ slot, ∃ runId, up s = true ∧ mayMatch s slot = true ∧ charOf (linkCount slot lsFrames s) slot runId = none ∧
      (link (linkCount slot lsFrames s) slot).chars.length < 4) ∧
    (∃ (s : State), ∃ slot, ∃ runId, ∃ (sounds : List (List Nat)), up s = true ∧ mayMatch s slot = true ∧ sounds.flatten ≠ [] ∧
      (charOf s slot runId).isSome = true) ∧
    (∃ (s : State), ∃ slot, up s = true ∧ mayMatch s slot = true) ∧
    (∃ (s : State), ∃ slot, ∃ runId, ∃ a, up s = true ∧ linkType s slot = lkCcs ∧
      matchAtten (linkCount slot lsFrames s) slot runId = some a) ∧
    (∃ (s : State), ∃ slot, ∃ runId, up s = true ∧ linkType s slot = lkCcs ∧ matchAtten (linkCount slot lsFrames s) slot runId = none) ∧
    (∃ (s : State), ∃ slot, up s = true ∧ linkType s slot = lkMcs ∧ (link s slot).prox.value = 1) ∧
    (∃ (s : State), ∃ slot, up s = true ∧ linkType s slot = lkMcs) ∧
    (∃ (s : State), ∃ gpio, ∃ level, ∃ x, ∃ y, up s = true ∧ gpio < 16 ∧
      x = { s with gpio := if level then s.gpio ||| 2 ^ gpio else s.gpio &&& (0xFFFF - 2 ^ gpio) } ∧
        y = raiseIf (bit s.gpio gpio != level && !(bridgedOn x gpio).isEmpty) evOutBridge x) ∧
    (∃ (s : State), ∃ slot, up s = true ∧ linkType s slot = lkCcs) :=
  ⟨⟨onLink 0 (fun l => { l with drive := 1 }) post, 0, 900, -1200, 100, _, _, _, by decide +kernel, by decide +kernel, by decide +kernel,
    by decide +kernel, rfl, by decide +kernel, by decide +kernel, by decide +kernel, rfl, rfl⟩,
   ⟨post, 1, 100, _, by decide +kernel, by decide +kernel, by decide +kernel, rfl, by decide +kernel⟩,
   ⟨{ bench 6 with cfg.links := [[2, 1]] }, by decide +kernel⟩,
   ⟨post, 1, by decide +kernel⟩,
   ⟨onLink 1 (fun l => { l with prox := { raw := 1, run := 4, value := 255 } }) post, 1, by decide +kernel⟩,
   ⟨onLink 1 (fun l => { l with prox := { raw := 1, run := 4, value := 1 } }) post, 1, by decide +kernel⟩,
   ⟨onLink 2 (fun l => { l with pilot := { raw := 1, run := 3, value := 255 } }) ({ bench 6 with cfg.links := [[2, 1]] }),
     by decide +kernel⟩,
   ⟨onLink 0 (fun l => { l with drive := 1, pilot := { value := 1 } }) post, 0, [], by decide +kernel⟩,
   ⟨onLink 0 (fun l => { l with drive := 1, pilot := { value := 1 }, chars := [{ run := [7], mac := [1] }] }) post, 0, [7], [[20, 30]],
     by decide +kernel⟩,
   ⟨onLink 0 (fun l => { l with drive := 1, pilot := { value := 1 } }) post, 0, by decide +kernel⟩,
   ⟨onLink 0 (fun l => { l with drive := 1, pilot := { value := 1 }, chars := [{ run := [7], mac := [1], atten := some (20, 1) }] }) post,
     0, [7], (20, 1), by decide +kernel⟩,
   ⟨post, 1, [7], by decide +kernel⟩,
   ⟨onLink 0 (fun l => { l with prox := { value := 1 } }) { post with cfg.links := [[0, 2], [1, 2]] }, 0, by decide +kernel⟩,
   ⟨{ post with cfg.links := [[0, 2], [1, 2]] }, 1, by decide +kernel⟩,
   ⟨bench 2, 15, true, _, _, by decide +kernel, by decide +kernel, rfl, rfl⟩,
   ⟨post, 1, by decide +kernel⟩⟩

theorem witness_final_response_frees_tag :
    (∃ (r : Req) (s : State), reachable (chan s r.ch) = true ∧ s.channelsOk ∧ r.ch < 4 ∧ r.tag < 32) ∧
    (∃ (r : Req) (s : State), reachable (chan s r.ch) = false) ∧
    (∃ (r : Req) (ch tag : Nat), ch = r.ch ∧ tag ≠ r.tag) ∧ ∃ (r : Req) (ch : Nat), ch ≠ r.ch :=
  ⟨⟨{ ch := 3, tag := 31 }, bench 1, rfl, bench_sound.2.1, by decide, by decide⟩, ⟨{ ch := 1 }, streaming false, rfl⟩,
   ⟨r0, 0, 31, by decide⟩, ⟨r0, 3, by decide⟩⟩

theorem witness_request_check_order :
    (∃ (c : Instr) (k : Cmd) (r : Req) (s : State), tableRow c = some (k, r) ∧ serves s r.ch = true ∧ opServed k s = true ∧ k.fits = false) ∧
    (∃ (c : Instr) (k : Cmd) (r : Req) (s : State), tableRow c = some (k, r) ∧ serves s r.ch = true ∧ k.fits = true ∧
      (tagOf (chan s r.ch) r.tag).used = true) ∧
    (∃ (c : Instr) (k : Cmd) (r : Req) (s : State), tableRow c = some (k, r) ∧ serves s r.ch = true ∧ opServed k s = false ∧
      (tagOf (chan s r.ch) r.tag).used = true) ∧
    (∃ (c : Instr) (k : Cmd) (r : Req) (s : State) (f : Bytes), tableRow c = some (k, r) ∧ serves s r.ch = true ∧ k.fits = true ∧
      (tagOf (chan s r.ch) r.tag).used = false ∧ (tagOf (chan s r.ch) r.tag).kept = some (r.seq, f) ∧ mayRetry s r = true) ∧
    ∃ (c : Instr) (k : Cmd) (r : Req) (s : State) (st : Nat), tableRow c = some (k, r) ∧ serves s r.ch = true ∧ k.fits = true ∧
      (tagOf (chan s r.ch) r.tag).used = false ∧ (∀ f, (tagOf (chan s r.ch) r.tag).kept = some (r.seq, f) → mayRetry s r = false) ∧
      firstOf [(!opServed k s, stBadOpcode), (!owned k s, stNotInRole), (k.secure && r.world != 1, stDeniedWorld), (r.world > 1, stDeniedWorld),
        (!bit k.states (lifecycle s), stDeniedLifecycle), (credFails s r || !credMeets k (credKind s r), stDeniedCredential),
        (!k.kick && kicked s, stKickstand)] = some st :=
  ⟨⟨.sysEchoPayload r0 (List.replicate 4065 0), { op := 0x0101, fits := false }, r0, bench 1, by decide +kernel⟩,
   ⟨.alcGetStatus r0, { op := 0x0201, own := .hub, reads := true }, r0, onTag 0 3 (fun t => { t with used := true }) (bench 1), rfl, by decide +kernel⟩,
   ⟨.alcGetStatus r0, { op := 0x0201, own := .hub, reads := true }, r0,
    onTag 0 3 (fun t => { t with used := true }) { bench 1 with sys.phase := .failed }, rfl, by decide +kernel⟩,
   ⟨.alcGetStatus { r0 with retry := true }, { op := 0x0201, own := .hub, reads := true }, { r0 with retry := true },
    onTag 0 3 (fun t => { t with kept := some (7, [1]) }) (bench 1), [1], rfl, by decide +kernel⟩,
   ⟨.alcGetStatus r0, { op := 0x0201, own := .hub, reads := true }, r0, bench 2, stNotInRole, rfl, by decide +kernel, rfl, by decide +kernel,
    (fun _ h => nomatch h), by decide +kernel⟩⟩

theorem witness_key_write_generations_both :
    ∃ (n : Nat) (k : KeySlot) (w : KeyCopy), slotWinner n k = some w ∧ copyGood n k.a = true ∧ copyGood n k.b = true ∧
      k.a.generation = k.b.generation :=
  ⟨255, {}, {}, by decide +kernel⟩

theorem witness_ring_indices :
    ∃ (s : State) (ch : Nat) (f : Bytes), s.sound ∧ ch < 4 ∧ (chan s ch).binding = 0 ∧ (chan s ch).rspProd < 64 ∧ (chan s ch).rspCons < 64 ∧
      rspFull (chan s ch) = false ∧ (chan s ch).held = [] ∧ f.length ≤ 4096 :=
  ⟨bench 1, 3, [], bench_sound, by decide, rfl, by decide +kernel, by decide +kernel, by decide +kernel, rfl, by decide⟩

theorem witness_ring_memory_reads_back :
    ∃ (m : Mem) (a : Nat) (b : Bytes) (x : Nat), Memory.wf m ∧ (x < a ∨ a + b.length ≤ x) :=
  ⟨[(31, 5)], 31, [1, 2], 33, by decide, by decide⟩

/-- A sound state whose step does something, for the three statements about every step of a sound state. -/
theorem witness_step_of_sound : ∃ s t : State, s.sound ∧ step s = .next t ∧ t ≠ s :=
  ⟨{ bench 1 with pending := [.chrClearCounters r0 5] }, _, bench_sound, rfl, fun h => nomatch congrArg State.pending h⟩
theorem witness_step_keeps_sound : ∃ s t : State, s.sound ∧ step s = .next t := let ⟨s, t, h, e, _⟩ := witness_step_of_sound; ⟨s, t, h, e⟩
theorem witness_step_takes_front_command : ∃ s t : State, s.sound ∧ step s = .next t := witness_step_keeps_sound
theorem witness_step_never_falls_behind : ∃ s t : State, s.sound ∧ step s = .next t := witness_step_keeps_sound

end Sys2Proof.Tests
end

/-! ### Requests refused by checks 5 to 10 of R64 -/

namespace Sys2Proof.Machine

/-- Check 6 gives the verdict on a command that is served and that the role does not own. -/
theorem verdict_not_owned {k : Cmd} {s : State} (r : Req) (hop : opServed k s = true) (hown : owned k s = false) :
    verdict k r s = some stNotInRole := by
  simp [verdict, hop, hown]

/-- A request that passes checks 3 and 4 and repeats no kept response is refused with the verdict of checks 5 to 10. -/
theorem gate_refused {k : Cmd} {r : Req} {s : State} {st : Nat} (hserves : serves s r.ch = true)
    (hlength : opServed k s = false ∨ k.fits = true) (hfree : (tagOf (chan s r.ch) r.tag).used = false)
    (hkept : ∀ f, (tagOf (chan s r.ch) r.tag).kept = some (r.seq, f) → mayRetry s r = false)
    (hverdict : verdict k r s = some st) : gate k r s = .stop (refuse k r st s) := by
  have hcheck3 : (opServed k s && !k.fits) = false := by
    obtain h | h := hlength <;> simp [h]
  unfold gate
  simp only [hserves, hcheck3, hfree, hverdict, Bool.not_true, Bool.false_eq_true, ↓reduceIte]
  cases hk : (tagOf (chan s r.ch) r.tag).kept with
  | none => rfl
  | some p =>
    obtain ⟨q, f⟩ := p
    have hretry : (mayRetry s r && q == r.seq) = false := by
      by_cases hq : q = r.seq
      · simp [hkept f (hq ▸ hk)]
      · simp [hq]
    simp [hretry]

/-- A command of the tables that passes checks 3 and 4 and repeats no kept response is refused with the verdict of checks 5 to 10. -/
theorem exec_refused {c : Instr} {k : Cmd} {r : Req} {s : State} {st : Nat} (hrow : tableRow c = some (k, r))
    (hserves : serves s r.ch = true) (hlength : opServed k s = false ∨ k.fits = true)
    (hfree : (tagOf (chan s r.ch) r.tag).used = false)
    (hkept : ∀ f, (tagOf (chan s r.ch) r.tag).kept = some (r.seq, f) → mayRetry s r = false)
    (hverdict : verdict k r s = some st) : exec c s = .next (refuse k r st s) := by
  obtain ⟨body, hexec⟩ := exec_table hrow s
  rw [hexec, command, gate_refused hserves hlength hfree hkept hverdict]

/-- Check 9 is not reached by a command that the role does not own. -/
theorem reachesCred_not_owned {k : Cmd} {s : State} (r : Req) (hown : owned k s = false) : reachesCred k r s = false := by
  simp [reachesCred, hown]

/-- A tag that keeps no response makes no request a retry with a wrong authenticator. -/
theorem badRetry_kept_none {r : Req} {s : State} (hkept : (tagOf (chan s r.ch) r.tag).kept = none) : badRetry s r = false := by
  simp [badRetry, hkept]

/-- A request refused before check 9, on a tag that keeps no response, is counted and answered; no credential is touched. -/
theorem refuse_before_cred {k : Cmd} {r : Req} {s : State} (st : Nat) (hcred : reachesCred k r s = false)
    (hretry : badRetry s r = false) :
    refuse k r st s = finish r k.op st (authKey s r) [] (count r.ch statFrames s) := by
  simp [refuse, hcred, hretry]

/-- A final answer to a counted frame changes only the mailbox and the event window. -/
theorem finish_count_mbx_win (r : Req) (op st i : Nat) (key : Option Bytes) (p : Bytes) (s : State) :
    ∃ m w, finish r op st key p (count r.ch i s) = { s with mbx := m, win := w } :=
  ⟨_, _, finish_mbx r op st key p (count r.ch i s)⟩

/-- Settles O11: check 6 of R64 gives the verdict, so the row's meaning never starts, and the refusal is a final answer. -/
theorem commandNotInRole : Obligations.CommandNotInRole := by
  intro c k r s hrow hserves hfits hfree hkept hop hown
  have hexec : exec c s = .next (refuse k r stNotInRole s) :=
    exec_refused hrow hserves (.inr hfits) hfree (by simp [hkept]) (verdict_not_owned r hop hown)
  rw [refuse_before_cred stNotInRole (reachesCred_not_owned r hown) (badRetry_kept_none hkept)] at hexec
  exact ⟨hexec, finish_count_mbx_win ..⟩

end Sys2Proof.Machine

/-! ### The memory of the rings (R45, R46) -/

namespace Sys2Proof.Machine

/-- Reading is determined byte by byte: a string that gives every byte of the memory from an address on is what reading there gives. -/
theorem memReads_eq {m : Mem} {b : Bytes} {a : Nat} (h : ∀ i, i < b.length → memRead m (a + i) = b.getD i 0) :
    memReads m a b.length = b := by
  induction b generalizing a with
  | nil => rfl
  | cons x b ih =>
    have hhead : memRead m a = x := by simpa using h 0 (by simp)
    have htail : memReads m (a + 1) b.length = b := ih fun i hi => by
      simpa [Nat.add_right_comm, Nat.add_assoc] using h (i + 1) (by simpa using hi)
    rw [List.length_cons, memReads, hhead, htail]

/-- A byte string that has been written reads back. -/
theorem memReads_memWrites {m : Mem} (a : Nat) (b : Bytes) (h : Memory.wf m) : memReads (memWrites m a b) a b.length = b :=
  memReads_eq fun i hi => by rw [memRead_memWrites a (a + i) b h, if_pos (by omega), Nat.add_sub_cancel_left]

/-- Writing a byte string leaves every byte outside it. -/
theorem memRead_memWrites_outside {m : Mem} {a x : Nat} {b : Bytes} (h : Memory.wf m) (hx : x < a ∨ a + b.length ≤ x) :
    memRead (memWrites m a b) x = memRead m x := by
  rw [memRead_memWrites a x b h, if_neg (by omega)]

/-- Settles O15: the canonical form is kept, and a read after a write is decided by the address alone. -/
theorem ringMemoryReadsBack : Obligations.RingMemoryReadsBack := fun _ a b h =>
  ⟨memWrites_wf a b h, memReads_memWrites a b h, fun _ hx => memRead_memWrites_outside h hx⟩

end Sys2Proof.Machine

/-! ### The order of the request checks (R64, R67), and what a request leaves unchanged that they do not admit -/

namespace Sys2Proof.Machine

/-- The verdict of checks 5 to 10 is the status of the first that fails. -/
theorem verdict_eq_firstOf (k : Cmd) (r : Req) (s : State) :
    verdict k r s = firstOf [(!opServed k s, stBadOpcode), (!owned k s, stNotInRole), (k.secure && r.world != 1, stDeniedWorld),
      (r.world > 1, stDeniedWorld), (!bit k.states (lifecycle s), stDeniedLifecycle),
      (credFails s r || !credMeets k (credKind s r), stDeniedCredential), (!k.kick && kicked s, stKickstand)] := by
  simp only [verdict, firstOf, decide_eq_true_eq]

/-- Check 5 comes first: an opcode that is not served has no other verdict. -/
theorem opServed_of_verdict_none {k : Cmd} {r : Req} {s : State} (h : verdict k r s = none) : opServed k s = true := by
  cases hop : opServed k s with
  | true => rfl
  | false => simp [verdict, hop] at h

/-- A channel that the mailbox does not serve drops the request. -/
theorem gate_not_serving {k : Cmd} {r : Req} {s : State} (hserves : serves s r.ch = false) : gate k r s = .drop s := by
  simp [gate, hserves]

/-- Check 3: an opcode that is served is held to its payload length. -/
theorem gate_bad_length {k : Cmd} {r : Req} {s : State} (hserves : serves s r.ch = true) (hop : opServed k s = true)
    (hfits : k.fits = false) : gate k r s = .stop (badLength k.op r s) := by
  simp [gate, hserves, hop, hfits]

/-- Check 3 passes an opcode that is not served, and a payload of the right length. -/
theorem check3_passes {k : Cmd} {s : State} (h : opServed k s = false ∨ k.fits = true) : (opServed k s && !k.fits) = false := by
  obtain h | h := h <;> simp [h]

/-- Check 4 on a tag that a command holds: its retry is absorbed, any other request is answered ST_TAG_IN_USE. -/
theorem gate_tag_used {k : Cmd} {r : Req} {s : State} (hserves : serves s r.ch = true)
    (hlength : opServed k s = false ∨ k.fits = true) (hused : (tagOf (chan s r.ch) r.tag).used = true) :
    gate k r s = if mayRetry s r && (tagOf (chan s r.ch) r.tag).seq == r.seq
      then .drop (count r.ch statAbsorbed (count r.ch statFrames s))
      else .stop (answerOnly r k.op stTagInUse (authKey s r) [] (count r.ch statTag (count r.ch statFrames s))) := by
  simp only [gate, hserves, check3_passes hlength, hused, Bool.not_true, Bool.false_eq_true, ↓reduceIte]

/-- Check 4 on a free tag: a retry of the kept response gets that response again (R67). -/
theorem gate_retry_served {k : Cmd} {r : Req} {s : State} {f : Bytes} (hserves : serves s r.ch = true)
    (hlength : opServed k s = false ∨ k.fits = true) (hfree : (tagOf (chan s r.ch) r.tag).used = false)
    (hkept : (tagOf (chan s r.ch) r.tag).kept = some (r.seq, f)) (hretry : mayRetry s r = true) :
    gate k r s = .drop (sendFrame r.ch f (count r.ch statServed (count r.ch statFrames s))) := by
  simp [gate, hserves, check3_passes hlength, hfree, hkept, hretry]

/-- What the request checks come to, when they do not start the command, is the answer of the whole command. -/
theorem command_of_gate {k : Cmd} {r : Req} {s t : State} (body : State → Reply)
    (h : gate k r s = .drop t ∨ gate k r s = .stop t) : command k r body s = .next t := by
  obtain h | h := h <;> rw [command, h]

/-- A command of the tables that the request checks stop answers with what they leave. -/
theorem exec_of_gate {c : Instr} {k : Cmd} {r : Req} {s t : State} (hrow : tableRow c = some (k, r))
    (h : gate k r s = .drop t ∨ gate k r s = .stop t) : exec c s = .next t := by
  obtain ⟨body, hexec⟩ := exec_table hrow s
  rw [hexec, command_of_gate body h]

/-- Settles O12: one clause for each of checks 3 and 4, the retry, and the verdict of checks 5 to 10. -/
theorem requestCheckOrder : Obligations.RequestCheckOrder := by
  intro c k r s hrow hserves
  refine ⟨fun hop hfits => ?badLength, fun hlength hused => ?tagUsed, fun f hlength hfree hkept hretry => ?retry,
    fun st hlength hfree hkept hfirst => ?verdict⟩
  case badLength => exact exec_of_gate hrow (.inr (gate_bad_length hserves hop hfits))
  case tagUsed =>
    have hgate := gate_tag_used hserves hlength hused
    split
    next hretry => exact exec_of_gate hrow (.inl (by rw [hgate, if_pos hretry]))
    next hretry => exact exec_of_gate hrow (.inr (by rw [hgate, if_neg hretry]))
  case retry => exact exec_of_gate hrow (.inl (gate_retry_served hserves hlength hfree hkept hretry))
  case verdict => exact exec_refused hrow hserves hlength hfree hkept ((verdict_eq_firstOf k r s).trans hfirst)

/-- The state `t` is `s` but for the mailbox and the event window. -/
def OnlyMailbox (s t : State) : Prop := ∃ m w, t = { s with mbx := m, win := w }

theorem OnlyMailbox.refl (s : State) : OnlyMailbox s s := ⟨_, _, rfl⟩

theorem OnlyMailbox.trans {s t u : State} (hst : OnlyMailbox s t) (htu : OnlyMailbox t u) : OnlyMailbox s u := by
  obtain ⟨m, w, rfl⟩ := hst
  obtain ⟨m', w', rfl⟩ := htu
  exact ⟨m', w', rfl⟩

theorem onlyMailbox_onChan (ch : Nat) (f : Channel → Channel) (s : State) : OnlyMailbox s (onChan ch f s) := ⟨_, _, rfl⟩

theorem onlyMailbox_count (ch i : Nat) (s : State) : OnlyMailbox s (count ch i s) := onlyMailbox_onChan ..

theorem onlyMailbox_raise (n : Nat) (s : State) : OnlyMailbox s (raise n s) := ⟨_, _, rfl⟩

theorem onlyMailbox_sendFrame (ch : Nat) (f : Bytes) (s : State) : OnlyMailbox s (sendFrame ch f s) := ⟨_, _, sendFrame_mbx ..⟩

theorem onlyMailbox_answerOnly (r : Req) (op st : Nat) (key : Option Bytes) (p : Bytes) (s : State) :
    OnlyMailbox s (answerOnly r op st key p s) := ⟨_, _, answerOnly_mbx ..⟩

theorem onlyMailbox_finish (r : Req) (op st : Nat) (key : Option Bytes) (p : Bytes) (s : State) :
    OnlyMailbox s (finish r op st key p s) := ⟨_, _, finish_mbx ..⟩

/-- The bookkeeping of check 9 is the channel's, with the event EV_MBX_CRED. -/
theorem onlyMailbox_noteCred (r : Req) (failed : Bool) (s : State) : OnlyMailbox s (noteCred r failed s) := by
  unfold noteCred
  split
  · exact .refl s
  · split
    · exact ((onlyMailbox_onChan ..).trans (onlyMailbox_count ..)).trans (onlyMailbox_raise ..)
    · exact onlyMailbox_onChan ..

theorem onlyMailbox_badLength (op : Nat) (r : Req) (s : State) : OnlyMailbox s (badLength op r s) := by
  unfold badLength
  refine (onlyMailbox_count r.ch statFrames s).trans ?_
  split
  · exact onlyMailbox_answerOnly ..
  · exact onlyMailbox_finish ..

/-- The state in which a refusal is answered: the frame counted, and check 9 noted where it is reached. -/
def refusing (k : Cmd) (r : Req) (s : State) : State :=
  if reachesCred k r s then noteCred r (credFails s r) (count r.ch statFrames s) else count r.ch statFrames s

theorem onlyMailbox_refusing (k : Cmd) (r : Req) (s : State) : OnlyMailbox s (refusing k r s) := by
  unfold refusing
  split
  · exact (onlyMailbox_count ..).trans (onlyMailbox_noteCred ..)
  · exact onlyMailbox_count ..

theorem refuse_eq (k : Cmd) (r : Req) (st : Nat) (s : State) :
    refuse k r st s = if badRetry s r then answerOnly r k.op st (authKey s r) [] (refusing k r s)
      else finish r k.op st (authKey s r) [] (refusing k r s) := rfl

theorem onlyMailbox_refuse (k : Cmd) (r : Req) (st : Nat) (s : State) : OnlyMailbox s (refuse k r st s) := by
  rw [refuse_eq]
  split
  · exact (onlyMailbox_refusing k r s).trans (onlyMailbox_answerOnly ..)
  · exact (onlyMailbox_refusing k r s).trans (onlyMailbox_finish ..)

/-- A request that passes checks 3 to 10 and repeats no kept response is admitted. -/
theorem admitted_of_checks {k : Cmd} {r : Req} {s : State} (hserves : serves s r.ch = true)
    (hlength : opServed k s = false ∨ k.fits = true) (hfree : (tagOf (chan s r.ch) r.tag).used = false)
    (hkept : ∀ f, (tagOf (chan s r.ch) r.tag).kept = some (r.seq, f) → mayRetry s r = false)
    (hverdict : verdict k r s = none) : admitted k r s = true := by
  have hfits : k.fits = true := hlength.resolve_left (by simp [opServed_of_verdict_none hverdict])
  unfold admitted
  rw [hserves, hfits, hfree, hverdict]
  cases hk : (tagOf (chan s r.ch) r.tag).kept with
  | none => rfl
  | some p =>
    obtain ⟨q, f⟩ := p
    by_cases hq : q = r.seq
    · simp [hkept f (hq ▸ hk)]
    · simp [hq]

/-- A request that is not admitted is dropped or stopped, and only the mailbox and the event window change. -/
theorem gate_not_admitted {k : Cmd} {r : Req} {s : State} (h : ¬admitted k r s = true) :
    ∃ t, OnlyMailbox s t ∧ (gate k r s = .drop t ∨ gate k r s = .stop t) := by
  have hcounted (i : Nat) : OnlyMailbox s (count r.ch i (count r.ch statFrames s)) :=
    (onlyMailbox_count ..).trans (onlyMailbox_count ..)
  cases hserves : serves s r.ch with
  | false => exact ⟨s, .refl s, .inl (gate_not_serving hserves)⟩
  | true =>
  by_cases hlength : opServed k s = false ∨ k.fits = true
  case neg =>
    obtain ⟨hop, hfits⟩ : opServed k s = true ∧ k.fits = false := by simpa using hlength
    exact ⟨_, onlyMailbox_badLength .., .inr (gate_bad_length hserves hop hfits)⟩
  cases hused : (tagOf (chan s r.ch) r.tag).used with
  | true =>
    have hgate := gate_tag_used hserves hlength hused
    split at hgate
    · exact ⟨_, hcounted _, .inl hgate⟩
    · exact ⟨_, (hcounted _).trans (onlyMailbox_answerOnly ..), .inr hgate⟩
  | false =>
  by_cases hkept : ∀ f, (tagOf (chan s r.ch) r.tag).kept = some (r.seq, f) → mayRetry s r = false
  case neg =>
    obtain ⟨f, hf, hretry⟩ : ∃ f, (tagOf (chan s r.ch) r.tag).kept = some (r.seq, f) ∧ mayRetry s r = true := by
      simpa using hkept
    exact ⟨_, (hcounted _).trans (onlyMailbox_sendFrame ..), .inl (gate_retry_served hserves hlength hused hf hretry)⟩
  cases hverdict : verdict k r s with
  | some st => exact ⟨_, onlyMailbox_refuse .., .inr (gate_refused hserves hlength hused hkept hverdict)⟩
  | none => exact absurd (admitted_of_checks hserves hlength hused hkept hverdict) h

/-- For a row of the command tables, the request checks are those of its row. -/
theorem admits_iff {c : Instr} {k : Cmd} {r : Req} (s : State) (hrow : tableRow c = some (k, r)) :
    Admits c s ↔ admitted k r s = true := by
  simp [Admits, admits, hrow]

/-- Settles O10: the checks stop the request before the row's meaning starts, and what they do stays in the mailbox and the window. -/
theorem onlyAdmittedCommandsAct : Obligations.OnlyAdmittedCommandsAct := by
  intro c k r s hrow hnot
  obtain ⟨t, ⟨m, w, rfl⟩, hgate⟩ := gate_not_admitted ((admits_iff s hrow).not.mp hnot)
  exact ⟨m, w, exec_of_gate hrow hgate⟩

end Sys2Proof.Machine

/-! ### Every command answers a next state (R69) -/

namespace Sys2Proof.Machine

/-- A mailbox command answers a next state, whatever its request checks and its meaning come to. -/
theorem command_answers (k : Cmd) (r : Req) (body : State → Reply) (s : State) : ∃ t, command k r body s = .next t := by
  unfold command
  cases gate k r s <;> exact ⟨_, rfl⟩

/-- What an opcode and a payload spell, in whichever of the fourteen families, is a mailbox command of the same request. -/
theorem commandOf_is_command {op : Nat} {r : Req} {p : Bytes} {c : State → Res} (h : commandOf op r p = some c) :
    ∃ k body, c = command k r body := by
  unfold commandOf commands1 commands2 commands3 commands4 commands5 commands6 commands7 commands8 commands9 commandsA commandsB
    commandsC commandsD commandsE fixed atLeast at h
  repeat' split at h
  all_goals cases h
  all_goals exact ⟨_, _, rfl⟩

theorem startFrame_answers (ch : Nat) (f : Frame) (s : State) : ∃ t, startFrame ch f s = .next t := by
  unfold startFrame
  dsimp only
  split
  · exact ⟨_, rfl⟩
  · split
    · exact command_answers ..
    · split
      next c hspelt =>
        obtain ⟨k, body, rfl⟩ := commandOf_is_command hspelt
        exact command_answers ..
      next => exact ⟨_, rfl⟩

theorem readFrame_answers (ch : Nat) (f : Frame) (s : State) : ∃ t, readFrame ch f s = .next t := by
  unfold readFrame
  dsimp only
  split
  · exact ⟨_, rfl⟩
  · split
    · exact ⟨_, rfl⟩
    · exact startFrame_answers ..

theorem readIf_answers (p : Frame → Bool) (s : State) : ∃ t, readIf p s = .next t := by
  unfold readIf
  split
  · split
    · exact readFrame_answers ..
    · exact ⟨_, rfl⟩
  · exact ⟨_, rfl⟩

/-- A row outside the command tables answers a next state: four read a frame that waits, every other gives its state outright. -/
theorem event_answers {c : Instr} (h : tableRow c = none) (s : State) : ∃ t, exec c s = .next t := by
  cases c
  case requestRead => exact readIf_answers _ s
  case requestBadMagic => exact readIf_answers _ s
  case requestBadCrc => exact readIf_answers _ s
  case undefinedOpcodeRequest => exact readIf_answers _ s
  all_goals try exact absurd h (Option.some_ne_none _)
  all_goals exact ⟨_, rfl⟩

/-- Settles O9: a row of the command tables runs as a mailbox command, and a mailbox command and an event both answer. -/
theorem noCommandStops : Obligations.NoCommandStops := by
  intro c s
  cases hrow : tableRow c with
  | none => exact event_answers hrow s
  | some row =>
    obtain ⟨body, hexec⟩ := exec_table hrow s
    rw [hexec]
    exact command_answers ..

end Sys2Proof.Machine

/-! ### Responses: the tag that a final response frees (R62, R67), and the response ring (R51) -/

namespace Sys2Proof.Machine

/-- The channel `d` is `c` but for the responses on their way. -/
def SameButResponses (c d : Channel) : Prop := ∃ prod held out, d = { c with rspProd := prod, held := held, streamOut := out }

theorem SameButResponses.refl (c : Channel) : SameButResponses c c := ⟨_, _, _, rfl⟩

/-- A change of the responses of one channel is at most that on any channel. -/
theorem sameButResponses_onChan {f : Channel → Channel} (hf : ∀ d, SameButResponses d (f d)) (ch : Nat) (s : State) (c : Nat) :
    SameButResponses (chan s c) (chan (onChan ch f s) c) := by
  rw [chan_onChan]
  split
  · exact hf _
  · exact .refl _

@[simp] theorem chan_raise (n : Nat) (s : State) (c : Nat) : chan (raise n s) c = chan s c := rfl

/-- Sending a response changes of any channel only the responses on their way. -/
theorem sameButResponses_sendFrame (ch : Nat) (f : Bytes) (s : State) (c : Nat) :
    SameButResponses (chan s c) (chan (sendFrame ch f s) c) := by
  unfold sendFrame
  dsimp only
  split
  · split
    · exact sameButResponses_onChan (fun _ => ⟨_, _, _, rfl⟩) ch s c
    · rw [chan_raise]
      exact sameButResponses_onChan (fun _ => ⟨_, _, _, rfl⟩) ch { s with mbx.ring := _ } c
  · split
    · exact sameButResponses_onChan (fun _ => ⟨_, _, _, rfl⟩) ch s c
    · exact .refl _

@[simp] theorem chan_sendFrame_tags (ch : Nat) (f : Bytes) (s : State) (c : Nat) :
    (chan (sendFrame ch f s) c).tags = (chan s c).tags := by
  obtain ⟨_, _, _, h⟩ := sameButResponses_sendFrame ch f s c
  rw [h]

@[simp] theorem chan_sendFrame_creds (ch : Nat) (f : Bytes) (s : State) (c : Nat) :
    (chan (sendFrame ch f s) c).creds = (chan s c).creds := by
  obtain ⟨_, _, _, h⟩ := sameButResponses_sendFrame ch f s c
  rw [h]

@[simp] theorem chan_sendFrame_running (ch : Nat) (f : Bytes) (s : State) (c : Nat) :
    (chan (sendFrame ch f s) c).running = (chan s c).running := by
  obtain ⟨_, _, _, h⟩ := sameButResponses_sendFrame ch f s c
  rw [h]

@[simp] theorem tagOf_sendFrame (ch : Nat) (f : Bytes) (s : State) (c tag : Nat) :
    tagOf (chan (sendFrame ch f s) c) tag = tagOf (chan s c) tag := by
  simp [tagOf]

/-- Changing a tag changes of any channel only its tags. -/
theorem chan_onTag (ch tag : Nat) (f : Tag → Tag) (s : State) (c : Nat) :
    ∃ tags, chan (onTag ch tag f s) c = { chan s c with tags := tags } := by
  unfold onTag
  rw [chan_onChan]
  split <;> exact ⟨_, rfl⟩

@[simp] theorem chan_onTag_creds (ch tag : Nat) (f : Tag → Tag) (s : State) (c : Nat) :
    (chan (onTag ch tag f s) c).creds = (chan s c).creds := by
  obtain ⟨_, h⟩ := chan_onTag ch tag f s c
  rw [h]

@[simp] theorem chan_onTag_running (ch tag : Nat) (f : Tag → Tag) (s : State) (c : Nat) :
    (chan (onTag ch tag f s) c).running = (chan s c).running := by
  obtain ⟨_, h⟩ := chan_onTag ch tag f s c
  rw [h]

/-- A change of a tag leaves every other tag of every channel. -/
theorem tagOf_onTag_other {ch tag c t : Nat} (f : Tag → Tag) (s : State) (h : c ≠ ch ∨ t ≠ tag) :
    tagOf (chan (onTag ch tag f s) c) t = tagOf (chan s c) t := by
  unfold onTag
  rw [chan_onChan]
  split
  next hch =>
    unfold tagOf
    rw [upd_getD, if_neg fun ht => h.elim (fun hne => hne hch.1.symm) fun hne => hne ht.1.symm]
  next => rfl

/-- A change of a tag that the channel has is what that tag reads as. -/
theorem tagOf_onTag_same {ch tag : Nat} (f : Tag → Tag) {s : State} (hch : ch < s.mbx.channels.length)
    (htag : tag < (chan s ch).tags.length) : tagOf (chan (onTag ch tag f s) ch) tag = f (tagOf (chan s ch) tag) := by
  unfold onTag
  rw [chan_onChan, if_pos ⟨rfl, hch⟩]
  unfold tagOf
  rw [upd_getD, if_pos ⟨rfl, htag⟩]

/-- A channel that is there has its 32 tags. -/
theorem tags_length_of_channelsOk {s : State} {ch : Nat} (h : s.channelsOk) (hch : ch < 4) : (chan s ch).tags.length = 32 := by
  obtain ⟨hlength, htags⟩ := h
  refine htags _ ?_
  rw [chan, List.getD_eq_getElem _ _ (by omega)]
  exact List.getElem_mem _

/-- A channel that cannot be answered gets no final response (R55, R58). -/
theorem finish_unreachable {r : Req} {s : State} (op st : Nat) (key : Option Bytes) (p : Bytes)
    (h : reachable (chan s r.ch) = false) : finish r op st key p s = s := by
  simp [finish, h]

/-- A channel that can be answered gets its final response with the tag freed and the response kept. -/
theorem finish_reachable {r : Req} {s : State} (op st : Nat) (key : Option Bytes) (p : Bytes)
    (h : reachable (chan s r.ch) = true) :
    finish r op st key p s = sendFrame r.ch (responseFrame r op 1 st key p)
      (onTag r.ch r.tag (fun t => { t with used := false, kept := some (r.seq, responseFrame r op 1 st key p) }) s) := by
  simp [finish, h]

/-- Settles O13: a final response is one change of its tag and one send, and a send changes no tag. -/
theorem finalResponseFreesTag : Obligations.FinalResponseFreesTag := by
  intro r op st key p s
  refine ⟨fun hreach hok hch htag => ?frees, finish_unreachable op st key p, fun ch tag => ?others⟩
  case frees =>
    have htags := tags_length_of_channelsOk hok hch
    rw [finish_reachable op st key p hreach, tagOf_sendFrame,
      tagOf_onTag_same _ (hok.1.symm ▸ hch) (htags.symm ▸ htag)]
    exact ⟨rfl, rfl⟩
  case others =>
    cases hreach : reachable (chan s r.ch) with
    | false => rw [finish_unreachable op st key p hreach]; exact ⟨rfl, rfl, fun _ => rfl⟩
    | true =>
      rw [finish_reachable op st key p hreach]
      exact ⟨by simp, by simp, fun hother => by rw [tagOf_sendFrame, tagOf_onTag_other _ s hother]⟩

/-- On a quad-SPI channel no frame waits exactly where the indices of the request ring are equal. -/
theorem waiting_none_iff {s : State} {ch : Nat} (h : (chan s ch).binding = 0) :
    waiting s ch = none ↔ (chan s ch).reqProd = (chan s ch).reqCons := by
  simp [waiting, h]

/-- Six-bit indices are 32 apart exactly where they name the same slot and differ in the wrap bit. -/
theorem rspFull_iff {c : Channel} (hprod : c.rspProd < 64) (hcons : c.rspCons < 64) :
    rspFull c = true ↔ c.rspProd % 32 = c.rspCons % 32 ∧ c.rspProd / 32 ≠ c.rspCons / 32 := by
  rw [rspFull, beq_iff_eq]
  omega

/-- A response on a quad-SPI channel whose ring has room goes into the slot at the producer index. -/
theorem sendFrame_ring {s : State} {ch : Nat} (f : Bytes) (hbinding : (chan s ch).binding = 0)
    (hroom : rspFull (chan s ch) = false) (hheld : (chan s ch).held = []) :
    sendFrame ch f s = raise (evMbxRsp + ch) (onChan ch (fun c => { c with rspProd := (c.rspProd + 1) % 64 })
      { s with mbx.ring := memWrites s.mbx.ring (rspBase ch + (chan s ch).rspProd % 32 * 4096) f }) := by
  simp [sendFrame, hbinding, hroom, hheld]

/-- Settles O14: the indices are six-bit numbers, and a response with room is one write at its slot. -/
theorem ringIndices : Obligations.RingIndices := by
  intro s ch f hsound hch hbinding hprod hcons
  refine ⟨waiting_none_iff hbinding, rspFull_iff hprod hcons, fun hroom hheld _ => ?_⟩
  obtain ⟨⟨hwf, -⟩, ⟨hchannels, -⟩, -⟩ := hsound
  have hnext : (chan (sendFrame ch f s) ch).rspProd = ((chan s ch).rspProd + 1) % 64 := by
    rw [sendFrame_ring f hbinding hroom hheld, chan_raise, chan_onChan, if_pos ⟨rfl, hchannels.symm ▸ hch⟩]
    rfl
  have hring : (sendFrame ch f s).mbx.ring =
      memWrites s.mbx.ring (rspBase ch + (chan s ch).rspProd % 32 * 4096) f := by
    rw [sendFrame_ring f hbinding hroom hheld]
    rfl
  refine ⟨by omega, by omega, by omega, fun a => ?_⟩
  rw [hring, memRead_memWrites _ _ _ hwf]
  rfl

end Sys2Proof.Machine

/-! ### Bell lines (R71, R72) -/

namespace Sys2Proof.Machine

/-- Raising a source leaves every active source active. -/
theorem active_raise {s : State} {i : Nat} (n : Nat) (h : active s i = true) : active (raise n s) i = true := by
  unfold active at *
  rw [Bool.and_eq_true] at h
  obtain ⟨hpend, hen⟩ := h
  rw [Bool.and_eq_true, raise_win_pend, BitVec.getLsbD_or, hpend]
  exact ⟨rfl, hen⟩

/-- Raising a source leaves every asserted bell line asserted. -/
theorem bellAsserted_raise {s : State} {line : Nat} (n : Nat) (h : bellAsserted s line = true) :
    bellAsserted (raise n s) line = true := by
  unfold bellAsserted at *
  rw [Bool.and_eq_true, List.any_eq_true] at *
  obtain ⟨hlive, i, hi, hactive⟩ := h
  rw [Bool.and_eq_true] at hactive
  obtain ⟨hactive, hroute⟩ := hactive
  exact ⟨hlive, i, hi, Bool.and_eq_true_iff.mpr ⟨active_raise n hactive, hroute⟩⟩

theorem raise_win_pulses (n : Nat) (s : State) : (raise n s).win.pulses = pulseIf s n := rfl

/-- A line without PULSE is not released. -/
theorem pulseIf_clear {s : State} {n : Nat} (h : s.win.pulse.getLsbD (routeOf s n) = false) : pulseIf s n = s.win.pulses := by
  simp [pulseIf, h]

/-- A line with PULSE that is asserted is released for a further source that becomes pending while enabled. -/
theorem pulseIf_set {s : State} {n : Nat} (hpulse : s.win.pulse.getLsbD (routeOf s n) = true)
    (hbell : bellAsserted s (routeOf s n) = true) (hinactive : active s n = false) (hen : s.win.en.getLsbD n = true) :
    pulseIf s n = upd s.win.pulses (routeOf s n) (· + 1) := by
  have hpend : s.win.pend.getLsbD n = false := by simpa [active, hen] using hinactive
  simp [pulseIf, hpulse, hbell, hen, hpend]

/-- Settles O16: the release is counted for the line of the further source alone, and no asserted line falls. -/
theorem bellPulse : Obligations.BellPulse := by
  intro s n _ hlines hbell hinactive hen
  refine ⟨bellAsserted_raise n hbell, fun hpulse line hline => ?_, fun hclear => ?_⟩
  · rw [raise_win_pulses, pulseIf_set hpulse hbell hinactive hen, upd_getD]
    by_cases h : routeOf s n = line
    · rw [if_pos ⟨h, hlines.symm ▸ hline⟩, if_pos h.symm]
    · rw [if_neg fun hl => h hl.1, if_neg fun hl => h hl.symm, Nat.add_zero]
  · rw [raise_win_pulses, pulseIf_clear hclear]

end Sys2Proof.Machine

/-! ### What every step keeps: the sound state, and what no later state falls behind -/

namespace Sys2Proof.Machine

/-- A step of a sound state takes the front command off the queue, keeps the state sound and falls behind in nothing. -/
theorem step_keeps {s t : State} (hsound : s.sound) (hstep : step s = .next t) : Inv true (s.base s.pending.tail) t := by
  have hstart : Inv true (s.base s.pending.tail) { s with pending := s.pending.tail } := inv_of_sound _ hsound
  unfold step at hstep
  split at hstep
  next hidle =>
    cases hstep
    have hsame : { s with pending := s.pending.tail } = s := by rw [hidle, List.tail_nil, ← hidle]
    rwa [hsame] at hstart
  next c rest hfront =>
    rw [hfront, List.tail_cons] at hstart ⊢
    exact exec_keeps c hstart t hstep

/-- Settles O6: every command keeps the invariant (`exec_keeps`), and the invariant holds the sound state. -/
theorem stepKeepsSound : Obligations.StepKeepsSound := fun _ _ hsound hstep => (step_keeps hsound hstep).sound

/-- Settles O8: the invariant measures every later state against the one in which the step began. -/
theorem stepNeverFallsBehind : Obligations.StepNeverFallsBehind := fun _ _ hsound hstep => (step_keeps hsound hstep).upTo

end Sys2Proof.Machine

/-! ### The entry into Kickstand (R97 to R102) -/

namespace Sys2Proof.Machine

/-! #### The list of causes (R99, R102) -/

/-- Outside Kickstand no cause is listed. -/
theorem kicks_of_not_kicked {s : State} (h : kicked s = false) : s.sys.kicks = [] := by
  simpa [kicked] using h

theorem hasKick_of_not_kicked {s : State} (cause : Nat) (h : kicked s = false) : hasKick s cause = false := by
  rw [hasKick, kicks_of_not_kicked h]
  rfl

/-- KICK_CAUSE is the head of the list of causes. -/
theorem kickCauseOf_eq_headD (s : State) : kickCauseOf s = (s.sys.kicks.map (·.code)).headD 0 := by
  unfold kickCauseOf
  cases s.sys.kicks <;> rfl

/-- A cause that is listed already keeps its place; any other goes behind those listed before it. -/
theorem map_code_addCause (cause : Nat) (l : List KickCause) :
    (addCause cause l).map (·.code) = l.map (·.code) ++ if cause ∈ l.map (·.code) then [] else [cause] := by
  unfold addCause
  by_cases hlisted : cause ∈ l.map (·.code)
  · have hany : l.any (·.code == cause) = true := by simpa using hlisted
    rw [if_pos hany, if_pos hlisted, List.append_nil, List.map_map]
    refine List.map_congr_left fun c _ => ?_
    rw [Function.comp_apply]
    split <;> rfl
  · have hany : ¬l.any (·.code == cause) = true := by simpa using hlisted
    rw [if_neg hany, if_neg hlisted, List.map_append]
    rfl

/-- An entry of the list after a cause arises is the entry of that cause, or stood in the list before. -/
theorem mem_addCause {cause : Nat} {l : List KickCause} {c : KickCause} (h : c ∈ addCause cause l) :
    c.code = cause ∧ c.gone = kickAtOnce cause ∨ c.code ≠ cause ∧ c ∈ l := by
  unfold addCause at h
  split at h
  · obtain ⟨d, hd, rfl⟩ := List.mem_map.mp h
    by_cases hcode : d.code = cause
    · simp [hcode]
    · simp [hcode, hd]
  next hnew =>
    rcases List.mem_append.mp h with hold | hadded
    · exact .inr ⟨fun hcode => hnew (List.any_eq_true.mpr ⟨c, hold, by simp [hcode]⟩), hold⟩
    · obtain rfl := List.mem_singleton.mp hadded
      exact .inl ⟨rfl, rfl⟩

theorem addCause_ne_nil (cause : Nat) (l : List KickCause) : addCause cause l ≠ [] := by
  unfold addCause
  split
  next hlisted =>
    obtain ⟨c, hc, _⟩ := List.any_eq_true.mp hlisted
    simpa using List.ne_nil_of_mem hc
  · simp

/-! #### What the entry switches off (R97, R98) -/

/-- The outputs, sessions and tandem state at the entry, before the metering commit and the events of the sessions. -/
def outputsOff (cause : Nat) (s : State) : State :=
  { s with
    saf.pairs := s.saf.pairs.map kickPair
    ldc.chans := s.ldc.chans.map kickLoad
    ses := s.ses.zipIdx.map fun (p : Session × Nat) =>
      kickSession s.saf.tick (if cause = 0x0602 then 0x0E else 0x10) (nth s.links p.2) p.1
    tdm := kickTandem s.tdm
    mtr.takeover := if s.tdm.state = .active then 3 else s.mtr.takeover }

/-- The entry is the outputs off, the metering commit, and events of the sessions and the tandem pair. -/
theorem kickOutputs_only (cause : Nat) (s : State) :
    OnlyRecords (meterCommit 0 (outputsOff cause s)) (kickOutputs cause s) := by
  unfold kickOutputs
  exact only_trans (only_trans (raiseIf_only _ _ _) (raiseIf_only _ _ _)) (raiseIf_only _ _ _)

theorem kickOutputs_sys (cause : Nat) (s : State) : (kickOutputs cause s).sys = s.sys := by
  rw [(kickOutputs_only cause s).sys, meterCommit_only]
  rfl

theorem kickOutputs_nv (cause : Nat) (s : State) : (kickOutputs cause s).nv = s.nv := by
  rw [(kickOutputs_only cause s).nv, meterCommit_only]
  rfl

theorem kickOutputs_pairs (cause : Nat) (s : State) : (kickOutputs cause s).saf.pairs = s.saf.pairs.map kickPair := by
  rw [(kickOutputs_only cause s).saf, meterCommit_only]
  rfl

theorem kickOutputs_loads (cause : Nat) (s : State) : (kickOutputs cause s).ldc.chans = s.ldc.chans.map kickLoad := by
  rw [(kickOutputs_only cause s).ldc, meterCommit_only]
  rfl

theorem kickOutputs_pend (cause : Nat) {s : State} {n : Nat} (h : s.win.pend.getLsbD n = true) :
    (kickOutputs cause s).win.pend.getLsbD n = true := by
  refine (kickOutputs_only cause s).pend n ?_
  rw [meterCommit_only]
  exact h

/-! #### A cause that arises -/

/-- The state with a cause listed, the second of the entry taken, and a persistent cause kept in MRAM. -/
def causeListed (cause : Nat) (s : State) : State :=
  { s with
    sys.kicks := addCause cause s.sys.kicks
    sys.kickSecond := if s.sys.kicks.isEmpty then s.nv.opSeconds else s.sys.kickSecond
    nv.causes := if kickPersists cause && !s.nv.causes.contains cause then s.nv.causes ++ [cause] else s.nv.causes }

theorem mem_causeListed_causes {cause : Nat} (s : State) (h : kickPersists cause = true) :
    cause ∈ (causeListed cause s).nv.causes := by
  by_cases hkept : cause ∈ s.nv.causes <;> simp [causeListed, h, hkept]

/-- A cause that arises, by what it lists: the rest is its record, and at the entry the event and the outputs. -/
theorem enterKick_eq (cause : Nat) (s : State) : enterKick cause s = if hasKick s cause then s else
    (if s.sys.kicks.isEmpty then kickOutputs cause else id) (record 0x4103 (kickSource cause) (u16 cause)
      (raiseIf s.sys.kicks.isEmpty evSysKickstand (causeListed cause s))) := rfl

/-- A cause that is listed and not gone changes nothing. -/
theorem enterKick_listed {cause : Nat} {s : State} (h : hasKick s cause = true) : enterKick cause s = s := if_pos h

/-- In Kickstand a further cause is listed and recorded. -/
theorem enterKick_further {cause : Nat} {s : State} (h : hasKick s cause = false) (hkicked : kicked s = true) :
    OnlyRecords (causeListed cause s) (enterKick cause s) := by
  have hsome : s.sys.kicks.isEmpty = false := by simpa [kicked] using hkicked
  have heq : enterKick cause s = record 0x4103 (kickSource cause) (u16 cause) (causeListed cause s) := by
    rw [enterKick_eq, h, hsome]
    rfl
  exact heq ▸ record_only ..

/-- The first cause sets EV_SYS_KICKSTAND, is recorded, and switches the outputs off. -/
theorem enterKick_first (cause : Nat) {s : State} (hkicked : kicked s = false) :
    ∃ t, OnlyRecords (raise evSysKickstand (causeListed cause s)) t ∧ enterKick cause s = kickOutputs cause t := by
  have hnone : s.sys.kicks.isEmpty = true := by simp [kicks_of_not_kicked hkicked]
  refine ⟨record 0x4103 (kickSource cause) (u16 cause) (raise evSysKickstand (causeListed cause s)), record_only .., ?_⟩
  rw [enterKick_eq, hasKick_of_not_kicked cause hkicked, hnone]
  rfl

/-- A cause that arises leaves of the System part and of MRAM what listing it leaves. -/
theorem enterKick_sys_nv {cause : Nat} {s : State} (h : hasKick s cause = false) :
    (enterKick cause s).sys = (causeListed cause s).sys ∧ (enterKick cause s).nv = (causeListed cause s).nv := by
  cases hkicked : kicked s with
  | true =>
    have honly := enterKick_further h hkicked
    exact ⟨honly.sys, honly.nv⟩
  | false =>
    obtain ⟨t, honly, heq⟩ := enterKick_first cause hkicked
    rw [heq, kickOutputs_sys, kickOutputs_nv]
    exact ⟨honly.sys, honly.nv⟩

/-- A cause that arises changes the list of causes as `addCause` does, at the entry and in Kickstand alike. -/
theorem enterKick_kicks {cause : Nat} {s : State} (h : hasKick s cause = false) :
    (enterKick cause s).sys.kicks = addCause cause s.sys.kicks :=
  congrArg Sys.kicks (enterKick_sys_nv h).1

/-- KICK_CAUSE keeps the first cause of the entry. -/
theorem kickCauseOf_enterKick {cause : Nat} {s : State} (h : hasKick s cause = false) :
    kickCauseOf (enterKick cause s) = if kicked s then kickCauseOf s else cause := by
  rw [kickCauseOf_eq_headD, kickCauseOf_eq_headD, enterKick_kicks h, map_code_addCause, kicked]
  cases s.sys.kicks with
  | nil => rfl
  | cons c l => rfl

/-- The first cause takes the operating second of the entry. -/
theorem enterKick_kickSecond {cause : Nat} {s : State} (hkicked : kicked s = false) :
    (enterKick cause s).sys.kickSecond = s.nv.opSeconds := by
  rw [(enterKick_sys_nv (hasKick_of_not_kicked cause hkicked)).1, causeListed, kicks_of_not_kicked hkicked]
  rfl

/-- The first cause sets EV_SYS_KICKSTAND. -/
theorem enterKick_event (cause : Nat) {s : State} (hkicked : kicked s = false) :
    (enterKick cause s).win.pend.getLsbD evSysKickstand = true := by
  obtain ⟨t, honly, heq⟩ := enterKick_first cause hkicked
  rw [heq]
  exact kickOutputs_pend cause (honly.pend _ (raise_self _ _ (by decide)))

/-- At the entry every safe output is off, its request too. -/
theorem enterKick_pairs_off {cause : Nat} {s : State} (hkicked : kicked s = false) :
    ∀ p ∈ (enterKick cause s).saf.pairs, p.on = false ∧ p.request = false := by
  obtain ⟨t, -, heq⟩ := enterKick_first cause hkicked
  rw [heq, kickOutputs_pairs, List.forall_mem_map]
  exact fun _ _ => ⟨rfl, rfl⟩

/-- At the entry every load channel is off, its request too. -/
theorem enterKick_loads_off {cause : Nat} {s : State} (hkicked : kicked s = false) :
    ∀ l ∈ (enterKick cause s).ldc.chans, l.on = false ∧ l.request = false := by
  obtain ⟨t, -, heq⟩ := enterKick_first cause hkicked
  rw [heq, kickOutputs_loads, List.forall_mem_map]
  exact fun _ _ => ⟨rfl, rfl⟩

/-- Settles O17: the list of causes decides what is listed and which cause came first, and the entry what is switched off. -/
theorem kickstandEntry : Obligations.KickstandEntry := by
  intro cause s
  refine ⟨enterKick_listed, fun h => ?_⟩
  have hkicks := enterKick_kicks h
  refine ⟨hkicks ▸ map_code_addCause cause _, fun c hc hcode => ?gone, fun c hc hcode => ?others, ?kicked,
    kickCauseOf_enterKick h, fun hpersists => ?persists, fun hkicked => ⟨enterKick_event cause hkicked,
      enterKick_kickSecond hkicked, enterKick_pairs_off hkicked, enterKick_loads_off hkicked⟩⟩
  case gone =>
    obtain ⟨-, hgone⟩ | ⟨hother, -⟩ := mem_addCause (hkicks ▸ hc)
    · exact hgone
    · exact absurd hcode hother
  case others =>
    obtain ⟨hsame, -⟩ | ⟨-, hold⟩ := mem_addCause (hkicks ▸ hc)
    · exact absurd hsame hcode
    · exact hold
  case kicked => simp [kicked, hkicks, addCause_ne_nil]
  case persists => exact (enterKick_sys_nv h).2 ▸ mem_causeListed_causes s hpersists

end Sys2Proof.Machine

/-! ### Leaving Kickstand (R101) -/

namespace Sys2Proof.Machine

theorem OnlyMailbox.sys {s t : State} (h : OnlyMailbox s t) : t.sys = s.sys := by
  obtain ⟨m, w, rfl⟩ := h
  rfl

/-- The answer of a command leaves the System part as the command's own effect has it. -/
theorem deliver_sys (k : Cmd) (r : Req) (key : Option Bytes) (p : Reply) : (deliver k r key p).sys = p.state.sys := by
  unfold deliver
  split
  · exact (onlyMailbox_answerOnly ..).sys
  · refine (onlyMailbox_finish ..).sys.trans ?_
    split
    · exact (record_only ..).sys
    · rfl

theorem started_sys (r : Req) (s : State) : (started r s).sys = s.sys := by
  rw [started_mbx]

/-- The decision on SYS_RELEASE_KICKSTAND, once the request checks have passed. -/
def releaseReply (s : State) : Reply :=
  if !kicked s then .ok s
  else if s.sys.kicks.any (!·.gone) then ⟨s, stKickstand, kickList s⟩
  else if s.sys.kicks.any fun c => kickSafety c.code && !c.resetGiven then ⟨s, stSafetyLocked, kickList s⟩
  else .ok (leaveKick s)

theorem exec_release (r : Req) (s : State) : exec (.sysReleaseKickstand r) s =
    command { op := 0x0114, secure := true, states := lcMPIFS, cred := 3 } r releaseReply s := rfl

theorem leaveKick_not_kicked (s : State) : kicked (leaveKick s) = false := by
  unfold leaveKick kicked
  rw [(record_only ..).sys]
  rfl

/-- The two conditions of R101 on every cause are the two checks of the decision on the whole list. -/
theorem releasable_iff (l : List KickCause) :
    (∀ c ∈ l, c.gone = true ∧ (c.code / 256 = 3 → c.resetGiven = true)) ↔
      l.any (!·.gone) = false ∧ (l.any fun c => kickSafety c.code && !c.resetGiven) = false := by
  simp [kickSafety, List.any_eq_false, forall_and]

/-- The decision leaves Kickstand exactly where no cause holds the part in it. -/
theorem releaseReply_leaves_iff {s : State} (h : kicked s = true) : kicked (releaseReply s).state = false ↔
    ∀ c ∈ s.sys.kicks, c.gone = true ∧ (c.code / 256 = 3 → c.resetGiven = true) := by
  rw [releasable_iff]
  unfold releaseReply
  rw [if_neg (by simp [h])]
  split
  next hnotGone => simp [h, hnotGone]
  next hgone =>
    split
    next hnoReset => simp [h, hnoReset]
    next hreset => simp [leaveKick_not_kicked, Bool.eq_false_iff.mpr hgone, Bool.eq_false_iff.mpr hreset]

/-- A safety reset counts for the 0x03xx causes that are gone. -/
theorem kickReset_kicks (s : State) : (kickReset s).sys.kicks = s.sys.kicks.map fun c =>
    { c with resetGiven := c.resetGiven || (c.code / 256 == 3 && c.gone) } := by
  refine List.map_congr_left fun c _ => ?_
  unfold kickSafety
  split
  next hreset => rw [hreset, Bool.or_true]
  next hnot => rw [Bool.eq_false_iff.mpr hnot, Bool.or_false]

/-- Settles O18: an admitted release changes the causes by its decision alone. -/
theorem releaseLeavesKickstand : Obligations.ReleaseLeavesKickstand := by
  refine fun r s hkicked => ⟨fun hadmits => ?_, kickReset_kicks s⟩
  have hstarted : kicked (started r s) = true := by rwa [kicked, started_sys]
  refine ⟨_, (exec_release r s).trans (command_admitted releaseReply ((admits_iff s rfl).mp hadmits)), ?_⟩
  rw [kicked, deliver_sys, ← kicked, releaseReply_leaves_iff hstarted, started_sys]

end Sys2Proof.Machine

/-! ### The roundings of the Cadence engine (R144) -/

namespace Sys2Proof.Machine

/-- The model's division by 2^s is the arithmetic shift that R144 names. -/
theorem roundShift_succ (x : Int) (n : Nat) : roundShift x (n + 1) = (x + 2 ^ n) >>> (n + 1) := by
  simp [roundShift, Int.shiftRight_eq_div_pow]

/-- A shift whose count is an integer is the shift by that number of bits. -/
theorem roundShift_succ_int (x : Int) (n : Nat) : roundShift x (n + 1) = (x + 2 ^ n) >>> ((n + 1 : Nat) : Int) := by
  rw [Int.shiftRight_natCast_right, roundShift_succ]

/-- The result is within half a unit, and exactly half a unit away only upwards: what the shift drops is a remainder of 2^s. -/
theorem roundShift_nearest (x : Int) (n : Nat) :
    -(2 : Int) ^ n < 2 ^ (n + 1) * roundShift x (n + 1) - x ∧ 2 ^ (n + 1) * roundShift x (n + 1) - x ≤ 2 ^ n := by
  have hunit : (2 : Int) ^ (n + 1) = 2 * 2 ^ n := pow_succ' 2 n
  have hpos : (0 : Int) < 2 ^ (n + 1) := by positivity
  have hsplit : 2 ^ (n + 1) * roundShift x (n + 1) + (x + 2 ^ n) % 2 ^ (n + 1) = x + 2 ^ n :=
    Int.mul_ediv_add_emod (x + 2 ^ n) (2 ^ (n + 1))
  have hlow := Int.emod_nonneg (x + 2 ^ n) hpos.ne'
  have hhigh := Int.emod_lt_of_pos (x + 2 ^ n) hpos
  constructor <;> linarith

/-- A row is summed in column order, each product rounded on its own. -/
theorem accRow_cons (st : Int × Bool) (c x : Int) (cs xs : List Int) :
    accRow st (c :: cs) (x :: xs) = accRow (accAdd st (roundShift (c * x) 20)) cs xs := rfl

/-- Settles O21: the rounding is the shift, and the products of a row and the finished accumulator are rounded with it. -/
theorem cadenceRounding : Obligations.CadenceRounding := by
  refine ⟨fun x s hs => ?shift, fun st c x cs xs => ?product, fun st => ?accumulator⟩
  case shift =>
    obtain ⟨n, rfl⟩ := Nat.exists_eq_add_one.mpr hs
    exact ⟨roundShift_succ x n, roundShift_nearest x n⟩
  case product =>
    rw [accRow_cons]
    exact congrArg (fun p => accRow (accAdd st p) cs xs) (roundShift_succ_int (c * x) 19)
  case accumulator => exact congrArg sat28 (roundShift_succ_int st.1 7)

end Sys2Proof.Machine

/-! ### The frame that a ring launches (R91, R173, R190) -/

namespace Sys2Proof.Machine

/-- A group once its record has been launched (R503). -/
def unfresh (t : Group) : Group := { t with fresh := false }

/-- A group reads the same after a launch but for its fresh mark, where there is no such group too. -/
theorem nth_map_unfresh (l : List Group) (gi : Nat) : nth (l.map unfresh) gi = unfresh (nth l gi) :=
  List.getD_map l default unfresh

/-- The state at the edge of a launch, before its frame is formed: the late flag settled, the authority timer run on. -/
def atEdge (r : Nat) (s : State) : State :=
  restartTimer r (if (ring s r).written || (ring s r).frame == [] then s else setLate (lateRing r) s)

/-- Setting a late flag changes the flags and the event window alone. -/
theorem setLate_only (reg : Nat) (s : State) : ∃ late win, setLate reg s = { s with sys.late := late, win := win } := by
  unfold setLate raiseIf
  split <;> exact ⟨_, _, rfl⟩

/-- The authority timer runs on, or once per tick also takes the fresh mark off every group. -/
theorem restartTimer_eq (r : Nat) (s : State) : restartTimer r s = s ∨
    ∃ new, restartTimer r s = { s with tdm.sinceNew := new, cad.groups := s.cad.groups.map unfresh } := by
  unfold restartTimer
  split
  · exact .inl rfl
  · exact .inr ⟨_, rfl⟩

/-- The fresh marks of the groups have no part in the records that are launched. -/
theorem launched_unfresh (s : State) (new i : Nat) :
    launched { s with tdm.sinceNew := new, cad.groups := s.cad.groups.map unfresh } i = launched s i := by
  have hpend : ((s.cad.groups.map unfresh).filter fun t => gSink t.desc == 1).flatMap (·.pend) =
      (s.cad.groups.filter fun t => gSink t.desc == 1).flatMap (·.pend) := by
    rw [List.filter_map, List.flatMap_map]
    rfl
  unfold launched boundCeil group
  simp only [nth_map_unfresh, hpend]
  rfl

theorem launched_setLate (reg : Nat) (s : State) (i : Nat) : launched (setLate reg s) i = launched s i := by
  obtain ⟨late, win, h⟩ := setLate_only reg s
  rw [h]
  rfl

theorem launched_restartTimer (r : Nat) (s : State) (i : Nat) : launched (restartTimer r s) i = launched s i := by
  obtain h | ⟨new, h⟩ := restartTimer_eq r s
  · rw [h]
  · rw [h, launched_unfresh]

theorem launched_atEdge (r : Nat) (s : State) (i : Nat) : launched (atEdge r s) i = launched s i := by
  rw [atEdge, launched_restartTimer]
  split
  · rfl
  · rw [launched_setLate]

/-- What the edge settles is neither of the Chainring nor of Kickstand. -/
theorem atEdge_only (r : Nat) (s : State) : ∃ late new groups win,
    atEdge r s = { s with sys.late := late, tdm.sinceNew := new, cad.groups := groups, win := win } := by
  unfold atEdge
  split
  next => obtain h | ⟨new, h⟩ := restartTimer_eq r s <;> exact ⟨_, _, _, _, h⟩
  next =>
    obtain ⟨late, win, hlate⟩ := setLate_only (lateRing r) s
    rw [hlate]
    obtain h | ⟨new, h⟩ := restartTimer_eq r { s with sys.late := late, win := win } <;> exact ⟨_, _, _, _, h⟩

@[simp] theorem atEdge_chr (r : Nat) (s : State) : (atEdge r s).chr = s.chr := by
  obtain ⟨_, _, _, _, h⟩ := atEdge_only r s
  rw [h]

@[simp] theorem kicked_atEdge (r : Nat) (s : State) : kicked (atEdge r s) = kicked s := by
  obtain ⟨_, _, _, _, h⟩ := atEdge_only r s
  rw [h]
  rfl

/-- The records a ring launches, by position less 1. -/
def launchedRefs (r : Nat) (s : State) : List Ref := (List.range 24).map fun p => launched s (24 * r + p)

theorem launchedRefs_atEdge (r : Nat) (s : State) : launchedRefs r (atEdge r s) = launchedRefs r s :=
  List.map_congr_left fun _ _ => launched_atEdge ..

/-- The frame that a ring launches with a TICK_SEQ (R173). -/
def launchFrame (r seq : Nat) (s : State) : Bytes :=
  formFrame (ringHeader (masterId s r) s.chr.authGen seq (ringSlots s r) s.cfg.chain.tick (ringFlags s r))
    ((launchedRefs r s).take (ringSlots s r))

/-- A launch is a frame formed of the state at the edge, and the same records taken as sent. -/
theorem launch_eq (r : Nat) (s : State) : launch r s =
    onRing r (fun t => { t with
        tickSeq := ((ring s r).tickSeq + 1) % 2 ^ 32, takeover := false, written := false
        frame := launchFrame r (((ring s r).tickSeq + 1) % 2 ^ 32) (atEdge r s) })
      { atEdge r s with chr.sent := (List.range 48).map fun i =>
          if i / 24 = r then nth (launchedRefs r (atEdge r s)) (i % 24) else nth (atEdge r s).chr.sent i } := rfl

theorem nth_map_range {α : Type} [Inhabited α] (f : Nat → α) {i n : Nat} (h : i < n) : nth ((List.range n).map f) i = f i := by
  simp [nth, h]

theorem launch_chr_sent (r : Nat) (s : State) : (launch r s).chr.sent =
    (List.range 48).map fun i => if i / 24 = r then nth (launchedRefs r s) (i % 24) else nth s.chr.sent i := by
  rw [← launchedRefs_atEdge r s, ← atEdge_chr r s]
  rfl

theorem launch_chr_next (r : Nat) (s : State) : (launch r s).chr.next = s.chr.next := by
  rw [← atEdge_chr r s]
  rfl

/-- The records of a launch are those of its ring, in their positions. -/
theorem nth_launch_sent {r i : Nat} (s : State) (h : i < 48) :
    nth (launch r s).chr.sent i = if i / 24 = r then launched s i else nth s.chr.sent i := by
  rw [launch_chr_sent, nth_map_range _ h]
  split
  next hring => rw [launchedRefs, nth_map_range _ (Nat.mod_lt i (by decide)), ← hring, Nat.div_add_mod]
  next => rfl

/-- The ring of a launch holds the frame of its records. -/
theorem ring_launch_frame {r : Nat} {s : State} (h : r < s.chr.rings.length) :
    (ring (launch r s) r).frame = launchFrame r (((ring s r).tickSeq + 1) % 2 ^ 32) (atEdge r s) := by
  rw [launch_eq, ring, nth, onRing_chr_rings, upd_getD, if_pos ⟨rfl, by simpa using h⟩]

/-- FLAGS is byte 12 of a frame (R173). -/
theorem frame_flags (master gen seq n tick flags : Nat) (refs : List Ref) :
    g8 (formFrame (ringHeader master gen seq n tick flags) refs) 12 = flags % 256 := by
  rfl

/-- Bit 0 of FLAGS is KICKSTAND (R190). -/
theorem ringFlags_bit0 (s : State) (r : Nat) : bit (ringFlags s r % 256) 0 = kicked s := by
  unfold ringFlags
  cases kicked s <;> cases (ring s r).takeover <;> rfl

/-- FLAGS.KICKSTAND of a launched frame says whether the part is in Kickstand. -/
theorem launch_flag {r : Nat} {s : State} (h : r < s.chr.rings.length) :
    bit (g8 (ring (launch r s) r).frame 12) 0 = kicked s := by
  rw [ring_launch_frame h, launchFrame, frame_flags, ringFlags_bit0, kicked_atEdge]

/-- A launch changes the Chainring and what the edge settles. -/
theorem launch_only (r : Nat) (s : State) : ∃ chr late new groups win, launch r s = { s with
    chr := chr, sys.late := late, tdm.sinceNew := new, cad.groups := groups, win := win } := by
  obtain ⟨late, new, groups, win, h⟩ := atEdge_only r s
  rw [launch_eq, h]
  exact ⟨_, _, _, _, _, rfl⟩

/-- In part-wide Kickstand a record is a zero reference without a matrix operation (R190). -/
theorem launched_kicked {s : State} (i : Nat) (h : kicked s = true) :
    (launched s i).refI = 0 ∧ (launched s i).enable = false ∧ (launched s i).mtxValid = false := by
  simp [launched, launchRef, h]

/-- In a life-cycle state that energises nothing a record is a zero reference (R91). -/
theorem launched_dead {s : State} (i : Nat) (h : mayEnergise s = false) :
    (launched s i).refI = 0 ∧ (launched s i).enable = false := by
  unfold launched launchRef
  rw [h]
  split <;> exact ⟨rfl, rfl⟩

/-- No group has a ceiling to launch where no loop binds one (R150). -/
theorem boundCeil_unbound {s : State} {gi : Nat} (h : ceilBound s gi = false) : boundCeil s gi = none := by
  simp [boundCeil, h]

/-- A live part launches a record as it was last written where no loop binds the ceiling of a group. -/
theorem launched_live {s : State} (i : Nat) (hkicked : kicked s = false) (hlive : mayEnergise s = true)
    (hunbound : ∀ gi, gi < 16 → ceilBound s gi = false) : launched s i = nth s.chr.next i := by
  have hceil : (((List.range 16).find? fun gi => gSink (group s gi).desc == 1 && (group s gi).split.contains i).bind
      (boundCeil s)) = none :=
    Option.bind_eq_none_iff.mpr fun gi hfind =>
      boundCeil_unbound (hunbound gi (List.mem_range.mp (List.mem_of_find?_eq_some hfind)))
  rw [launched, hceil, launchRef, hkicked, hlive]
  rfl

/-- Settles O22: the records of a launch are decided before the edge, and the edge settles only flags, timer and fresh marks. -/
theorem launchedReferences : Obligations.LaunchedReferences := by
  refine fun r s _ => ⟨fun i hi => nth_launch_sent s hi, fun i => launched_kicked i, fun hring => ?flag,
    fun i => launched_dead i, fun i => launched_live i, ?next, launch_only r s⟩
  case flag => rw [launch_flag hring]
  case next => rw [launch_chr_next]

end Sys2Proof.Machine

/-! ### The energy mirrors of a register (R289) -/

namespace Sys2Proof.Machine

/-- EPOCH is the upper part of the energy in Wh, which MIRROR reports below 2^32, until EPOCH wraps (R289). -/
theorem mirrorEpoch_unwrapped {mWh : Nat} (h : mWh / 1000 < 2 ^ 48) : mirrorEpoch mWh = mWh / 1000 / 2 ^ 32 := by
  rw [mirrorEpoch, ← Nat.div_div_eq_div_mul]
  exact Nat.mod_eq_of_lt (Nat.div_lt_of_lt_mul h)

/-- One reading with its EPOCH gives the whole energy in Wh, by division with remainder (R289). -/
theorem epoch_mirror_energy {mWh : Nat} (h : mWh / 1000 < 2 ^ 48) :
    mirrorEpoch mWh * 2 ^ 32 + mirror mWh = mWh / 1000 := by
  rw [mirrorEpoch_unwrapped h, mirror]
  exact Nat.div_add_mod' (mWh / 1000) (2 ^ 32)

/-- Settles O23: each reading gives its own energy exactly, and the registers only grow, so the later one bounds both. -/
theorem mirrorsRecoverEnergy : Obligations.MirrorsRecoverEnergy := by
  refine fun m1 m2 => ⟨rfl, rfl, fun hle hlast => ?_⟩
  have hfirst : m1 / 1000 < 2 ^ 48 := (Nat.div_le_div_right hle).trans_lt hlast
  have henergy1 := epoch_mirror_energy hfirst
  have henergy2 := epoch_mirror_energy hlast
  omega

end Sys2Proof.Machine

/-! ### Rate-limit entries (R490) -/

namespace Sys2Proof.Machine

/-- The model's check for repeated values is the absence of duplicates. -/
theorem allDistinct_iff_nodup (l : List Nat) : allDistinct l = true ↔ l.Nodup := by
  induction l with
  | nil => simp [allDistinct]
  | cons x l ih => simp [allDistinct, ih]

/-- Among values without duplicates, each is that of one member only. -/
theorem filter_length_le_one {α : Type} {f : α → Nat} {l : List α} (h : (l.map f).Nodup) (n : Nat) :
    (l.filter fun x => f x == n).length ≤ 1 := by
  have hcount : (l.map f).count n = (l.filter fun x => f x == n).length := by
    rw [List.count_eq_countP, List.countP_map, List.countP_eq_length_filter]
    rfl
  exact hcount ▸ List.nodup_iff_count_le_one.mp h n

theorem within_iff {lo hi x : Nat} : within lo hi x = true ↔ lo ≤ x ∧ x ≤ hi := by
  simp [within]

/-- What R490 asks of one rate-limit entry: a partition other than LEGAL, N and WINDOW in range, reserved fields zero. -/
theorem limitEntryOk_iff (b : Bytes) : limitEntryOk b = true ↔
    (2 ≤ g16 b 0 / 4096 ∧ g16 b 0 / 4096 ≤ 4) ∧ 1 ≤ g8 b 2 ∧ g8 b 3 = 0 ∧
      (1 ≤ g16 b 4 ∧ g16 b 4 ≤ 3600) ∧ allZero (slice b 6 2) = true := by
  simp [limitEntryOk, within_iff, zeroAt, and_assoc]

/-- The rate limits of an image that passes: every entry is in order, and no code has two. -/
theorem limitsTableOk_entries {c : ConfigImage} (h : limitsTableOk c = true) :
    (∀ b ∈ c.limits, limitEntryOk b = true) ∧ (c.limits.map fun b => g16 b 0).Nodup := by
  simp only [limitsTableOk, Bool.and_eq_true, List.all_eq_true, allDistinct_iff_nodup] at h
  obtain ⟨⟨-, hentries⟩, hdistinct⟩ := h
  exact ⟨hentries, hdistinct⟩

/-- The rate limits are among the values that the checker of images reads. -/
theorem imageValues_limits {s : State} {c : ConfigImage} (h : imageValues s c = true) : limitsTableOk c = true := by
  simp only [imageValues, Bool.and_eq_true] at h
  obtain ⟨⟨⟨-, hlimits⟩, -⟩, -⟩ := h
  exact hlimits

/-- An image is refused with ST_BAD_ARG for a bad value, unless a group outside the role refuses it first (R16, R152). -/
theorem imageVerdict_badArg {s : State} {c : ConfigImage} (hrole : cadVerdict (imageCadence c) ≠ some stNotInRole)
    (hvalues : imageValues s c ≠ true) : imageVerdict s c = some stBadArg := by
  simp [imageVerdict, hrole, hvalues]

/-- A code that no rate-limit entry names has no limit (R490). -/
theorem limitOf_eq_none {s : State} {code : Nat} (h : ∀ b ∈ s.cfg.limits, g16 b 0 ≠ code) : limitOf s code = none := by
  simpa [limitOf] using h

/-- A record whose code has no limit is taken in as it is made (R490). -/
theorem record_unlimited {s : State} {code : Nat} (source : Nat) (params : Bytes) (h : limitOf s code = none) :
    record code source params s = intake (draft code source params s) s := by
  rw [record, h]

/-- Settles O20: an image whose values pass has none of the faults, and a record of a code without an entry meets no window. -/
theorem rateLimitEntries : Obligations.RateLimitEntries := by
  refine ⟨fun s c b hb hrole hfault => imageVerdict_badArg hrole fun hvalues => ?refused,
    fun s code source params hcode => record_unlimited source params (limitOf_eq_none hcode)⟩
  case refused =>
    obtain ⟨hentries, hdistinct⟩ := limitsTableOk_entries (imageValues_limits hvalues)
    obtain ⟨hpartition, hn, hreserved, hwindow, hzero⟩ := (limitEntryOk_iff b).mp (hentries b hb)
    have hsingle := filter_length_le_one hdistinct (g16 b 0)
    simp only [hzero, Bool.true_eq_false, false_or] at hfault
    omega

end Sys2Proof.Machine

/-! ### The step and the queue (log entry 1), and the state right after reset -/

namespace Sys2Proof.Machine

/-- Settles O7: the invariant of a step fixes the queue that is left. -/
theorem stepTakesFrontCommand : Obligations.StepTakesFrontCommand := fun _ _ hsound hstep => (step_keeps hsound hstep).pend

/-- Settles O1: a queue that has a front is no empty queue. -/
theorem stepRunsFrontCommand : Obligations.StepRunsFrontCommand := by
  intro s c rest hfront
  unfold step
  rw [hfront]

/-- Settles O2: an empty queue takes the idling arm of the step. -/
theorem emptyQueueIdles : Obligations.EmptyQueueIdles := by
  intro s hidle
  unfold step
  rw [hidle]

/-- Settles O3: the decoder answers none for every word, so placing a word takes the arm that leaves the state. -/
theorem wordsSpellNoCommand : Obligations.WordsSpellNoCommand := fun _ _ => ⟨rfl, fun _ => rfl⟩

/-- A memory in which nothing has been written is in canonical form. -/
theorem memory_wf_nil : Memory.wf [] := by
  simp [Memory.wf]

/-- Settles O4: at reset the memories are empty, the tables have their sizes, and there is no Kickstand cause. -/
theorem resetIsSound : Obligations.ResetIsSound := by
  refine ⟨⟨memory_wf_nil, ?fw, ?cfg⟩, ⟨rfl, ?tags⟩, List.length_replicate, ?kickOff, ⟨rfl, rfl⟩⟩
  case fw => decide
  case cfg => decide
  case tags => decide
  case kickOff => exact fun h => absurd h (by decide)

/-- A mailbox that is not live asserts no bell line (R73). -/
theorem bellAsserted_not_live {s : State} (line : Nat) (h : s.sys.live = false) : bellAsserted s line = false := by
  simp [bellAsserted, h]

/-- Settles O5: the registers are read off the state, table by table; a mailbox that is not live asserts no line. -/
theorem resetLeaves : Obligations.ResetLeaves := by
  refine ⟨rfl, rfl, rfl, rfl, rfl, rfl, rfl, rfl, fun ch hch => ?channels, ?pairs, ?loads,
    fun line => bellAsserted_not_live line rfl, rfl, rfl⟩
  case channels =>
    interval_cases ch
    all_goals exact ⟨rfl, rfl, rfl, rfl, rfl⟩
  case pairs => decide
  case loads => decide

end Sys2Proof.Machine

/-! ### Running an admitted command -/

namespace Sys2Proof.Machine

/-- The state with another mailbox: what no meaning of a command but that of the mailbox itself can tell from the state. -/
def withMailbox (m : Mbx) (s : State) : State := { s with mbx := m }

/-- A command starts with a change of the mailbox. -/
theorem started_withMailbox (r : Req) (s : State) : ∃ m, started r s = withMailbox m s := started_exists r s

/-- The command `c` is a row of the command tables that carries the opcode `op` and runs `body`. -/
structure IsRow (c : Instr) (k : Cmd) (r : Req) (op : Nat) (body : State → Reply) : Prop where
  row : tableRow c = some (k, r)
  opcode : k.op = op
  runs : ∀ s, exec c s = command k r body s

section
variable {c : Instr} {k : Cmd} {r : Req} {op : Nat} {s u t : State} {p : Bytes} {body : State → Reply}

/-- An admitted row of the command tables whose body answers ST_OK in the state in which the command starts. -/
theorem exec_okay (hrow : IsRow c k r op body) (hstart : started r s = u) (hadmits : Admits c s)
    (hbody : body u = ⟨t, stOk, p⟩) : exec c s = .next (okay r op p s t) := by
  rw [hrow.runs, ← hrow.opcode]
  exact command_okay ((admits_iff s hrow.row).mp hadmits) (hstart ▸ hbody)

/-- An admitted row of the command tables whose body answers another final status. -/
theorem exec_answered {st : Nat} (hrow : IsRow c k r op body) (hstart : started r s = u) (hadmits : Admits c s)
    (hbody : body u = ⟨t, st, p⟩) (haccepted : st ≠ stAccepted) (hinternal : st ≠ stInternal) :
    exec c s = .next (answered r op st p s t) := by
  rw [hrow.runs, ← hrow.opcode]
  exact command_answered ((admits_iff s hrow.row).mp hadmits) (hstart ▸ hbody) haccepted hinternal

/-- An admitted row of the command tables that is accepted. -/
theorem exec_accepted {bound : Nat} {w : Work} (hrow : IsRow c k r op body) (hstart : started r s = u)
    (hadmits : Admits c s) (hbody : body u = accept k r bound w t) : exec c s = .next (accepted r op bound w s t) := by
  rw [hrow.runs, ← hrow.opcode]
  exact command_accepted ((admits_iff s hrow.row).mp hadmits) (hstart ▸ hbody)

end

/-! A command's own checks, passed one by one (R64, checks 11 to 13) -/

section
variable {a b : Bool} {st : Nat} {l : List (Bool × Nat)} {s : State} {f : State → Reply} {p : Reply}

/-- A check that does not hold is passed. -/
theorem checked_pass (h : b = false) (hrest : checked l s f = p) : checked ((b, st) :: l) s f = p := by
  rw [h]
  exact hrest

/-- A check that a fact is missing is passed where the fact holds. -/
theorem checked_need (h : b = true) (hrest : checked l s f = p) : checked ((!b, st) :: l) s f = p :=
  checked_pass (by rw [h]; rfl) hrest

/-- Of a check of two faults each is passed. -/
theorem checked_pass_or (ha : a = false) (hb : b = false) (hrest : checked l s f = p) :
    checked ((a || b, st) :: l) s f = p :=
  checked_pass (Bool.or_eq_false_iff.mpr ⟨ha, hb⟩) hrest

/-- A check that applies on a condition is passed where the condition excludes the fault. -/
theorem checked_pass_if (h : a = true → b = false) (hrest : checked l s f = p) : checked ((a && b, st) :: l) s f = p :=
  checked_pass (Bool.and_eq_false_imp.mpr h) hrest

/-- A fact that a check asks for on a condition. -/
theorem checked_need_if (h : a = true → b = true) (hrest : checked l s f = p) : checked ((a && !b, st) :: l) s f = p :=
  checked_pass_if (fun ha => by rw [h ha]; rfl) hrest

/-- Where every check is passed the effect follows. -/
theorem checked_done (heffect : f s = p) : checked [] s f = p := heffect

/-- A refusal on a condition that does not hold is passed. -/
theorem unless_pass {q t : Reply} (h : b = false) (hrest : q = p) : (if b then t else q) = p := by
  rw [h]
  exact hrest

/-- A refusal where a fact is missing is passed where the fact holds. -/
theorem unless_need {q t : Reply} (h : b = true) (hrest : q = p) : (if !b then t else q) = p :=
  unless_pass (by rw [h]; rfl) hrest

end

/-! ### System commands (R70, R84, R93, R99 to R101, R105, R106) -/

/-- A release is granted in Kickstand where every cause is gone and every safety cause has its reset (R101). -/
theorem releaseReply_granted {s : State} (hkicked : kicked s = true) (hgone : ∀ c ∈ s.sys.kicks, c.gone = true)
    (hreset : ∀ c ∈ s.sys.kicks, kickSafety c.code = true → c.resetGiven = true) :
    releaseReply s = ⟨leaveKick s, stOk, []⟩ := by
  have hnoneHeld : s.sys.kicks.any (!·.gone) = false := by simpa using hgone
  have hnoneUnreset : (s.sys.kicks.any fun c => kickSafety c.code && !c.resetGiven) = false := by simpa using hreset
  simp [releaseReply, hkicked, hnoneHeld, hnoneUnreset]

/-- Outside Kickstand a release changes nothing. -/
theorem releaseReply_idle {s : State} (hkicked : kicked s = false) : releaseReply s = ⟨s, stOk, []⟩ := by
  simp [releaseReply, hkicked]

/-- Settles O24: each row's body answers once its own checks are passed. -/
theorem systemCommandsRun : Obligations.SystemCommandsRun := by
  intro s r
  obtain ⟨m, hstart⟩ := started_withMailbox r s
  rw [hstart]
  refine ⟨fun data h => ?echo, fun channel h hch => ?stats, fun h => ?bootInfo, fun h => ?resetPart, fun h => ?enter,
    fun h => ?get, fun h hgone hreset hkicked => ?release, fun h hkicked => ?released, fun h => ?lifecycle,
    fun target token authority h hpossible hpre hauth hsafe => ?setLifecycle,
    fun offset data h hfits htrial hact => ?writeFw, fun offset data h hfits hact => ?writeCfg,
    fun target h htarget htrial hact => ?activate, fun h htrial => ?confirm⟩
  case echo => exact exec_okay ⟨rfl, rfl, fun _ => rfl⟩ hstart h rfl
  case stats => exact exec_okay ⟨rfl, rfl, fun _ => rfl⟩ hstart h (checked_pass (by simpa using hch) rfl)
  case bootInfo => exact exec_okay ⟨rfl, rfl, fun _ => rfl⟩ hstart h rfl
  case resetPart => exact exec_okay ⟨rfl, rfl, fun _ => rfl⟩ hstart h rfl
  case enter => exact exec_okay ⟨rfl, rfl, fun _ => rfl⟩ hstart h rfl
  case get => exact exec_okay ⟨rfl, rfl, fun _ => rfl⟩ hstart h rfl
  case release => exact exec_okay ⟨rfl, rfl, exec_release r⟩ hstart h (releaseReply_granted hkicked hgone hreset)
  case released => exact exec_okay ⟨rfl, rfl, exec_release r⟩ hstart h (releaseReply_idle hkicked)
  case lifecycle => exact exec_okay ⟨rfl, rfl, fun _ => rfl⟩ hstart h rfl
  case setLifecycle =>
    have hauthority : tokenAuthority (withMailbox m s) target token = some authority := hauth
    have hrunning (h : ((transition (lifecycle s) target).isSome && target == lcField) = true) : safeRunning s = true :=
      hsafe (beq_iff_eq.mp (Bool.and_eq_true_iff.mp h).2)
    exact ⟨_, exec_accepted ⟨rfl, rfl, fun _ => rfl⟩ hstart h (checked_need_if (fun _ => hpre)
      (checked_pass_if (fun _ => congrArg Option.isNone hauth)
        (checked_need_if hrunning (checked_need hpossible (by
          simp only [checked, firstOf, hauthority]
          rfl)))))⟩
  case writeFw =>
    exact exec_okay ⟨rfl, rfl, fun _ => rfl⟩ hstart h
      (checked_pass (by simpa using hfits) (checked_pass_or htrial hact rfl))
  case writeCfg =>
    exact exec_okay ⟨rfl, rfl, fun _ => rfl⟩ hstart h (checked_pass (by simpa using hfits) (checked_pass hact rfl))
  case activate =>
    have htrial (h : (target == 0) = true) : trialRunning s = false := htrial (beq_iff_eq.mp h)
    exact ⟨_, exec_accepted ⟨rfl, rfl, fun _ => rfl⟩ hstart h (checked_pass (by simpa using htarget)
      (checked_pass_or (Bool.and_eq_false_imp.mpr htrial) hact rfl))⟩
  case confirm => exact exec_okay ⟨rfl, rfl, fun _ => rfl⟩ hstart h (checked_need htrial rfl)

end Sys2Proof.Machine

/-! ### Credentials (R60, R470, R471) -/

namespace Sys2Proof.Machine

/-- Settles O25: a valid key of the kind's usage leaves the signature and the room on the channel to be checked. -/
theorem credentialCommandsRun : Obligations.CredentialCommandsRun := by
  intro s r
  obtain ⟨m, hstart⟩ := started_withMailbox r s
  rw [hstart]
  refine ⟨fun kind slot eph sig k h hwinner hstate hlow hhigh husage hlifecycle hsig hroom => ?opened,
    fun kind slot eph sig k h hwinner hstate hlow hhigh husage hlifecycle hsig => ?refused, fun handle h hopen => ?closed⟩
  case opened =>
    have hwinner : winner (withMailbox m s) slot = some k := hwinner
    have hlifecycle : bit (credStates kind) (lifecycle (withMailbox m s)) = true := hlifecycle
    have hsig : sigOk sig (keyPublic k) (credSigned (withMailbox m s) kind slot r.ch eph) = true := hsig
    refine exec_okay ⟨rfl, rfl, fun _ => rfl⟩ hstart h (Eq.trans (b := openCred r kind slot eph (withMailbox m s)) ?_ rfl)
    simp [hwinner, hstate, husage, hlifecycle, hsig, Nat.not_lt.mpr hhigh, Nat.ne_of_gt hlow, Nat.not_le.mpr hroom]
  case refused =>
    have hwinner : winner (withMailbox m s) slot = some k := hwinner
    have hsig : sigOk sig (keyPublic k) (credSigned (withMailbox m s) kind slot r.ch eph) = false := hsig
    refine exec_answered ⟨rfl, rfl, fun _ => rfl⟩ hstart h ?_ (by decide) (by decide)
    simp [hwinner, hstate, husage, hsig, Nat.not_lt.mpr hhigh, Nat.ne_of_gt hlow]
  case closed => exact exec_okay ⟨rfl, rfl, fun _ => rfl⟩ hstart h (checked_need hopen rfl)

end Sys2Proof.Machine

/-! ### Derailleur commands (R112, R125, R129, R135, R137, R138) -/

namespace Sys2Proof.Machine

/-- Settles O26: each row's body answers once its own checks are passed. -/
theorem derailleurCommandsRun : Obligations.DerailleurCommandsRun := by
  intro s r
  obtain ⟨m, hstart⟩ := started_withMailbox r s
  rw [hstart]
  refine ⟨fun h => ?status, fun first count rules h hlow hhigh hend hfree => ?setRules,
    fun first count h hlow hhigh hend => ?getRules, fun first count h hlow hhigh hend => ?getStaging,
    fun h hrules hcost hfree => ?commit, fun imp exp validity h hvalid => ?siteLimits,
    fun outlet cls h hlow hhigh hsession hcls => ?sessionClass, fun h => ?grants, fun outlet h hmem => ?inputs,
    fun h => ?assignment, fun position h hpos hmem hidle => ?withdraw, fun position h hpos hmem hidle => ?restore⟩
  case status => exact exec_okay ⟨rfl, rfl, fun _ => rfl⟩ hstart h rfl
  case setRules =>
    exact exec_okay ⟨rfl, rfl, fun _ => rfl⟩ hstart h
      (checked_pass (by simp; omega) (checked_pass (bne_eq_false_iff_eq.mpr hfree) rfl))
  case getRules => exact exec_okay ⟨rfl, rfl, fun _ => rfl⟩ hstart h (checked_pass (by simp; omega) rfl)
  case getStaging => exact exec_okay ⟨rfl, rfl, fun _ => rfl⟩ hstart h (checked_pass (by simp; omega) rfl)
  case commit =>
    exact exec_okay ⟨rfl, rfl, fun _ => rfl⟩ hstart h (checked_need hrules
      (checked_pass (decide_eq_false (Nat.not_lt.mpr hcost)) (checked_pass (bne_eq_false_iff_eq.mpr hfree) rfl)))
  case siteLimits => exact exec_okay ⟨rfl, rfl, fun _ => rfl⟩ hstart h (checked_pass (by simpa using hvalid) rfl)
  case sessionClass =>
    have hsession : (outIn (withMailbox m s) outlet).session = true := hsession
    exact exec_okay ⟨rfl, rfl, fun _ => rfl⟩ hstart h (checked_pass (by simp [hsession]; omega) rfl)
  case grants => exact exec_okay ⟨rfl, rfl, fun _ => rfl⟩ hstart h rfl
  case inputs =>
    exact exec_okay ⟨rfl, rfl, fun _ => rfl⟩ hstart h (checked_need (List.contains_iff_mem.mpr hmem) rfl)
  case assignment => exact exec_okay ⟨rfl, rfl, fun _ => rfl⟩ hstart h rfl
  case withdraw =>
    have hmem : posIndex position ∈ positions (withMailbox m s) := hmem
    exact exec_okay ⟨rfl, rfl, fun _ => rfl⟩ hstart h
      (checked_pass (by simp [hpos, hmem]) (checked_pass (bne_eq_false_iff_eq.mpr hidle) rfl))
  case restore =>
    have hmem : posIndex position ∈ positions (withMailbox m s) := hmem
    exact exec_okay ⟨rfl, rfl, fun _ => rfl⟩ hstart h
      (checked_pass (by simp [hpos, hmem]) (checked_pass (bne_eq_false_iff_eq.mpr hidle) rfl))

end Sys2Proof.Machine

/-! ### Cadence commands (R146, R149, R164, R168, R169) -/

namespace Sys2Proof.Machine

/-- Settles O27: each row's body answers once its own checks are passed; the number of a descriptor decides what is staged. -/
theorem cadenceCommandsRun : Obligations.CadenceCommandsRun := by
  intro s r
  obtain ⟨m, hstart⟩ := started_withMailbox r s
  rw [hstart]
  refine ⟨fun group h hgroup => ?getGroup, fun loop h hloop => ?getLoop, fun loops flags h hflags => ?clearFlags,
    fun number value h hnumber => ?reference, fun group h hgroup hkick => ?release,
    fun descriptor offset data h hloop halign hfits hwaits => ?stageLoop,
    fun descriptor offset data h hlow hhigh halign hfits hwaits => ?stageGroup,
    fun group h hgroup hverdict hidle htransfer hnone => ?commit⟩
  case getGroup => exact exec_okay ⟨rfl, rfl, fun _ => rfl⟩ hstart h (checked_pass (by simpa using hgroup) rfl)
  case getLoop => exact exec_okay ⟨rfl, rfl, fun _ => rfl⟩ hstart h (checked_pass (by simpa using hloop) rfl)
  case clearFlags => exact exec_okay ⟨rfl, rfl, fun _ => rfl⟩ hstart h (checked_pass (by simpa using hflags) rfl)
  case reference => exact exec_okay ⟨rfl, rfl, fun _ => rfl⟩ hstart h (checked_pass (by simpa using hnumber) rfl)
  case release =>
    exact exec_okay ⟨rfl, rfl, fun _ => rfl⟩ hstart h (checked_pass (by simpa using hgroup) (checked_need hkick rfl))
  case stageLoop =>
    exact exec_okay ⟨rfl, rfl, fun _ => rfl⟩ hstart h (checked_pass (by simp [hloop]) (checked_pass (by simpa using halign)
      (checked_pass (by simpa [hloop] using hfits) (checked_pass hwaits (by simp only [checked, firstOf, hloop]; rfl)))))
  case stageGroup =>
    have hloop : ¬descriptor < 64 := by omega
    exact exec_okay ⟨rfl, rfl, fun _ => rfl⟩ hstart h (checked_pass (by simp [hlow, hhigh])
      (checked_pass (by simpa using halign) (checked_pass (by simpa [hloop] using hfits)
        (checked_pass hwaits (by simp only [checked, firstOf, hloop]; rfl)))))
  case commit =>
    have hverdict : cadVerdict (candidate (withMailbox m s) group) = none := hverdict
    exact exec_okay ⟨rfl, rfl, fun _ => rfl⟩ hstart h (checked_pass (by simpa using hgroup) (checked_pass (by simp [hverdict])
      (checked_pass (by simp [hverdict]) (checked_pass_or (Bool.or_eq_false_iff.mpr ⟨bne_eq_false_iff_eq.mpr hidle, htransfer⟩)
        (bne_eq_false_iff_eq.mpr hnone) rfl))))

end Sys2Proof.Machine

/-! ### Chainring commands (R130, R190, R191) -/

namespace Sys2Proof.Machine

/-- Settles O28: each row has one check of its operand. -/
theorem chainringCommandsRun : Obligations.ChainringCommandsRun := by
  intro s r
  obtain ⟨m, hstart⟩ := started_withMailbox r s
  rw [hstart]
  refine ⟨fun ring h hring => ?getRing, fun position h hpos => ?getStage, fun ring h hring => ?clear⟩
  case getRing => exact exec_okay ⟨rfl, rfl, fun _ => rfl⟩ hstart h (checked_pass (by simpa using hring) rfl)
  case getStage => exact exec_okay ⟨rfl, rfl, fun _ => rfl⟩ hstart h (checked_need hpos rfl)
  case clear => exact exec_okay ⟨rfl, rfl, fun _ => rfl⟩ hstart h (checked_pass (by simpa using hring) rfl)

end Sys2Proof.Machine

/-! ### Commands of vehicle links and charging sessions (R218, R219, R232, R246, R247) -/

namespace Sys2Proof.Machine

/-- Settles O29: each row's body answers once its own checks are passed; the drive and the validity decide what is done. -/
theorem outletCommandsRun : Obligations.OutletCommandsRun := by
  intro s r
  obtain ⟨m, hstart⟩ := started_withMailbox r s
  rw [hstart]
  refine ⟨fun slot h hslot => ?getLink, fun slot h hslot => ?getStats, fun slot h hslot => ?clearStats,
    fun slot h hlocal hsession => ?endTest, fun slot drive h hlocal hsession hdrive htype => ?test,
    fun slot drive h hlocal hsession hdrive htype => ?testMcs, fun slot h hslot => ?getSession,
    fun slot decision cls validity ident h hlocal hdecision hcls hshort hvalid hident => ?authorise,
    fun slot decision cls ident h hlocal hdecision hcls hident hstate hwaiting => ?authoriseNow,
    fun slot h hlocal hsession => ?stop, fun slot h hlocal hsession => ?stopIdle, fun slot mode h hlocal hmode => ?availability,
    fun slot h hlocal hweld hconnected => ?clearWeld, fun slot h hslot => ?getChecks,
    fun slot h hlocal hstate hreneg hfree => ?renegotiate⟩
  case getLink => exact exec_okay ⟨rfl, rfl, fun _ => rfl⟩ hstart h (checked_need hslot rfl)
  case getStats => exact exec_okay ⟨rfl, rfl, fun _ => rfl⟩ hstart h (checked_need hslot rfl)
  case clearStats => exact exec_okay ⟨rfl, rfl, fun _ => rfl⟩ hstart h (checked_need hslot rfl)
  case endTest =>
    have hlocal : localSlot (withMailbox m s) slot = true := hlocal
    exact exec_okay ⟨rfl, rfl, fun _ => rfl⟩ hstart h (checked_pass (by simp [hlocal]) (checked_pass hsession rfl))
  case test =>
    have hlocal : localSlot (withMailbox m s) slot = true := hlocal
    have htype : linkType (withMailbox m s) slot ≠ lkMcs := htype
    have hnotEnd : drive ≠ 255 := by omega
    exact exec_okay ⟨rfl, rfl, fun _ => rfl⟩ hstart h (checked_pass (by simp [hlocal, htype, hdrive])
      (checked_pass hsession (by simp only [checked, firstOf, hnotEnd]; rfl)))
  case testMcs =>
    have hlocal : localSlot (withMailbox m s) slot = true := hlocal
    have htype : linkType (withMailbox m s) slot = lkMcs := htype
    have hnotEnd : drive ≠ 255 := by obtain rfl | rfl := hdrive <;> decide
    exact exec_okay ⟨rfl, rfl, fun _ => rfl⟩ hstart h
      (checked_pass (by simpa [hlocal, htype, hnotEnd] using hdrive.resolve_left)
        (checked_pass hsession (by simp only [checked, firstOf, hnotEnd]; rfl)))
  case getSession => exact exec_okay ⟨rfl, rfl, fun _ => rfl⟩ hstart h (checked_need hslot rfl)
  case authorise =>
    have hlocal : localSlot (withMailbox m s) slot = true := hlocal
    have hnotNow : validity ≠ 0 := by omega
    exact exec_okay ⟨rfl, rfl, fun _ => rfl⟩ hstart h (checked_pass (by simp [hlocal]; omega)
      (checked_pass_if (fun h0 => absurd (beq_iff_eq.mp h0) hnotNow) (by simp only [checked, firstOf, hnotNow]; rfl)))
  case authoriseNow =>
    have hlocal : localSlot (withMailbox m s) slot = true := hlocal
    exact exec_okay ⟨rfl, rfl, fun _ => rfl⟩ hstart h (checked_pass (by simp [hlocal]; omega)
      (checked_need_if (fun _ => Bool.and_eq_true_iff.mpr ⟨beq_iff_eq.mpr hstate, hwaiting⟩) rfl))
  case stop =>
    have hsession : inSession (withMailbox m s) slot = true := hsession
    exact exec_okay ⟨rfl, rfl, fun _ => rfl⟩ hstart h (checked_need hlocal (by simp only [checked, firstOf, hsession]; rfl))
  case stopIdle =>
    have hsession : inSession (withMailbox m s) slot = false := hsession
    exact exec_okay ⟨rfl, rfl, fun _ => rfl⟩ hstart h (checked_need hlocal (by simp only [checked, firstOf, hsession]; rfl))
  case availability =>
    have hlocal : localSlot (withMailbox m s) slot = true := hlocal
    exact exec_okay ⟨rfl, rfl, fun _ => rfl⟩ hstart h (checked_pass (by simp [hlocal]; omega) rfl)
  case clearWeld =>
    have hlocal : localSlot (withMailbox m s) slot = true := hlocal
    have hweld : nth (withMailbox m s).nvOut.weld slot = true := hweld
    exact exec_okay ⟨rfl, rfl, fun _ => rfl⟩ hstart h (checked_pass (by simp [hlocal, hweld]) (checked_pass hconnected rfl))
  case getChecks => exact exec_okay ⟨rfl, rfl, fun _ => rfl⟩ hstart h (checked_need hslot rfl)
  case renegotiate =>
    have hstate : (ses (withMailbox m s) slot).state = 8 := hstate
    have hreneg : renegotiates (withMailbox m s) slot = true := hreneg
    have hfree : renegFree (withMailbox m s) slot = true := hfree
    exact exec_okay ⟨rfl, rfl, fun _ => rfl⟩ hstart h (checked_need hlocal (checked_pass (by simp [hstate, hreneg, hfree]) rfl))

end Sys2Proof.Machine

/-! ### Heat commands (R264, R274) -/

namespace Sys2Proof.Machine

/-- Settles O30: each row's body answers once its own checks are passed. -/
theorem heatCommandsRun : Obligations.HeatCommandsRun := by
  intro s r
  obtain ⟨m, hstart⟩ := started_withMailbox r s
  rw [hstart]
  refine ⟨fun kind index h hinput => ?getInput, fun slot h hslot => ?getOutlet, fun first count h hlow hend => ?getThresholds,
    fun kind index h hinput hstate => ?ack, fun h => ?getDie⟩
  case getInput => exact exec_okay ⟨rfl, rfl, fun _ => rfl⟩ hstart h (checked_need hinput rfl)
  case getOutlet => exact exec_okay ⟨rfl, rfl, fun _ => rfl⟩ hstart h (checked_need hslot rfl)
  case getThresholds => exact exec_okay ⟨rfl, rfl, fun _ => rfl⟩ hstart h (checked_pass (by simp; omega) rfl)
  case ack =>
    have hstate : (inputAt (withMailbox m s) kind index).state = 3 := hstate
    exact exec_okay ⟨rfl, rfl, fun _ => rfl⟩ hstart h (checked_pass (by simp [hinput, hstate]) rfl)
  case getDie => exact exec_okay ⟨rfl, rfl, fun _ => rfl⟩ hstart h rfl

end Sys2Proof.Machine

/-! ### Metering commands on registers, points, parameters and wall time (R277, R289, R298, R306 to R308, R312) -/

namespace Sys2Proof.Machine

/-- Settles O31: each row's body answers once its own checks are passed. -/
theorem meteringCommandsRun : Obligations.MeteringCommandsRun := by
  intro s r
  obtain ⟨m, hstart⟩ := started_withMailbox r s
  rw [hstart]
  refine ⟨fun point h hpoint hholds => ?getRegisters, fun point h hpoint hholds => ?getPoint, fun wall h hfull hplace => ?step,
    fun wall h hnear => ?slew, fun kind index block h hheld hplace hblock hslots => ?write,
    fun h hfull hplace hok => ?sealSet, fun h => ?legalId, fun kind index h hblock => ?read⟩
  case getRegisters => exact exec_okay ⟨rfl, rfl, fun _ => rfl⟩ hstart h (checked_need hpoint (checked_need hholds rfl))
  case getPoint => exact exec_okay ⟨rfl, rfl, fun _ => rfl⟩ hstart h (checked_need hpoint (checked_need hholds rfl))
  case step =>
    have hfull : legalFull (withMailbox m s) = false := hfull
    have hplace : legalPlace (withMailbox m s) = true := hplace
    exact exec_okay ⟨rfl, rfl, fun _ => rfl⟩ hstart h (checked_pass (by simp [hfull, hplace]) (checked_pass rfl rfl))
  case slew =>
    exact exec_okay ⟨rfl, rfl, fun _ => rfl⟩ hstart h (checked_pass rfl
      (checked_pass_or rfl (Bool.and_eq_false_imp.mpr fun _ => decide_eq_false (Nat.not_lt.mpr hnear)) rfl))
  case write =>
    have hheld : ¬7936 ≤ legalHeld (withMailbox m s) := Nat.not_le.mpr hheld
    have hplace : legalPlace (withMailbox m s) = true := hplace
    have hslots : (changesSlots (withMailbox m s).nvMtr kind block && decide (0 < ringUsed (withMailbox m s))) = false := hslots
    refine exec_okay ⟨rfl, rfl, fun _ => rfl⟩ hstart h ?_
    simp only [firstOf, hheld, hplace, hblock, hslots]
    rfl
  case sealSet =>
    have hfull : legalFull (withMailbox m s) = false := hfull
    have hplace : legalPlace (withMailbox m s) = true := hplace
    have hok : parametersOk (withMailbox m s).nvMtr = true := hok
    refine exec_okay ⟨rfl, rfl, fun _ => rfl⟩ hstart h ?_
    simp only [firstOf, hfull, hplace, hok]
    rfl
  case legalId => exact exec_okay ⟨rfl, rfl, fun _ => rfl⟩ hstart h rfl
  case read => exact exec_okay ⟨rfl, rfl, fun _ => rfl⟩ hstart h (checked_need hblock rfl)

end Sys2Proof.Machine

/-! ### Spoke-line commands (R353) -/

namespace Sys2Proof.Machine

/-- Settles O32: each row's body answers once its own checks are passed. -/
theorem spokeCommandsRun : Obligations.SpokeCommandsRun := by
  intro s r
  obtain ⟨m, hstart⟩ := started_withMailbox r s
  rw [hstart]
  refine ⟨fun h => ?status, fun h => ?nodes, fun peer h hpeer => ?link, fun peer h hpeer hall => ?clearOne, fun h => ?clearAll⟩
  case status => exact exec_okay ⟨rfl, rfl, fun _ => rfl⟩ hstart h rfl
  case nodes => exact exec_okay ⟨rfl, rfl, fun _ => rfl⟩ hstart h rfl
  case link => exact exec_okay ⟨rfl, rfl, fun _ => rfl⟩ hstart h (checked_need hpeer rfl)
  case clearOne =>
    exact exec_okay ⟨rfl, rfl, fun _ => rfl⟩ hstart h (checked_need_if (fun _ => hpeer) (by
      simp only [checked, firstOf, hall, decide_false, Bool.false_or]
      rfl))
  case clearAll => exact exec_okay ⟨rfl, rfl, fun _ => rfl⟩ hstart h (checked_pass rfl rfl)

end Sys2Proof.Machine

/-! ### Commands of the safety functions and of safe transport (R373, R378, R379, R385, R389, R392, R393, R404) -/

namespace Sys2Proof.Machine

/-- Settles O33: each row's body answers once its own checks are passed; the request and the action decide which apply. -/
theorem safetyCommandsRun : Obligations.SafetyCommandsRun := by
  intro s r
  obtain ⟨m, hstart⟩ := started_withMailbox r s
  rw [hstart]
  refine ⟨fun h => ?status, fun index h hindex => ?getInstance, fun input h hinput => ?getInput, fun pair h hpair => ?getPair,
    fun mask part h hacked hnamed hpart hsource => ?reset, fun pair h hkicked hacked hpair hmode hpermits => ?switchOn,
    fun pair h hpair hmode => ?switchOff, fun index h hacked hindex hlocks => ?lock,
    fun index h hacked hindex hlocks => ?unlock, fun conn h hconn => ?getLink⟩
  case status => exact exec_okay ⟨rfl, rfl, fun _ => rfl⟩ hstart h rfl
  case getInstance => exact exec_okay ⟨rfl, rfl, fun _ => rfl⟩ hstart h (checked_pass (by simpa using hindex) rfl)
  case getInput => exact exec_okay ⟨rfl, rfl, fun _ => rfl⟩ hstart h (checked_pass (by simpa using hinput) rfl)
  case getPair => exact exec_okay ⟨rfl, rfl, fun _ => rfl⟩ hstart h (checked_pass (by simpa using hpair) rfl)
  case reset =>
    exact exec_okay ⟨rfl, rfl, fun _ => rfl⟩ hstart h (checked_pass hacked (checked_pass hnamed
      (checked_pass (by simpa using hpart)
        (checked_pass_if (fun h1 => bne_eq_false_iff_eq.mpr (hsource (of_decide_eq_true h1))) rfl))))
  case switchOn =>
    have hmode : prMode (pairCfg (withMailbox m s) pair) = 2 := hmode
    exact exec_okay ⟨rfl, rfl, fun _ => rfl⟩ hstart h (checked_pass_if (fun _ => hkicked) (checked_pass_if (fun _ => hacked)
      (checked_pass (by simpa [hmode] using hpair) (checked_pass_if (fun _ => hpermits) rfl))))
  case switchOff =>
    have hmode : prMode (pairCfg (withMailbox m s) pair) = 2 := hmode
    exact exec_okay ⟨rfl, rfl, fun _ => rfl⟩ hstart h (checked_pass rfl (checked_pass rfl
      (checked_pass (by simpa [hmode] using hpair) (checked_pass rfl rfl))))
  case lock =>
    have hlocks : locks (instCfg (withMailbox m s) index) = true := hlocks
    exact exec_okay ⟨rfl, rfl, fun _ => rfl⟩ hstart h
      (checked_pass hacked (checked_pass (by simpa [hlocks] using hindex) rfl))
  case unlock =>
    have hlocks : locks (instCfg (withMailbox m s) index) = true := hlocks
    exact exec_okay ⟨rfl, rfl, fun _ => rfl⟩ hstart h
      (checked_pass hacked (checked_pass (by simpa [hlocks] using hindex) rfl))
  case getLink => exact exec_okay ⟨rfl, rfl, fun _ => rfl⟩ hstart h (checked_pass (by simpa using hconn) rfl)

end Sys2Proof.Machine

/-! ### Safety configuration commands (R407, R408, R410, R411, R413, R414) -/

namespace Sys2Proof.Machine

/-- Without a lock-out none ends. -/
theorem settleLockout_none {s : State} (h : s.nvSaf.lockUntil = none) : settleLockout s = s := by
  simp [settleLockout, h]

theorem lockedOut_none {s : State} (h : s.nvSaf.lockUntil = none) : lockedOut s = false := by
  simp [lockedOut, h]

/-- A right password has the command's effect, after which no failure counts. -/
theorem withPassword_right {p : Bytes} {s : State} {q : Reply} {effect : State → Reply} (h : passwordRight s p = true)
    (hrest : effect (rightPassword s) = q) : withPassword p s effect = q := by
  rw [withPassword, if_pos h, hrest]

/-- The caller that holds the edit session finds one to end. -/
theorem endEdit_editing {s : State} {r : Req} (h : editing s r = true) :
    endEdit s = raise evSafCfgEdit { s with saf.edit := none } := by
  cases hedit : s.saf.edit with
  | none => simp [editing, hedit] at h
  | some e => simp [endEdit, hedit]

/-- Settles O34: with no lock-out to settle each row's body answers once its own checks and its password are passed. -/
theorem safetyConfigurationCommandsRun : Obligations.SafetyConfigurationCommandsRun := by
  intro s r
  obtain ⟨m, hstart⟩ := started_withMailbox r s
  rw [hstart]
  have hsettle (h : s.nvSaf.lockUntil = none) : settleLockout (withMailbox m s) = withMailbox m s := settleLockout_none h
  refine ⟨fun h => ?get, fun copy kind index set h hindex hset => ?read,
    fun password h hfree hset hlength hedit hright => ?openEdit, fun kind index block h hedit hindex => ?write,
    fun h hedit hok hcost hoff => ?commit, fun h hedit => ?close,
    fun signature password h hfree hset hawaiting hsignature hlength hright => ?ack,
    fun new h hfree hlength hset hlifecycle => ?firstPassword,
    fun old new h hfree hnew hold hgiven hright => ?newPassword, fun first count h hfirst hlow hhigh => ?getLog⟩
  case get => exact exec_okay ⟨rfl, rfl, fun _ => rfl⟩ hstart h rfl
  case read =>
    have hset : copySet (withMailbox m s) copy = some set := hset
    exact exec_okay ⟨rfl, rfl, fun _ => rfl⟩ hstart h (checked_pass (by simpa using hindex) (checked_pass (by simp [hset])
      (by simp only [checked, firstOf, hset]; rfl)))
  case openEdit =>
    have hset : (withMailbox m s).nvSaf.password.isSome = true := hset
    have hedit : (withMailbox m s).saf.edit = none := hedit
    have hright : passwordRight (withMailbox m s) password = true := hright
    refine exec_okay ⟨rfl, rfl, fun _ => rfl⟩ hstart h ?_
    simp only [hsettle hfree]
    exact checked_pass_or (lockedOut_none hfree) (by simpa using hset) (checked_need hlength
      (checked_pass (by simp [hedit]) (checked_done (withPassword_right hright rfl))))
  case write =>
    exact exec_okay ⟨rfl, rfl, fun _ => rfl⟩ hstart h (checked_need hedit (checked_pass (by simpa using hindex) rfl))
  case commit =>
    exact exec_okay ⟨rfl, rfl, fun _ => rfl⟩ hstart h (checked_need hedit (checked_need hok
      (checked_pass (decide_eq_false (Nat.not_lt.mpr hcost)) (checked_pass hoff rfl))))
  case close =>
    exact exec_okay ⟨rfl, rfl, fun _ => rfl⟩ hstart h (checked_need hedit (congrArg Reply.ok (endEdit_editing hedit)))
  case ack =>
    have hset : (withMailbox m s).nvSaf.password.isSome = true := hset
    refine exec_okay ⟨rfl, rfl, fun _ => rfl⟩ hstart h ?_
    simp only [hsettle hfree]
    exact unless_pass (Bool.or_eq_false_iff.mpr ⟨lockedOut_none hfree, by simpa using hset⟩) (unless_need hawaiting
      (unless_pass (bne_eq_false_iff_eq.mpr hsignature) (unless_need hlength (unless_need hright rfl))))
  case firstPassword =>
    have hset : (withMailbox m s).nvSaf.password = none := hset
    have hlifecycle : lifecycle (withMailbox m s) = lcIntegration := hlifecycle
    refine exec_okay ⟨rfl, rfl, fun _ => rfl⟩ hstart h ?_
    simp only [hsettle hfree]
    exact checked_pass (lockedOut_none hfree) (checked_need hlength
      (checked_pass (by simp [hset, hlifecycle]) (checked_pass rfl rfl)))
  case newPassword =>
    have hright : passwordRight (withMailbox m s) old = true := hright
    have hgiven : old.isEmpty = false := List.isEmpty_eq_false_iff.mpr hgiven
    refine exec_okay ⟨rfl, rfl, fun _ => rfl⟩ hstart h ?_
    simp only [hsettle hfree]
    exact checked_pass (lockedOut_none hfree) (checked_need hnew
      (checked_pass_if (fun hempty => absurd hempty (by simp [hgiven]))
        (checked_need_if (fun _ => hold) (unless_pass hgiven (withPassword_right hright rfl)))))
  case getLog =>
    exact exec_okay ⟨rfl, rfl, fun _ => rfl⟩ hstart h (checked_pass (by simp; omega) rfl)

end Sys2Proof.Machine

/-! ### Load-switch commands (R429, R432 to R434) -/

namespace Sys2Proof.Machine

/-- Settles O35: each row's body answers once its own checks are passed; a request for off needs fewer of them. -/
theorem loadCommandsRun : Obligations.LoadCommandsRun := by
  intro s r
  obtain ⟨m, hstart⟩ := started_withMailbox r s
  rw [hstart]
  refine ⟨fun channel h hchannel => ?getChannel, fun channel h hkicked howned hchannel hused => ?switchOn,
    fun channel h howned hchannel => ?switchOff, fun generator duty h hkicked hgen hduty henabled hgroup => ?duty,
    fun mask h hmask howned hlatch => ?clear, fun h => ?package⟩
  case getChannel => exact exec_okay ⟨rfl, rfl, fun _ => rfl⟩ hstart h (checked_pass (by simpa using hchannel) rfl)
  case switchOn =>
    have hused : loadUsed (withMailbox m s) channel = true := hused
    exact exec_okay ⟨rfl, rfl, fun _ => rfl⟩ hstart h (checked_pass_if (fun _ => hkicked)
      (checked_pass howned (checked_pass (by simpa [hused] using hchannel) rfl)))
  case switchOff =>
    exact exec_okay ⟨rfl, rfl, fun _ => rfl⟩ hstart h
      (checked_pass rfl (checked_pass howned (checked_pass (by simpa using hchannel) rfl)))
  case duty =>
    have henabled : gnEnabled (genCfg (withMailbox m s) generator) = true := henabled
    have hgroup : genGroup (withMailbox m s) generator = none := hgroup
    exact exec_okay ⟨rfl, rfl, fun _ => rfl⟩ hstart h
      (checked_pass_if (fun hon => hkicked.resolve_left (by simpa using hon))
        (checked_pass (by simp [henabled, hgroup]; omega) rfl))
  case clear =>
    exact exec_okay ⟨rfl, rfl, fun _ => rfl⟩ hstart h
      (checked_pass (List.any_eq_false.mpr fun c hc => Bool.eq_false_iff.mp (howned c hc))
        (checked_pass (by simpa using hmask)
          (checked_pass (List.any_eq_false.mpr fun c hc => Bool.eq_false_iff.mp (hlatch c hc)) rfl)))
  case package => exact exec_okay ⟨rfl, rfl, fun _ => rfl⟩ hstart h rfl

end Sys2Proof.Machine

/-! ### Buffer-stack commands (R439, R454, R456, R457) -/

namespace Sys2Proof.Machine

/-- Settles O36: each row's body answers once its own checks are passed. -/
theorem stackCommandsRun : Obligations.StackCommandsRun := by
  intro s r
  obtain ⟨m, hstart⟩ := started_withMailbox r s
  rw [hstart]
  refine ⟨fun h => ?status, fun chain position h hchain hlow hhigh => ?companion, fun string soc h hstring hsoc => ?setSoc,
    fun chain position h hchain hused hposition hbroken hasleep => ?clear⟩
  case status => exact exec_okay ⟨rfl, rfl, fun _ => rfl⟩ hstart h rfl
  case companion =>
    have hhigh : position ≤ chainLen (withMailbox m s) chain := hhigh
    exact exec_okay ⟨rfl, rfl, fun _ => rfl⟩ hstart h (checked_pass (by simp; omega) rfl)
  case setSoc =>
    have hstring : (stringCfg (withMailbox m s) string).isSome = true := hstring
    exact exec_okay ⟨rfl, rfl, fun _ => rfl⟩ hstart h
      (checked_pass_or (Option.isNone_eq_false_iff.mpr hstring) (by simpa using hsoc) rfl)
  case clear =>
    have hused : 1 ≤ chainLen (withMailbox m s) chain := hused
    have hposition : position ≤ chainLen (withMailbox m s) chain := hposition
    exact exec_okay ⟨rfl, rfl, fun _ => rfl⟩ hstart h (checked_pass (by simp; omega)
      (checked_pass_or (beq_eq_false_iff_ne.mpr hbroken) (beq_eq_false_iff_ne.mpr hasleep) rfl))

end Sys2Proof.Machine

/-! ### Recorder commands (R491 to R494, R497) -/

namespace Sys2Proof.Machine

/-- Settles O38: each row's body answers once its own checks are passed; the authority of a clear decides whether it
is refused. -/
theorem recorderCommandsRun : Obligations.RecorderCommandsRun := by
  intro s r
  obtain ⟨m, hstart⟩ := started_withMailbox r s
  rw [hstart]
  refine ⟨fun h => ?info, fun part start limit count within h hlow hhigh hcount hmost hwithin => ?read, fun h => ?limits,
    fun h => ?challenge, fun part limit kind sig x h hkind hlow hhigh hauthority hlegal hstate hlimit hnone => ?clear,
    fun note h hplace => ?note⟩
  case info => exact exec_okay ⟨rfl, rfl, fun _ => rfl⟩ hstart h rfl
  case read =>
    subst hwithin
    exact exec_okay ⟨rfl, rfl, fun _ => rfl⟩ hstart h (checked_pass (by simp; omega) rfl)
  case limits => exact exec_okay ⟨rfl, rfl, fun _ => rfl⟩ hstart h rfl
  case challenge => exact exec_okay ⟨rfl, rfl, fun _ => rfl⟩ hstart h rfl
  case clear =>
    have hnotRefused : (part == 1 && x.1 != 3) = false := by simpa using hlegal
    refine exec_accepted ⟨rfl, rfl, fun _ => rfl⟩ hstart h ?_
    simp only [hauthority, hnotRefused, Bool.and_false, Bool.false_eq_true, if_false]
    exact checked_pass (by simp; omega) (checked_need hstate (checked_pass (bne_eq_false_iff_eq.mpr hlimit)
      (checked_pass (congrArg Option.isSome hnone) rfl)))
  case note =>
    have hplace : hasPlace 4 (withMailbox m s) = true := hplace
    exact exec_okay ⟨rfl, rfl, fun _ => rfl⟩ hstart h (checked_pass (by simp [hplace]) rfl)

end Sys2Proof.Machine

/-! ### Commands of the tandem pair and the peloton (R505, R519, R520) -/

namespace Sys2Proof.Machine

/-- Settles O39: each row's body answers once its own checks are passed. -/
theorem pairCommandsRun : Obligations.PairCommandsRun := by
  intro s r
  obtain ⟨m, hstart⟩ := started_withMailbox r s
  rw [hstart]
  refine ⟨fun h => ?status, fun h hactive hpending hsent => ?switchOver, fun h => ?peloton⟩
  case status => exact exec_okay ⟨rfl, rfl, fun _ => rfl⟩ hstart h rfl
  case switchOver =>
    exact exec_okay ⟨rfl, rfl, fun _ => rfl⟩ hstart h
      (checked_pass (bne_eq_false_iff_eq.mpr hactive) (checked_pass_or hpending hsent rfl))
  case peloton => exact exec_okay ⟨rfl, rfl, fun _ => rfl⟩ hstart h rfl

end Sys2Proof.Machine

/-! ### Metering commands on records (R293, R294, R313) -/

namespace Sys2Proof.Machine

/-- Settles O60: the record found and the rendering kept decide what a row's body answers. -/
theorem meteringRecordsRun : Obligations.MeteringRecordsRun := by
  intro s r
  obtain ⟨m, hstart⟩ := started_withMailbox r s
  rw [hstart]
  refine ⟨fun mseq x h hheld hrecord hgood => ?get, fun mseq x h hheld hrecord hbad => ?getBad,
    fun mseq format offset x h hkeys hformat hheld hrecord hnone => ?renderFirst,
    fun mseq format offset x h hkeys hformat hheld hkept hoffset => ?renderKept,
    fun mseq format offset x n f b h hkeys hformat hheld hrecord hkept hother => ?renderOther,
    fun mseq h htail hhead => ?ack⟩
  case get =>
    have hrecord : recordOf (withMailbox m s) mseq = some x := hrecord
    exact exec_okay ⟨rfl, rfl, fun _ => rfl⟩ hstart h
      (checked_need hheld (by simp only [checked, firstOf, hrecord, hgood]; rfl))
  case getBad =>
    have hrecord : recordOf (withMailbox m s) mseq = some x := hrecord
    exact exec_okay ⟨rfl, rfl, fun _ => rfl⟩ hstart h
      (checked_need hheld (by simp only [checked, firstOf, hrecord, hbad]; rfl))
  case renderFirst =>
    have hrecord : recordOf (withMailbox m s) mseq = some x := hrecord
    have hnone : nth (withMailbox m s).mtr.rendered r.ch = none := hnone
    exact exec_accepted ⟨rfl, rfl, fun _ => rfl⟩ hstart h (checked_pass (congrArg Option.isSome hkeys)
      (checked_pass_or (decide_eq_false (Nat.not_le.mpr hformat)) (congrArg (!·) hheld)
        (by simp only [checked, firstOf, hrecord, hnone]; rfl)))
  case renderKept =>
    have hkept : nth (withMailbox m s).mtr.rendered r.ch = some (mseq, format, x) := hkept
    exact exec_okay ⟨rfl, rfl, fun _ => rfl⟩ hstart h (checked_pass (congrArg Option.isSome hkeys)
      (checked_pass_or (decide_eq_false (Nat.not_le.mpr hformat)) (congrArg (!·) hheld)
        (by simp [checked, firstOf, hkept, Nat.not_lt.mpr hoffset, renderedPart])))
  case renderOther =>
    have hrecord : recordOf (withMailbox m s) mseq = some x := hrecord
    have hkept : nth (withMailbox m s).mtr.rendered r.ch = some (n, f, b) := hkept
    have hother : (decide (n = mseq) && decide (f = format)) = false := by simpa [imp_iff_not_or] using hother
    exact exec_accepted ⟨rfl, rfl, fun _ => rfl⟩ hstart h (checked_pass (congrArg Option.isSome hkeys)
      (checked_pass_or (decide_eq_false (Nat.not_le.mpr hformat)) (congrArg (!·) hheld)
        (by simp only [checked, firstOf, hrecord, hkept, hother]; rfl)))
  case ack =>
    exact exec_okay ⟨rfl, rfl, fun _ => rfl⟩ hstart h (checked_pass_or (decide_eq_false (Nat.not_lt.mpr htail))
      (decide_eq_false (Nat.not_le.mpr hhead)) rfl)

end Sys2Proof.Machine

/-! ### Key commands (R461, R465, R467, R468, R478, R479) -/

namespace Sys2Proof.Machine

theorem generalSlot_of_bounds {n : Nat} (hlow : 8 ≤ n) (hhigh : n < 256) : generalSlot n = true := by
  simp [generalSlot, hlow, hhigh]

/-- A key of any algorithm but Falcon-1024 is written at once (R479). -/
theorem startWrite_now (k : Cmd) (r : Req) (slot : Nat) {key : KeyCopy} (s : State) (h : key.alg ≠ 0x20) :
    startWrite k r slot key s = ⟨installKey slot key s, stOk, []⟩ := if_neg h

/-- A key of Falcon-1024 is written within 60 ms (R479). -/
theorem startWrite_later (k : Cmd) (r : Req) (slot : Nat) {key : KeyCopy} (s : State) (h : key.alg = 0x20) :
    startWrite k r slot key s = accept k r 60 (.write slot key) { s with keys.busy := s.keys.busy ++ [slot] } := if_pos h

/-- The checks that the commands writing a general slot share: the slot may be written, the attributes are permitted and within
their fields, and no write of it is in progress (R461, R464, R465). -/
structure SlotWritable (s : State) (slot how : Nat) (attr : KeyAttr) : Prop where
  low : 8 ≤ slot
  high : slot < 256
  allowed : writeDenied s slot attr.usage = false
  permitted : attrOk how attr = true
  fields : attrFields attr = true
  idle : writeBusy s slot = false

section
variable {s : State} {slot how : Nat} {attr : KeyAttr}

theorem SlotWritable.general (h : SlotWritable s slot how attr) : generalSlot slot = true :=
  generalSlot_of_bounds h.low h.high

/-- The slot and the attributes of a permitted write pass the check of ST_KEY_ATTR. -/
theorem SlotWritable.attributes (h : SlotWritable s slot how attr) :
    (generalSlot slot && writeDenied s slot attr.usage || decide (slot < 5) || !attrOk how attr) = false := by
  have hlow := h.low
  simp [h.allowed, h.permitted]
  omega

/-- The number and the fields of a permitted write pass the check of ST_BAD_ARG. -/
theorem SlotWritable.arguments (h : SlotWritable s slot how attr) : (!generalSlot slot || !attrFields attr) = false := by
  simp [h.general, h.fields]

end

/-- Settles O37: the checks of a slot write are shared; the algorithm and the winner of a slot decide what else is done. -/
theorem keyCommandsRun : Obligations.KeyCommandsRun := by
  intro s r
  obtain ⟨m, hstart⟩ := started_withMailbox r s
  have hauthKey : authKey (withMailbox m s) r = authKey s r := by rw [← hstart, authKey_started]
  rw [hstart]
  refine ⟨fun slot w h hslot hwinner => ?getSlot, fun slot h hslot hbad => ?getBadSlot,
    fun slot attr label h hlow hhigh hdenied hattr hfields hbusy halg => ?generate,
    fun slot attr label h hlow hhigh hdenied hattr hfields hbusy halg => ?generateFalcon,
    fun slot attr label data h hlow hhigh hdenied hattr hfields hbusy hlength hclear => ?importWhole,
    fun slot attr label offset data h hlow hhigh hdenied hattr hfields hbusy hoffset hlength => ?importPart,
    fun parent child attr label p h hlow hhigh hother hinvoke hwinner hchild hdenied hattr hfields hbusy halg => ?derive,
    fun slot w h hlow hhigh hwinner hgeneration hstate hbusy => ?revoke, fun slot h hlow hhigh hbusy => ?erase,
    fun slot k h hslot hwinner hstate halg => ?publicPart,
    fun slot k key h hslot hwinner hstate halg hexportable hworld hkey => ?wrapped,
    fun slot digest k h hinvoke hwinner hlow hhigh => ?sign, fun nonce k h hwinner hstate => ?attest,
    fun which offset h hwhich hoffset => ?certificate⟩
  case getSlot =>
    have hwinner : slotWinner slot (nth (withMailbox m s).slots slot) = some w := hwinner
    exact exec_okay ⟨rfl, rfl, fun _ => rfl⟩ hstart h (checked_pass (by simpa using hslot) (checked_done (by
      simp only [hwinner]
      rfl)))
  case getBadSlot =>
    have hbad : slotWinner slot (nth (withMailbox m s).slots slot) = none := hbad
    exact exec_okay ⟨rfl, rfl, fun _ => rfl⟩ hstart h (checked_pass (by simpa using hslot) (checked_done (by
      simp only [hbad]
      rfl)))
  case generate =>
    have hwrite : SlotWritable (withMailbox m s) slot _ attr := ⟨hlow, hhigh, hdenied, hattr, hfields, hbusy⟩
    exact exec_okay ⟨rfl, rfl, fun _ => rfl⟩ hstart h (checked_pass hwrite.attributes (checked_pass hwrite.arguments
      (checked_pass hwrite.idle (startWrite_now _ _ _ _ halg))))
  case generateFalcon =>
    have hwrite : SlotWritable (withMailbox m s) slot _ attr := ⟨hlow, hhigh, hdenied, hattr, hfields, hbusy⟩
    exact exec_accepted ⟨rfl, rfl, fun _ => rfl⟩ hstart h (checked_pass hwrite.attributes (checked_pass hwrite.arguments
      (checked_pass hwrite.idle (startWrite_later _ _ _ _ halg))))
  case importWhole =>
    have hwrite : SlotWritable (withMailbox m s) slot _ attr := ⟨hlow, hhigh, hdenied, hattr, hfields, hbusy⟩
    exact exec_okay ⟨rfl, rfl, fun _ => rfl⟩ hstart h (checked_pass hwrite.attributes
      (checked_pass (by simpa [hwrite.general, hwrite.fields] using hlength)
        (checked_need_if (fun _ => hclear) (checked_pass hwrite.idle rfl))))
  case importPart =>
    have hoffset : (if offset = 0 then [] else importSoFar (withMailbox m s) r.ch slot).length = offset := hoffset
    have hwrite : SlotWritable (withMailbox m s) slot _ attr := ⟨hlow, hhigh, hdenied, hattr, hfields, hbusy⟩
    exact exec_okay ⟨rfl, rfl, fun _ => rfl⟩ hstart h (checked_pass hwrite.attributes
      (checked_pass (by simp [hwrite.general, hwrite.fields, hoffset, hlength])
        (checked_pass rfl (checked_pass hwrite.idle rfl))))
  case derive =>
    have hwrite : SlotWritable (withMailbox m s) child _ attr := ⟨hlow, hhigh, hdenied, hattr, hfields, hbusy⟩
    have hinvoke : invocation (withMailbox m s) parent (fun k => k.usage == useDerive && k.alg == 0x03) byKeyEngine true =
      none := hinvoke
    have hwinner : winner (withMailbox m s) parent = some p := hwinner
    refine exec_okay ⟨rfl, rfl, fun _ => rfl⟩ hstart h ?_
    simp only [hinvoke, hwinner]
    exact checked_pass_or hwrite.attributes (congrArg (!·) hchild)
      (checked_pass_or hwrite.arguments (beq_eq_false_iff_ne.mpr hother)
        (checked_pass hwrite.idle (startWrite_now _ _ _ _ halg)))
  case revoke =>
    have hwinner : winner (withMailbox m s) slot = some w := hwinner
    refine exec_okay ⟨rfl, rfl, fun _ => rfl⟩ hstart h ?_
    simp only [hwinner]
    exact checked_pass (by simp; omega)
      (checked_pass (by simp [generalSlot_of_bounds hlow hhigh, hstate]) (checked_pass hbusy rfl))
  case erase =>
    exact exec_okay ⟨rfl, rfl, fun _ => rfl⟩ hstart h (checked_pass (by simp; omega)
      (checked_need (generalSlot_of_bounds hlow hhigh) (checked_pass hbusy rfl)))
  case publicPart =>
    have hwinner : winner (withMailbox m s) slot = some k := hwinner
    have hasymmetric : ¬k.alg < 0x10 := Nat.not_lt.mpr halg
    refine exec_okay ⟨rfl, rfl, fun _ => rfl⟩ hstart h ?_
    simp only [hwinner, hasymmetric]
    exact checked_pass (by simpa using hslot)
      (checked_pass (bne_eq_false_iff_eq.mpr hstate) (checked_pass rfl (checked_pass rfl rfl)))
  case wrapped =>
    have hwinner : winner (withMailbox m s) slot = some k := hwinner
    have hkey : authKey (withMailbox m s) r = some key := hauthKey.trans hkey
    refine exec_okay ⟨rfl, rfl, fun _ => rfl⟩ hstart h ?_
    simp only [hwinner, halg, hkey]
    exact checked_pass (by simpa using hslot) (checked_pass (bne_eq_false_iff_eq.mpr hstate)
      (checked_pass (by simpa [hexportable] using hworld) (checked_pass rfl (checked_done (by simp only [hkey]; rfl)))))
  case sign =>
    have hinvoke : invocation (withMailbox m s) slot (fun k => k.usage == 0x0E && algSigns k.alg && keyPrivate k) r.ch
        (r.world == 1) = none := hinvoke
    have hwinner : winner (withMailbox m s) slot = some k := hwinner
    refine exec_accepted ⟨rfl, rfl, fun _ => rfl⟩ hstart h ?_
    simp only [hinvoke, hwinner]
    exact checked_pass_or (decide_eq_false (Nat.ne_of_gt hlow)) (decide_eq_false (Nat.not_lt.mpr hhigh)) rfl
  case attest =>
    have hwinner : winner (withMailbox m s) 1 = some k := hwinner
    refine exec_accepted ⟨rfl, rfl, fun _ => rfl⟩ hstart h ?_
    simp only [hwinner]
    exact checked_pass (bne_eq_false_iff_eq.mpr hstate) rfl
  case certificate => exact exec_okay ⟨rfl, rfl, fun _ => rfl⟩ hstart h (checked_pass (by simp; omega) rfl)

end Sys2Proof.Machine

/-! ### Steps that no request starts -/

namespace Sys2Proof.Machine

section
variable {c d : Prop} [Decidable c] [Decidable d] {s t u x : State}

/-- Equal states are the same answer. -/
theorem next_eq (h : t = u) : (.next t : Res) = .next u := by rw [h]

/-- A step under a condition that holds takes its effect. -/
theorem next_of_pos (hc : c) (h : t = u) : (.next (if c then t else s) : Res) = .next u := by rw [if_pos hc, h]

/-- A step under a condition that does not hold takes the other branch. -/
theorem next_of_neg (hc : ¬ c) (h : s = u) : (.next (if c then t else s) : Res) = .next u := by rw [if_neg hc, h]

/-- A step whose first condition fails and whose second holds. -/
theorem next_of_neg_pos (hc : ¬ c) (hd : d) (h : t = u) :
    (.next (if c then x else if d then t else s) : Res) = .next u := next_of_neg hc ((if_pos hd).trans h)

end

section
variable {a b : Bool}

/-- Two facts make the condition of both. -/
theorem and_holds (ha : a = true) (hb : b = true) : (a && b) = true := by rw [ha, hb]; rfl

/-- A negated condition fails where the fact holds. -/
theorem not_fails (ha : a = true) : ¬ (!a) = true := by rw [ha]; decide

/-- A condition that is false fails. -/
theorem fails_of_false (ha : a = false) : ¬ a = true := Bool.eq_false_iff.mp ha

end

/-! ### The register window -/

/-- A word of the window is one piece of a transaction. -/
theorem pieces_word {a : Nat} (ha : a < 0x1000) (halign : a % 4 = 0) : pieces 4 a 4 = [(a, 4)] := by
  simp [pieces, ha, halign]

/-- A byte of the window is one piece of a transaction. -/
theorem pieces_byte {a : Nat} (ha : a < 0x1000) : pieces 1 a 1 = [(a, 1)] := by
  have hmin : min (4 - a % 4) 1 = 1 := by omega
  simp [pieces, ha, hmin]

/-- An aligned word of a register errs nowhere. -/
theorem pieceErr_word {s : State} {a : Nat} {reg : Reg} (ha : a < 0x1000) (halign : a % 4 = 0)
    (hreg : regAt a = some reg) : pieceErr s (a, 4) = [] := by
  have hword : a / 4 * 4 = a := by omega
  simp [pieceErr, ha, halign, hword, hreg]

/-- One byte of a reserved word errs by its width and by its address. -/
theorem pieceErr_reserved {s : State} {a : Nat} (ha : a < 0x1000) (hreg : regAt (a / 4 * 4) = none) :
    pieceErr s (a, 1) = [0, 1] := by
  simp [pieceErr, ha, hreg]

/-- A write of an aligned word to a register. -/
theorem writePieces_word {s : State} {a : Nat} {data : Bytes} {reg : Reg} (ha : a < 0x1000) (halign : a % 4 = 0)
    (hlen : data.length = 4) (hreg : regAt a = some reg) :
    writePieces (pieces data.length a data.length) data s = writeReg reg (BitVec.ofNat 32 (leNat data)) s := by
  have hall : data.take 4 = data := List.take_of_length_le (by omega)
  simp [hlen, pieces_word ha halign, writePieces, writePiece, pieceErr_word ha halign hreg, ha, hreg, hall]

/-- A write of one byte to a reserved word. -/
theorem writePieces_reserved {s : State} {a : Nat} {data : Bytes} (ha : a < 0x1000) (hreg : regAt (a / 4 * 4) = none)
    (hlen : data.length = 1) : writePieces (pieces data.length a data.length) data s = winErr 1 (winErr 0 s) := by
  simp [hlen, pieces_byte ha, writePieces, writePiece, pieceErr_reserved ha hreg, winErrs]

/-- A read of one byte of a reserved word answers a zero and errs. -/
theorem readBytes_reserved {s : State} {a : Nat} (ha : a < 0x1000) (hreg : regAt (a / 4 * 4) = none) :
    readBytes s a 1 = [0] := by
  simp [readBytes, pieces_byte ha, readPiece, pieceErr_reserved ha hreg]

/-- Settles O40: each access is the write of its register, of its pointer or of no register at all. -/
theorem registerWindowRuns : Obligations.RegisterWindowRuns := by
  intro s
  refine ⟨fun _ _ => rfl, fun ch v hw hch hok => ?reqProd, fun ch v hw hch hbad => ?reqProdRefused,
    fun ch v hw hch hok => ?rspCons, fun ch v hw hch hbad => ?rspConsRefused, fun ch hw hch => ?reset,
    fun ch hw hch => ?enable, fun ch hw hch => ?disable, fun _ _ hw => next_of_pos hw rfl,
    fun m _ _ hw hm => next_of_pos (and_holds hw (decide_eq_true hm)) rfl, fun _ hw => next_of_pos hw rfl,
    fun a data reg hw ha halign hlen hreg => next_of_pos hw (writePieces_word ha halign hlen hreg),
    fun a data hw ha hreg hlen => next_of_pos hw (writePieces_reserved ha hreg hlen),
    fun a n hw ha hreg hn => ?read⟩
  case reqProd => exact next_of_pos (and_holds hw (decide_eq_true hch)) (if_pos hok)
  case reqProdRefused => exact next_of_pos (and_holds hw (decide_eq_true hch)) (if_neg (fails_of_false hbad))
  case rspCons => exact next_of_pos (and_holds hw (decide_eq_true hch)) (if_pos hok)
  case rspConsRefused => exact next_of_pos (and_holds hw (decide_eq_true hch)) (if_neg (fails_of_false hbad))
  case reset => exact next_of_pos (and_holds hw (decide_eq_true hch)) rfl
  case enable => exact next_of_pos (and_holds hw (decide_eq_true hch)) rfl
  case disable => exact next_of_pos (and_holds hw (decide_eq_true hch)) rfl
  case read =>
    subst hn
    refine next_of_pos hw ?_
    simp [readBytes_reserved ha hreg, pieces_byte ha, pieceErr_reserved ha hreg, winErrs]

end Sys2Proof.Machine

/-! ### Reading a request (R63 to R65) -/

namespace Sys2Proof.Machine

section
variable {s : State} {ch : Nat} {f : Frame} {p : Frame → Bool}

/-- A row that names the kind of the next frame reads it. -/
theorem readIf_next (hnext : nextFrame s = some (ch, f)) (hkind : p f = true) : readIf p s = readFrame ch f s := by
  simp only [readIf, hnext, hkind, ↓reduceIte]

theorem readFrame_badMagic (hmagic : magicOk f = false) : readFrame ch f s = .next (badMagic ch (consume ch s)) := by
  simp only [readFrame, hmagic, Bool.not_false, ↓reduceIte]

theorem readFrame_badCrc (hmagic : magicOk f = true) (hcrc : crcOk f = false) :
    readFrame ch f s = .next (badCrc ch f (consume ch s)) := by
  simp [readFrame, hmagic, hcrc]

theorem readFrame_good (hmagic : magicOk f = true) (hcrc : crcOk f = true) :
    readFrame ch f s = startFrame ch f (consume ch s) := by
  simp [readFrame, hmagic, hcrc]

theorem startFrame_badLength (hlen : 4064 < g16 f.head 8) :
    startFrame ch f s = .next (badLength (frameOp f) (frameReq s ch f) s) := if_pos hlen

theorem startFrame_undefined (hlen : g16 f.head 8 ≤ 4064) (hop : opInService s (frameOp f) = false) :
    startFrame ch f s = undefinedOp (frameOp f) (frameReq s ch f) s := by
  simp [startFrame, Nat.not_lt.mpr hlen, hop]

theorem startFrame_spelt {c : State → Res} (hlen : g16 f.head 8 ≤ 4064) (hop : opInService s (frameOp f) = true)
    (hspelt : commandOf (frameOp f) (frameReq s ch f) f.payload = some c) : startFrame ch f s = c s := by
  simp [startFrame, Nat.not_lt.mpr hlen, hop, hspelt]

/-- An undefined opcode on a free tag that keeps no response is refused. -/
theorem undefinedOp_refused {op : Nat} {r : Req} (hserves : serves s r.ch = true)
    (hfree : (tagOf (chan s r.ch) r.tag).used = false) (hkept : (tagOf (chan s r.ch) r.tag).kept = none) :
    undefinedOp op r s = .next (refuse { op := op, defined := false } r stBadOpcode s) := by
  refine command_of_gate _ (.inr (gate_refused hserves (.inl rfl) hfree ?_ rfl))
  simp [hkept]

/-- Copying a frame out leaves what a channel is bound to. -/
theorem consume_binding (c ch : Nat) (s : State) : (chan (consume ch s) c).binding = (chan s c).binding := by
  unfold consume
  rw [chan_onChan]
  split
  · split <;> rfl
  · rfl

/-- Copying a frame out leaves the opcodes in service. -/
theorem consume_opInService (ch op : Nat) (s : State) : opInService (consume ch s) op = opInService s op := rfl

/-- A bad magic in a slot of the window is counted. -/
theorem badMagic_slot (hslot : (chan s ch).binding = 0) :
    badMagic ch s = raise evMbxFraming (count ch statFraming (count ch statFrames s)) := if_pos hslot

end

/-- Settles O41: the next frame, the held response, the running command or the connection decides each step. -/
theorem requestReadingRuns : Obligations.RequestReadingRuns := by
  intro s
  refine ⟨fun ch f c hnext hmagic hcrc hlen hop hspelt => ?read, fun ch f hnext hmagic hcrc hlen => ?tooLong,
    fun ch f hnext hmagic hbinding => ?magic, fun ch f hnext hmagic hcrc => ?crc,
    fun ch f hnext hmagic hcrc hlen hop hserves hfree hkept => ?opcode, fun ch f rest hheld hfull hbinding => ?response,
    fun ch tag w p horphan hrunning hend => ?completion, fun ch tag w horphan hrunning => ?timeout,
    fun ch conn hallowed => next_of_pos hallowed rfl, fun ch frame hconn hmagic hlen hon => ?stream,
    fun ch hconn => next_of_pos hconn rfl, fun ch hconn => next_of_pos hconn rfl⟩
  case read =>
    exact (readIf_next hnext rfl).trans ((readFrame_good hmagic hcrc).trans (startFrame_spelt hlen hop hspelt))
  case tooLong => exact (readIf_next hnext rfl).trans ((readFrame_good hmagic hcrc).trans (startFrame_badLength hlen))
  case magic =>
    rw [← badMagic_slot ((consume_binding ch ch s).trans hbinding)]
    exact (readIf_next hnext (by simp [hmagic])).trans (readFrame_badMagic hmagic)
  case crc => exact (readIf_next hnext (by simp [hmagic, hcrc])).trans (readFrame_badCrc hmagic hcrc)
  case opcode =>
    have hundefined : undefinedOp (frameOp f) (frameReq (consume ch s) ch f) (consume ch s) = _ :=
      undefinedOp_refused hserves hfree hkept
    rw [← hundefined, ← startFrame_undefined hlen ((consume_opInService ch _ s).trans hop), ← readFrame_good hmagic hcrc]
    exact readIf_next hnext (by simp [hmagic, hcrc, hop])
  case response =>
    change execResponseWrite ch s = _
    simp only [execResponseWrite, hheld, hfull, hbinding]
    rfl
  case completion =>
    change execCommandCompletion ch tag s = _
    simp only [execCommandCompletion, horphan, hrunning, hend]
    rfl
  case timeout =>
    change execCommandTimeout ch tag s = _
    simp only [execCommandTimeout, horphan, hrunning]
  case stream =>
    exact next_of_neg (not_fails hconn) <| (if_neg (not_fails hmagic)).trans <|
      (if_neg (Nat.not_lt.mpr hlen)).trans (if_neg (not_fails hon))

end Sys2Proof.Machine

/-! ### Resets and the boot (R77 to R90, R271) -/

namespace Sys2Proof.Machine

/-- A part held in reset for a cause: the volatile state as at reset, MRAM, NOR, keys and supplies kept. -/
def heldReset (cause : Nat) (s : State) : State := { State.reset with
  sys := { State.reset.sys with
    resetCause := cause, pfwLow := s.sys.pfwLow, io33 := s.sys.io33, rtcLost := s.sys.rtcLost, rtcNoted := s.sys.rtcNoted }
  nv := s.nv, nvRec := s.nvRec, nvHub := s.nvHub, nvOut := { s.nvOut with
    unchecked := s.nvOut.unchecked.zipIdx.map fun p => p.1 || cutClosed (nth s.ses p.2) }, nvHeat := s.nvHeat, nvMtr := s.nvMtr
  nvSaf := s.nvSaf, nvStk := s.nvStk, slots := s.slots, env := s.env, free := s.free, pending := s.pending }

section
variable {s : State} {cause : Nat}

/-- A reset of a part out of reset gives its own cause. -/
theorem resetPart_running (hheld : s.sys.phase ≠ .held) (hhot : s.sys.phase ≠ .heatHold) :
    resetPart cause s = heldReset cause s := by
  have hcause : (s.sys.phase == .held) = false := beq_eq_false_iff_ne.mpr hheld
  rw [resetPart, if_neg hhot, hcause]
  rfl

/-- A reset of a part held in reset keeps the lower of the two causes (R79). -/
theorem resetPart_held (hheld : s.sys.phase = .held) : resetPart cause s = heldReset (min cause s.sys.resetCause) s := by
  have hhot : s.sys.phase ≠ .heatHold := by rw [hheld]; decide
  have hcause : (s.sys.phase == .held) = true := beq_iff_eq.mpr hheld
  rw [resetPart, if_neg hhot, hcause]
  rfl

/-- No reset ends the hold of the thermal shutdown (R271). -/
theorem resetPart_hot (hhot : s.sys.phase = .heatHold) : resetPart cause s = s := if_pos hhot

end

/-- The thermal shutdown as the heat store keeps it, before the reset that follows (R270). -/
def noteShutdown (s : State) : State := { s with
  nvHeat.record := s.heat.die.map (·.value), nvHeat.count := (s.nvHeat.count + 1) % 2 ^ 32
  nvHeat.seconds := (s.nv.opSeconds :: s.nvHeat.seconds).take 3
  nvHeat.hold := List.replicate 8 none, nvHeat.holdRun := List.replicate 8 0, nvHeat.coolRun := 0
  nvHeat.prev := List.replicate 8 none }

/-- A part that is up runs. -/
theorem phase_of_up {s : State} (h : up s = true) : s.sys.phase = .running := by simpa [up] using h

/-- Settles O42: each reset is that of the whole part after its own change. -/
theorem resetsRun : Obligations.ResetsRun := by
  intro s
  refine ⟨fun hheld hhot => ?pin, fun hheld hhot => ?core, fun rail hheld hhot hrail => ?rail,
    fun hheld hhot hcause => ?railSafe, fun hheld hhot => ?watchdog, fun hheld hhot hdue => ?command,
    fun hheld => ?again, fun hhot => ?hot,
    fun hup hshut => ?thermal, fun p t hp ht howner => ?transition⟩
  case pin => exact next_eq (resetPart_running (s := { s with env.resetN := false }) hheld hhot)
  case core => exact next_eq (resetPart_running (s := { s with env.rails := false }) hheld hhot)
  case rail =>
    refine next_eq (Eq.trans ?_ (resetPart_running (s := { s with
      env.rails := false, env.vddio := s.env.vddio && rail != 1 }) hheld hhot))
    exact congrArg (resetPart 0x04) (if_neg (by simp [hrail]))
  case railSafe =>
    refine next_eq (Eq.trans ?_ (resetPart_running (s := { s with
      env.rails := false, nv.causes := s.nv.causes ++ [0x0304] }) hheld hhot))
    refine congrArg (resetPart 0x04) ((if_pos ?_).trans ?_)
    · rw [hcause]; rfl
    · simp
  case watchdog => exact next_eq (resetPart_running hheld hhot)
  case command => exact next_of_pos hdue (resetPart_running hheld hhot)
  case again => exact next_eq (resetPart_held (s := { s with env.resetN := false }) hheld)
  case hot => exact next_eq (resetPart_hot (s := { s with env.resetN := false }) hhot)
  case thermal =>
    have hphase : (noteShutdown s).sys.phase = .running := phase_of_up hup
    have hreset : resetPart 0x07 (noteShutdown s) = heldReset 0x07 (noteShutdown s) :=
      resetPart_running (ne_of_eq_of_ne hphase (by decide)) (ne_of_eq_of_ne hphase (by decide))
    have hexec : exec .dieThermalShutdown s =
        .next { resetPart 0x07 (noteShutdown s) with sys.phase := .heatHold } :=
      next_of_neg (by rw [hup, hshut]; decide) rfl
    rw [hexec, hreset]
    exact ⟨_, rfl, rfl, rfl, rfl, rfl, rfl, rfl, rfl, rfl, rfl, rfl, rfl⟩
  case transition =>
    subst ht
    have hkeep : ¬ (decide (lifecycle s = lcProvisioned) && decide (p.target = lcIntegration)) = true := by simpa using howner
    change execLifecycleTransition s = _
    simp only [execLifecycleTransition, hp, if_neg hkeep]

section
variable {s : State} {role node heldMs : Nat}

/-- The part at the boot origin, before the strap value is compared with the last (R80). -/
def atOrigin (role node heldMs : Nat) (s : State) : State := { s with
  sys.phase := .wipe, sys.roleStrap := role % 8, sys.nodeStrap := node % 8, sys.heldMs := min heldMs 4294967295
  sys.heldValid := s.env.vbat, env.heldMs := none, nv.powerCycles := (s.nv.powerCycles + 1) % 2 ^ 32
  nv.strapLast := some (role % 8 + 8 * (node % 8)) }

/-- The first boot of all records no change of the straps. -/
theorem bootOrigin_first (hfirst : s.nv.strapLast = none) : bootOrigin role node heldMs s = atOrigin role node heldMs s := by
  simp only [bootOrigin, hfirst, atOrigin]

/-- A boot with another strap value than the last records both (R11). -/
theorem bootOrigin_changed {old : Nat} (hlast : s.nv.strapLast = some old) (hchanged : old ≠ role % 8 + 8 * (node % 8)) :
    bootOrigin role node heldMs s =
      record 0x4102 srcBoot (u8 old ++ u8 (role % 8 + 8 * (node % 8))) (atOrigin role node heldMs s) := by
  simp only [bootOrigin, hlast]
  exact if_pos (bne_iff_ne.mpr hchanged)

/-- A first boot with the held time measured. -/
theorem bootHeld_measured {held : Nat} (hheld : s.env.heldMs = some held) (hfirst : s.nv.strapLast = none) :
    bootHeld role node s = atOrigin role node held s := by
  simp only [bootHeld, hheld, bootOrigin_first hfirst]

/-- A first boot whose held time no row gave. -/
theorem bootHeld_free (hheld : s.env.heldMs = none) (hfirst : s.nv.strapLast = none) :
    bootHeld role node s = drawn (atOrigin role node (Config.freshNat s.free 4294967296) s) := by
  simp only [bootHeld, hheld, bootOrigin_first hfirst]

end

/-- Settles O43: each step of a boot in the phase that it belongs to. -/
theorem bootRuns : Obligations.BootRuns := by
  intro s
  refine ⟨fun role node held hphase hlow hrails hfirst => ?release,
    fun role node held old hphase hlow hrails hlast hne => ?changed,
    fun role node held hphase hlow hrails => ?wait, fun role node mv hphase hhigh hheld hfirst => ?cold,
    fun role node mv held hphase hhigh hheld hfirst => ?warm, fun role node mv hphase hlow => ?low,
    fun role node hphase hcool hhigh hrails hheld hfirst => ?holdEnd, fun hphase => ?wiped, fun hphase => ?notWiped,
    fun t x hphase hsel => ?selected, fun t hphase hsel => ?unselected, fun result t hphase ht => ?live⟩
  case release =>
    refine next_of_neg_pos (fails_of_false hlow) (and_holds (decide_eq_true hphase) hrails) ?_
    exact bootOrigin_first (s := { s with env.resetN := true }) hfirst
  case changed =>
    refine next_of_neg_pos (fails_of_false hlow) (and_holds (decide_eq_true hphase) hrails) ?_
    exact bootOrigin_changed (s := { s with env.resetN := true }) hlast hne
  case wait => exact next_of_neg (fails_of_false hlow) (if_neg (by simp [hrails]))
  case cold =>
    refine next_of_pos hphase ((if_pos hhigh).trans ?_)
    exact bootHeld_free (s := { s with
      env.rails := true, env.vddio := true, sys.io33 := decide (2500 ≤ mv), sys.resetCause := 1 }) hheld hfirst
  case warm =>
    refine next_of_pos hphase ((if_pos hhigh).trans ?_)
    exact bootHeld_measured (s := { s with
      env.rails := true, env.vddio := true, sys.io33 := decide (2500 ≤ mv) }) hheld hfirst
  case low => exact next_of_pos hphase (if_neg (fails_of_false hlow))
  case holdEnd =>
    refine next_of_pos (and_holds (decide_eq_true hphase) (decide_eq_true hcool)) ((if_pos (and_holds hhigh hrails)).trans ?_)
    exact bootHeld_free hheld hfirst
  case wiped => exact next_of_neg_pos (by rw [hphase]; decide) rfl rfl
  case notWiped => exact next_of_neg (by rw [hphase]; decide) (if_neg (by decide))
  case selected =>
    refine next_of_neg (by rw [hphase]; decide) ?_
    simp only [hsel]
  case unselected =>
    refine next_of_neg (by rw [hphase]; decide) ?_
    simp only [hsel]
    rfl
  case live =>
    subst ht
    exact next_of_neg (by rw [hphase]; decide) rfl

end Sys2Proof.Machine

/-! ### Supply, clock, firewall and memory steps -/

namespace Sys2Proof.Machine

/-- The supply is noted as it is already: nothing changes. -/
theorem belowSupply_same {s : State} {b : Bool} (h : s.sys.belowSupply = b) : { s with sys.belowSupply := b } = s := by
  subst h
  rfl

/-- The engines that take the part into Kickstand: the safety cores and the metrology core (R39). -/
theorem kickEngine {engine : Nat} (hlow : 4 ≤ engine) (hhigh : engine ≤ 6) :
    (decide (4 ≤ engine) && decide (engine ≤ 6)) = true := and_holds (decide_eq_true hlow) (decide_eq_true hhigh)

/-- A sector outside the recorder area that fails in both copies is recorded and not replaced (R41). -/
theorem sectorBad_plain {s : State} {sector : Nat} (h : recorderSector sector = false) :
    sectorBad sector s = record 0x4107 srcHousekeeping (u8 1 ++ u32 sector)
      (raise evSysMemory { s with nv.badSectors := s.nv.badSectors ++ [sector] }) :=
  if_neg (by simp [h])

/-- Settles O44: each step under the condition that its row names. -/
theorem supplyAndFaultStepsRun : Obligations.SupplyAndFaultStepsRun := by
  intro s
  refine ⟨fun hup => next_of_pos hup rfl, fun hdown hout => ?pfwBoot, rfl, fun cause hkick hclear hne => ?gone,
    fun hkick hok => ?compareGone, fun hout hsup => ?dip, fun hout hsup => ?stillLow, fun hout => ?high,
    fun hout => next_of_pos hout rfl, fun hlost hout => ?crystal, fun hlost hreset => ?crystalInReset,
    fun hout => next_of_pos hout rfl, fun engine a w hout hrefuses hengine => ?firewall,
    fun engine a w hout hrefuses hlow hhigh => ?firewallKick, fun engine hout hengine => ?sram,
    fun engine hout hlow hhigh => ?sramKick, fun sector hout => ?norRewrite, fun sector hout hnew hplain => ?norBad,
    fun corrected hout => next_of_neg (not_fails hout) rfl⟩
  case pfwBoot =>
    refine next_of_neg (fails_of_false hdown) ?_
    rw [hout, Bool.or_true]
  case gone => exact next_of_pos (and_holds hkick hclear) (if_neg hne)
  case compareGone => exact next_of_pos (and_holds hkick (decide_eq_true hok)) (if_pos rfl)
  case dip => exact next_of_neg_pos (not_fails hout) (by rw [hsup]; rfl) rfl
  case stillLow =>
    exact next_of_neg (not_fails hout) ((if_neg (by rw [hsup]; decide)).trans (belowSupply_same hsup))
  case high => exact next_of_neg (not_fails hout) (if_neg (by simp))
  case crystal => exact next_of_neg (fails_of_false hlost) (if_pos hout)
  case crystalInReset => exact next_of_neg (fails_of_false hlost) (if_neg (fails_of_false hreset))
  case firewall => exact next_of_neg (by simp [hout, hrefuses]) (if_neg (fails_of_false hengine))
  case firewallKick => exact next_of_neg (by simp [hout, hrefuses]) (if_pos (kickEngine hlow hhigh))
  case sram => exact next_of_neg (not_fails hout) (if_neg (fails_of_false hengine))
  case sramKick => exact next_of_neg (not_fails hout) (if_pos (kickEngine hlow hhigh))
  case norRewrite => exact next_of_neg_pos (not_fails hout) rfl rfl
  case norBad =>
    exact next_of_neg (not_fails hout) <| (if_neg (by decide)).trans <|
      (if_neg (fails_of_false hnew)).trans (sectorBad_plain hplain)

/-! ### The Derailleur's own steps -/

/-- A site limit of the host is dropped where its epoch has come. -/
theorem expireHost_due {s : State} {h : Int × Int × Nat} (hhost : s.alc.host = some h) (hdue : h.2.2 ≤ s.alc.epoch) :
    expireHost s = raise evAlcSiteLimit { s with alc.host := none } := by
  simp only [expireHost, hhost, if_pos hdue]

/-- A site limit of the host stands until its epoch. -/
theorem expireHost_standing {s : State} {h : Int × Int × Nat} (hhost : s.alc.host = some h) (hdue : s.alc.epoch < h.2.2) :
    expireHost s = s := by
  simp only [expireHost, hhost, if_neg (Nat.not_le.mpr hdue)]

/-- Settles O45: the boundary in its order, and each step under the condition that its row names. -/
theorem derailleurStepsRun : Obligations.DerailleurStepsRun := by
  intro s
  refine ⟨fun _ hup => next_of_pos hup rfl, fun hlate => next_of_pos hlate rfl, fun _ _ => rfl,
    fun h hhost hdue => next_eq (expireHost_due hhost hdue), fun h hhost hdue => next_eq (expireHost_standing hhost hdue),
    fun outlet hdue hfree => ?release, fun outlet hdue hkick => ?noRelease, fun position hphase => ?opening,
    fun position hphase => ?closing⟩
  case release => exact next_of_pos (by rw [hdue, hfree]; rfl) rfl
  case noRelease => exact next_of_neg (by rw [hkick, hdue]; decide) rfl
  case opening =>
    change execMatrixConfirmTimeout position s = _
    simp only [execMatrixConfirmTimeout, hphase]
  case closing =>
    change execMatrixConfirmTimeout position s = _
    simp only [execMatrixConfirmTimeout, hphase]

end Sys2Proof.Machine

/-! ### The steps of the Cadence engine and the Chainring -/

namespace Sys2Proof.Machine

section
variable {s : State} {r : Nat} {line : List RingSymbol} {head : Bytes}

/-- The first frame of a master is launched with nothing to judge. -/
theorem masterTick_first (hframe : (Machine.ring s r).frame = []) : masterTick r line s = launch r s := by
  simp only [masterTick, hframe, beq_self_eq_true, ↓reduceIte]

/-- The own frame returns intact. -/
theorem masterTick_own (hframe : (Machine.ring s r).frame ≠ []) (hhead : ringHead (ringSlots s r) line = some head)
    (hown : ownHead s r head = true) :
    masterTick r line s =
      judgeSlots (ringSlots s r) (Machine.ring s r).tickSeq line (ringPositions s r) none
        (launch r (ringReturn r true s)) := by
  simp only [masterTick, beq_false_of_ne hframe, hhead, hown, Bool.false_eq_true, ↓reduceIte]

/-- No frame returns that can be read. -/
theorem masterTick_failed (hframe : (Machine.ring s r).frame ≠ []) (hhead : ringHead (ringSlots s r) line = none) :
    masterTick r line s =
      judgeSlots (ringSlots s r) (Machine.ring s r).tickSeq line (ringPositions s r) none
        (launch r (ringReturn r false s)) := by
  simp only [masterTick, beq_false_of_ne hframe, hhead, Bool.false_eq_true, ↓reduceIte]

/-- The frame of another master returns. -/
theorem masterTick_foreign (hframe : (Machine.ring s r).frame ≠ []) (hhead : ringHead (ringSlots s r) line = some head)
    (hown : ownHead s r head = false) : masterTick r line s = foreignMaster r head s := by
  simp only [masterTick, beq_false_of_ne hframe, hhead, hown, Bool.false_eq_true, ↓reduceIte]

/-- A frame that a standby hears whole. -/
theorem listenTick_heard (hhead : ringHead (ringSlots s r) line = some head) :
    listenTick r line s =
      listenSlots (ringSlots s r) (hdSeq head) line (ringPositions s r) (listenHead r head s) := by
  simp only [listenTick, hhead]

/-- The return of a frame at a master whose ring runs. -/
theorem frameReturn_master {t : State} (hup : up s = true) (hr : r < 2) (hring : ringEnabled s r = true)
    (hmaster : masters s = true) (hruns : (Machine.ring s r).running = true) (hon : (Machine.ring s r).off = false)
    (htick : masterTick r line s = t) : exec (.chainringFrameReturn r line) s = .next (settleTimer t) :=
  next_of_neg (by simp [hup, hr, hring]) <| (if_neg (by simp [hmaster])).trans <|
    (if_neg (by simp [hruns, hon])).trans (congrArg settleTimer htick)

/-- The return of a frame at a standby. -/
theorem frameReturn_listener {t : State} (hup : up s = true) (hr : r < 2) (hring : ringEnabled s r = true)
    (hlistens : masters s = false) (htick : listenTick r line s = t) :
    exec (.chainringFrameReturn r line) s = .next t :=
  next_of_neg_pos (by simp [hup, hr, hring]) (by simp [hlistens]) htick

end

/-- Settles O46: the tick, the overrun and the hold of a group in use, and the return of a frame by who sent it. -/
theorem controlStepsRun : Obligations.ControlStepsRun := by
  intro s
  refine ⟨fun gi x hup hworks hgi hused hx hkick => ?tickKicked,
    fun gi x y hup hworks hgi hused hx hkick hy hsink => ?tickSelect,
    fun gi x y hup hworks hgi hused hx hkick hy hsink => ?tickObserver,
    fun gi completed x y hup hworks hgi hused hkick hx hy => ?overrun, fun gi hgi hdue => ?hold,
    fun r line hup hr hring hmaster hruns hon hframe =>
      frameReturn_master hup hr hring hmaster hruns hon (masterTick_first hframe),
    fun r line head hup hr hring hmaster hruns hon hframe hhead hown =>
      frameReturn_master hup hr hring hmaster hruns hon (masterTick_own hframe hhead hown),
    fun r line hup hr hring hmaster hruns hon hframe hhead =>
      frameReturn_master hup hr hring hmaster hruns hon (masterTick_failed hframe hhead),
    fun r line head hup hr hring hmaster hruns hon hframe hhead hown =>
      frameReturn_master hup hr hring hmaster hruns hon (masterTick_foreign hframe hhead hown),
    fun r line head hup hr hring hlistens hhead => frameReturn_listener hup hr hring hlistens (listenTick_heard hhead),
    fun position hdue => next_of_pos hdue rfl, fun position hdue => next_of_pos hdue rfl, fun _ => rfl⟩
  case tickKicked =>
    subst hx
    exact next_of_neg (by simp [hup, hworks, hgi, hused]) (if_pos hkick)
  case tickSelect =>
    subst hy hx
    exact next_of_neg (by simp [hup, hworks, hgi, hused]) ((if_neg (fails_of_false hkick)).trans (if_neg hsink))
  case tickObserver =>
    subst hy hx
    exact next_of_neg (by simp [hup, hworks, hgi, hused]) ((if_neg (fails_of_false hkick)).trans (if_pos hsink))
  case overrun =>
    subst hy hx
    exact next_of_neg (by simp [hup, hworks, hgi, hused, hkick]) rfl
  case hold => exact next_of_pos (and_holds (decide_eq_true hgi) hdue) rfl

end Sys2Proof.Machine

/-! ### The steps of the vehicle links -/

namespace Sys2Proof.Machine

section
variable {s : State} {slot : Nat}

/-- A period of an outlet whose pilot is driven, not of MCS: the raw state is counted, a diode fault or an invalid one too
(R198, R199). -/
theorem samplePilot_driven {vPlus vMinus : Int} {raw : Nat} {y : State} (htype : linkType s slot ≠ lkMcs)
    (hF : (link s slot).drive ≠ driveF) (hoff : (link s slot).drive ≠ driveOff)
    (hraw : raw = pilotRaw (link s slot).drive vPlus vMinus)
    (hy : y = onLink slot (fun l => { l with
      vPlus := vPlus, vMinus := if (link s slot).drive = driveX2 then vMinus else 0 }) s) :
    samplePilot slot vPlus vMinus s = takeRaw slot raw
      (if raw = 9 then linkCount slot lsDiode y else if raw = 6 ∨ raw = 8 then linkCount slot lsInvalid y else y) := by
  subst hy hraw
  have hmcs : (linkType s slot == lkMcs) = false := beq_false_of_ne htype
  simp only [samplePilot, hmcs, hF, hoff, decide_false, Bool.or_self, Bool.not_false, Bool.and_true, Bool.true_and,
    Bool.false_eq_true, ↓reduceIte, decide_eq_true_eq, Bool.or_eq_true, beq_iff_eq]

/-- In F and OFF the pilot has no raw state. -/
theorem samplePilot_undriven {vPlus vMinus : Int} (hdrive : (link s slot).drive = driveF ∨ (link s slot).drive = driveOff) :
    samplePilot slot vPlus vMinus s =
      settleMatch slot (onLink slot (fun l => { l with pilot := { raw := 7, run := 0, value := 7 } })
        (onLink slot (fun l => { l with
          vPlus := vPlus
          vMinus := if (link s slot).drive = driveX2 && !(linkType s slot == lkMcs) then vMinus else 0 }) s)) :=
  if_pos (by simpa using hdrive)

/-- A raw value that has held for the filter and differs is due. -/
theorem filterDue_of {f : Filter} (hrun : linkFilter s slot ≤ f.run) (hnew : f.value ≠ f.raw) : filterDue s slot f = true := by
  simp [filterDue, hrun, hnew]

/-- A proximity class that is the confirmed one changes nothing. -/
theorem settleProx_same (hsame : (link s slot).prox.value = (link s slot).prox.raw) : settleProx slot s = s :=
  if_neg (by simp [filterDue, hsame])

end

/-- Settles O47: the period by its drive, the matching messages, the frames of the data link and the bridged lines. -/
theorem vehicleLinkStepsRun : Obligations.VehicleLinkStepsRun := by
  intro s
  refine ⟨fun slot vPlus vMinus pps raw x y hup hslot hne htype hx hkeep hF hoff hraw hy => ?driven,
    fun slot vPlus vMinus pps x hup hslot hne hx hdrive => ?undriven, fun vPlus vMinus pps hup hslot => ?outletC,
    fun slot hup hslot => next_of_pos (and_holds hup hslot) rfl, fun slot hup hslot hrun hnew => ?prox,
    fun slot hup hslot hsame => ?proxSame, fun hup hrole hslot hrun hnew => ?codeC,
    fun slot mac runId hup hmatch hnew hfew => ?param, fun slot runId sounds hup hmatch hsounds hknown => ?sounds,
    fun slot hup hmatch => next_of_pos (and_holds hup hmatch) rfl, fun slot mac runId a hup htype hatten => ?matched,
    fun slot mac runId hup htype hatten => ?unmatched, fun slot hup htype hclass => ?valid,
    fun slot hup htype => ⟨?errors, ?collisions, ?jabber, ?selfCheck⟩, fun slot hup htype => ?timeout,
    fun gpio level x y hup hgpio hx hy => ?bridge, fun slot hup htype => ?slacTimer⟩
  case driven =>
    subst hx
    refine next_of_neg (by simp [hup, hslot]) ((if_neg hne).trans ?_)
    rw [samplePilot_driven (hkeep.trans_ne htype) hF hoff hraw hy]
    rfl
  case undriven =>
    subst hx
    refine next_of_neg (by simp [hup, hslot]) ((if_neg hne).trans ?_)
    rw [samplePilot_undriven hdrive]
  case outletC => exact next_of_neg_pos (by simp [hup, hslot]) rfl rfl
  case prox => exact next_of_pos (and_holds hup hslot) (if_pos (filterDue_of hrun hnew))
  case proxSame => exact next_of_pos (and_holds hup hslot) (settleProx_same hsame)
  case codeC => exact next_of_pos (by simp [hup, hrole, hslot]) (if_pos (filterDue_of hrun hnew))
  case param =>
    exact next_of_neg (by simp [hup, hmatch]) ((if_neg (by simp [hnew])).trans (if_neg (Nat.not_le.mpr hfew)))
  case sounds => exact next_of_pos (by simp [hup, hmatch, hsounds, hknown]) rfl
  case matched =>
    refine next_of_neg (by simp [hup, htype]) ?_
    simp only [hatten]
  case unmatched =>
    refine next_of_neg (by simp [hup, htype]) ?_
    simp only [hatten]
  case valid => exact next_of_neg (by simp [hup, htype]) (if_pos hclass)
  case errors => exact next_of_neg (by simp [hup, htype]) rfl
  case collisions => exact next_of_neg (by simp [hup, htype]) rfl
  case jabber => exact next_of_neg (by simp [hup, htype]) rfl
  case selfCheck => exact next_of_neg (by simp [hup, htype]) rfl
  case timeout => exact next_of_pos (by simp [hup, htype]) rfl
  case bridge =>
    subst hy hx
    exact next_of_neg (by simp [hup, hgpio]) rfl
  case slacTimer => exact next_of_pos (by simp [hup, htype]) rfl

end Sys2Proof.Machine

/-! ### The steps of the vehicle protocol and of authorisation -/

namespace Sys2Proof.Machine

section
variable {s : State} {slot : Nat}

/-- A session that has no SDP port draws one (R214). -/
theorem drawPort_new (hport : (link s slot).port = 0) :
    drawPort slot s = onLink slot (fun l => { l with port := 49152 + Config.freshNat s.free 16384 % 16384 }) (drawn s) :=
  if_neg (by simp [hport])

/-- A session keeps its SDP port. -/
theorem drawPort_kept (hport : (link s slot).port ≠ 0) : drawPort slot s = s := if_pos (by simp [hport])

end

/-- Settles O48: each message of the vehicle in the session states that its row names. -/
theorem sessionProtocolStepsRun : Obligations.SessionProtocolStepsRun := by
  intro s
  refine ⟨fun slot e x y z hup hslot hx hy hz => ?sequencer,
    fun slot vid x hup hslot hlow hhigh hlink htraffic hport hx => ?sdpNew,
    fun slot vid hup hslot hlow hhigh hlink htraffic hport => ?sdpKept,
    fun slot offers p hup hslot hstate hlink hoffer => ?protocol, fun slot offers hup hslot hstate hlink hoffer => ?noProtocol,
    fun slot keySlot hello hup hslot hstate hlink hkey hmay => ?tls,
    fun slot method ident chain hup hslot hproto hstate => ?ongoing,
    fun slot method ident chain hup hslot hstate hproto hallowed hpre => ?ask,
    fun slot method ident chain p hup hslot hstate hproto hallowed hpre => ?decided,
    fun slot method ident chain hup hslot hstate hproto hdenied => ?denied,
    fun slot hup hslot hstate => next_of_pos (by simp [hup, hslot, hstate]) rfl,
    fun slot hup hslot hpre => next_of_pos (by simp [hup, hslot, hpre]) rfl,
    fun slot v hup hslot hstate => ?cableCheck, fun slot v hup hslot hstate => ?cableCheckAgain,
    fun slot target hup hslot hstate => ?precharge, fun slot discharge hup hslot hstate hmay => ?start,
    fun slot hup hslot hstate hmay => ?startRefused, fun slot hup hslot => next_of_pos (and_holds hup hslot) rfl,
    fun slot exporting x hup hslot hmay hmode hstate hx => ?turn,
    fun slot exporting x hup hslot hmay hmode hstate hx => ?turnAgain,
    fun slot exporting hup hslot hmay hmode hstate => ?turnRefused,
    fun slot hup hslot hlink => next_of_pos (by simp [hup, hslot, hlink]) rfl,
    fun slot schedule hup hslot hlow hhigh => next_of_pos (by simp [hup, hslot, hlow, hhigh]) rfl,
    fun grant hup => next_of_pos hup rfl, fun slot request hup hslot hstate => ?loop,
    fun slot service dynamic limits schedule hup hslot hstate hoffered => ?negotiate,
    fun slot service dynamic limits schedule hup hslot hstate hoffered => ?notOffered⟩
  case sequencer =>
    change execSessionSequencerStep slot e s = _
    simp only [execSessionSequencerStep, hup, hslot, ← hx, ← hy, ← hz]
    rfl
  case sdpNew =>
    subst hx
    refine next_of_neg (by simp [hup, hslot, hlow, hhigh, hlink, htraffic]) ?_
    rw [drawPort_new hport]
  case sdpKept =>
    refine next_of_neg (by simp [hup, hslot, hlow, hhigh, hlink, htraffic]) ?_
    rw [drawPort_kept hport]
  case protocol =>
    refine next_of_neg (by simp [hup, hslot, hstate, hlink]) ?_
    simp only [hoffer]
  case noProtocol =>
    refine next_of_neg (by simp [hup, hslot, hstate, hlink]) ?_
    simp only [hoffer]
  case tls => exact next_of_pos (by simp [hup, hslot, hstate, hlink, hkey, hmay]) rfl
  case ongoing => exact next_of_neg_pos (by simp [hup, hslot, hproto]) (by simp [hstate]) rfl
  case ask =>
    refine next_of_neg (by simp [hup, hslot, hproto]) <| (if_neg (by simp [hstate])).trans <|
      (if_neg (by simp [hstate])).trans <| (if_neg (not_fails hallowed)).trans ?_
    simp only [hpre]
  case decided =>
    refine next_of_neg (by simp [hup, hslot, hproto]) <| (if_neg (by simp [hstate])).trans <|
      (if_neg (by simp [hstate])).trans <| (if_neg (not_fails hallowed)).trans ?_
    simp only [hpre]
  case denied =>
    exact next_of_neg (by simp [hup, hslot, hproto]) <| (if_neg (by simp [hstate])).trans <|
      (if_neg (by simp [hstate])).trans (if_pos (by simp [hdenied]))
  case cableCheck => exact next_of_neg_pos (by simp [hup, hslot]) hstate rfl
  case cableCheckAgain =>
    exact next_of_neg (by simp [hup, hslot]) ((if_neg (by omega)).trans (if_pos (by simpa using hstate)))
  case precharge => exact next_of_pos (by simpa [hup, hslot] using hstate) rfl
  case start =>
    refine next_of_neg (by simp [hup, hslot, hstate]) (if_neg ?_)
    simpa using hmay
  case startRefused => exact next_of_neg_pos (by simp [hup, hslot, hstate]) (by simp [hmay]) rfl
  case turn =>
    subst hx
    exact next_of_neg (by simp [hup, hslot, hstate, hmode]) ((if_neg (not_fails hmay)).trans (by rw [if_pos hstate]))
  case turnAgain =>
    subst hx
    exact next_of_neg (by simp [hup, hslot, hstate, hmode])
      ((if_neg (not_fails hmay)).trans (by rw [if_neg (by rw [hstate]; decide)]))
  case turnRefused =>
    refine next_of_neg_pos ?_ (by simp [hmay]) rfl
    obtain hstate | hstate := hstate <;> simp [hup, hslot, hmode, hstate]
  case loop => exact next_of_pos (by simpa [hup, hslot] using hstate) rfl
  case negotiate => exact next_of_neg_pos (by simp [hup, hslot, hstate]) hoffered rfl
  case notOffered => exact next_of_neg (by simp [hup, hslot, hstate]) (if_neg (fails_of_false hoffered))

end Sys2Proof.Machine

/-! ### The steps of contactors, checks, stops and time-outs of a session -/

namespace Sys2Proof.Machine

/-- The wait for the isolation monitor is over. -/
theorem imdDue_of {s : State} {slot kohm : Nat} (hstate : (ses s slot).state = 6) (hopen : (ses s slot).isoDone = false)
    (hlow : (ses s slot).imdLow = some kohm) (hwait : seImdSettle (sesCfg s slot) ≤ (ses s slot).imdMs) :
    imdDue s slot = true := by
  simp [imdDue, hstate, hopen, hlow, hwait]

section
variable {s : State} {slot kohm : Nat}

/-- The isolation check is judged on the lowest reading (R233). -/
theorem settleImd_judged {outcome : Nat} (hdue : imdDue s slot = true) (hlow : (ses s slot).imdLow = some kohm)
    (houtcome : checkOutcome (ses s slot).vcc kohm = outcome) :
    settleImd slot s =
      if outcome = 0 then onSes slot (fun x => { x with iso := kohm, isoDone := outcome != 2, isoOutcome := outcome }) s
      else if outcome = 1 then
        raise evSesCableCheck (record (unstatedCode 5 2) srcPilot (u8 slot ++ u16 (ses s slot).vcc ++ u32 kohm)
          (onSes slot (fun x => { x with iso := kohm, isoDone := outcome != 2, isoOutcome := outcome }) s))
      else endCause slot 0x07 (raise evSesCableCheck
        (onSes slot (fun x => { x with iso := kohm, isoDone := outcome != 2, isoOutcome := outcome }) s)) := by
  subst houtcome
  rw [settleImd, if_pos hdue]
  simp only [judgeImd, hlow, Option.getD_some]

end

/-- Settles O49: each step in the session states that its row names, the isolation by its two bounds. -/
theorem sessionPowerPathStepsRun : Obligations.SessionPowerPathStepsRun := by
  intro s
  refine ⟨fun slot hup hslot hmirror => next_of_pos (by simp [hup, hslot, hmirror]) rfl,
    fun slot hup hslot hconf hold hnone => ?noMirror, fun slot hup hslot hconf hold hsome hstate => ?lateAtEnd,
    fun slot hup hslot hconf hold hsome hstate => ?late, fun slot hup hslot hstate => ?weld,
    fun slot hup hslot hstate hgrant => next_of_pos (by simp [hup, hslot, hstate, hgrant]) rfl,
    fun slot kohm hup hslot hstate hopen hlow hwait hgood => ?isoGood,
    fun slot kohm hup hslot hstate hopen hlow hwait hbelow hwarn => ?isoWarns,
    fun slot kohm hup hslot hstate hopen hlow hwait hbad => ?isoBad, fun slot hup hslot hstate => ?checkExpiry,
    fun slot hup hslot hstate hnear => next_of_pos (by simp [hup, hslot, hstate, hnear]) rfl,
    fun slot hup hslot hren hoff hfree hstate => ?renegotiate, fun slot hup hslot hren hoff hfree hstate => ?renegotiateLater,
    fun slot hup hslot => next_of_pos (and_holds hup hslot) rfl,
    fun slot hup hslot hstop => next_of_pos (by simp [hup, hslot, hstop]) rfl,
    fun slot hup hslot hstop => next_of_pos (by simp [hup, hslot, hstop]) rfl, fun hup => next_of_pos hup rfl⟩
  case noMirror => exact next_of_pos (by simp [hup, hslot, hconf, hold]) (if_pos hnone)
  case lateAtEnd => exact next_of_pos (by simp [hup, hslot, hconf, hold]) ((if_neg hsome).trans (if_pos hstate))
  case late => exact next_of_pos (by simp [hup, hslot, hconf, hold]) ((if_neg hsome).trans (if_neg hstate))
  case weld => exact next_of_pos (by simpa [hup, hslot] using hstate) rfl
  case isoGood =>
    have houtcome : checkOutcome (ses s slot).vcc kohm = 0 := if_pos hgood
    exact next_of_pos (and_holds hup hslot) (settleImd_judged (imdDue_of hstate hopen hlow hwait) hlow houtcome)
  case isoWarns =>
    have houtcome : checkOutcome (ses s slot).vcc kohm = 1 := (if_neg (Nat.not_le.mpr hbelow)).trans (if_pos hwarn)
    exact next_of_pos (and_holds hup hslot) (settleImd_judged (imdDue_of hstate hopen hlow hwait) hlow houtcome)
  case isoBad =>
    have houtcome : checkOutcome (ses s slot).vcc kohm = 2 := (if_neg (by omega)).trans (if_neg (by omega))
    exact next_of_pos (and_holds hup hslot) (settleImd_judged (imdDue_of hstate hopen hlow hwait) hlow houtcome)
  case checkExpiry => exact next_of_pos (by simpa [hup, hslot] using hstate) rfl
  case renegotiate => exact next_of_neg_pos (by simp [hup, hslot, hren, hoff, hfree]) hstate rfl
  case renegotiateLater =>
    exact next_of_neg (by simp [hup, hslot, hren, hoff, hfree]) ((if_neg (by omega)).trans (if_pos hstate))

end Sys2Proof.Machine

/-! ### The heat steps -/

namespace Sys2Proof.Machine

/-- The readings of the die sensors that the supervisor of the thermal shutdown accepts, ten seconds after the last (R271). -/
def supervisorGood (s : State) (readings : List (Option Int)) : List (Option Int) :=
  (List.range 8).map fun i => dieReading (nth s.nvHeat.prev i) 10 (nth readings i)

/-- The value by which the supervisor judges a sensor, with what it holds for a missing one. -/
def supervisorValue (s : State) (readings hold : List (Option Int)) (i : Nat) : Option Int :=
  if dieFailed s i then nth hold i else match nth (supervisorGood s readings) i with
    | some v => some v
    | none => nth hold i

/-- A sensor below 100 degC. -/
def supervisorCool (s : State) (readings hold : List (Option Int)) (i : Nat) : Bool :=
  match supervisorValue s readings hold i with
  | some v => v < 10000
  | none => false

/-- What each sensor has read last. -/
def supervisorPrev (s : State) (readings : List (Option Int)) : List (Option Int) :=
  (List.range 8).map fun i => match nth readings i with | some r => some r | none => nth s.nvHeat.prev i

section
variable {s : State} {readings : List (Option Int)}

/-- The supervisor keeps what it read, and counts the readings in a row with every sensor cool. -/
theorem supervisor_reads (hhold : s.sys.phase = .heatHold) (readings : List (Option Int)) : ∃ hold run,
    exec (.shutdownSupervisorReading readings) s = .next { s with
      nvHeat.hold := hold, nvHeat.holdRun := run, nvHeat.prev := supervisorPrev s readings
      nvHeat.coolRun := if (List.range 8).all (supervisorCool s readings hold) then s.nvHeat.coolRun + 1 else 0 } :=
  ⟨_, _, next_of_neg (by rw [hhold]; decide) rfl⟩

/-- A sensor that has not failed and reads is judged by its reading. -/
theorem supervisorCool_reading {i : Nat} {v : Int} (hold : List (Option Int)) (hi : i < 8) (hgood : dieFailed s i = false)
    (hread : dieReading (nth s.nvHeat.prev i) 10 (nth readings i) = some v) :
    supervisorCool s readings hold i = decide (v < 10000) := by
  have hnth : nth (supervisorGood s readings) i = some v := by
    simp [nth, supervisorGood, hi] at hread ⊢
    exact hread
  simp [supervisorCool, supervisorValue, hgood, hnth]

end

/-- Settles O50: the sample point and the die sample in their order, the thresholds, and what the supervisor counts. -/
theorem heatStepsRun : Obligations.HeatStepsRun := by
  intro s
  refine ⟨fun temps freqs due x y hup hdue hx hy => ?sample, fun _ => rfl, fun _ => rfl, fun _ _ => rfl,
    fun readings x thr level hot hup hx hthr hlevel hhot => ?die, fun readings value hhold hgood hread hcool => ?cool,
    fun readings value i hhold hi hgood hread hwarm => ?warm⟩
  case sample =>
    subst hy hx hdue
    exact next_of_neg (not_fails hup) rfl
  case die =>
    subst hhot hlevel hthr hx
    exact next_of_neg (not_fails hup) rfl
  case cool =>
    obtain ⟨hold, run, hexec⟩ := supervisor_reads hhold readings
    have hall : (List.range 8).all (supervisorCool s readings hold) = true := by
      refine List.all_eq_true.mpr fun i hi => ?_
      have hlt := List.mem_range.mp hi
      rw [supervisorCool_reading hold hlt (hgood i hlt) (hread i hlt)]
      exact decide_eq_true (hcool i hlt)
    exact ⟨_, hexec, if_pos hall, rfl⟩
  case warm =>
    obtain ⟨hold, run, hexec⟩ := supervisor_reads hhold readings
    have hnot : ¬ (List.range 8).all (supervisorCool s readings hold) = true := by
      intro hall
      have hcool := List.all_eq_true.mp hall i (List.mem_range.mpr hi)
      rw [supervisorCool_reading hold hi hgood hread, decide_eq_true_eq] at hcool
      omega
    exact ⟨_, hexec, if_neg hnot, rfl⟩

end Sys2Proof.Machine

/-! ### The metering steps -/

namespace Sys2Proof.Machine

/-- Settles O51: each step under the condition that its row names. -/
theorem meteringStepsRun : Obligations.MeteringStepsRun := by
  intro s
  exact ⟨fun bits hruns => next_of_pos hruns rfl,
    fun channel hup howned hvalid => next_of_pos (by simp [hup, howned, hvalid]) rfl,
    fun channel hup howned hfaulted => next_of_pos (by simp [hup, howned, hfaulted]) rfl,
    fun point hup hon => next_of_pos (and_holds hup hon) rfl, fun corrected hout => next_of_pos hout rfl,
    fun point hup hdue => next_of_pos (and_holds hup hdue) rfl, fun hup => next_of_pos hup rfl,
    fun output hup howns hlt hlow hwaits => next_of_pos (by simp [hup, howns, hlt, hlow, hwaits]) rfl,
    fun output hup => next_of_pos hup rfl⟩

/-! ### Spoke-line steps of zero crossings, beacons and slots -/

section
variable {s : State}

/-- The level of the line is noted as it is already: nothing changes. -/
theorem vline_same {b : Bool} (h : b = s.env.vline) : { s with env.vline := b } = s := by
  subst h
  rfl

/-- The text of a hub's slot. -/
theorem slotText_hub (hhub : isHub s = true) : slotText s = grantBlock s ++ safeBlock s 151 := if_pos hhub

/-- The text of a post's slot. -/
theorem slotText_post (hpost : isHub s = false) : slotText s = requestBlock s ++ safeBlock s 39 := if_neg (fails_of_false hpost)

/-- A slot goes out, and with it the safety frame that was due. -/
theorem slotTransmit_sent {x : State} (hup : up s = true) (hspoke : onSpoke s = true) (hjoined : isJoined s = true)
    (hsent : (if isHub s then sendSlot 2 255 3 (slotText s) s else sendSlot 3 255 1 (slotText s) s) = x) :
    exec .slotTransmit s = .next (if safeDue s = [] then x else { x with saf.frame := [] }) := by
  subst hsent
  refine next_of_neg (by simp [hup, hspoke, hjoined]) ?_
  simp only [List.isEmpty_iff]

/-- A slot whose word is fresh is taken, its text from the block of the sender on. -/
theorem slotReceived_taken {m : SlotMsg} {hub : Bool} {text : Bytes} (hup : up s = true) (hspoke : onSpoke s = true)
    (hline : s.env.vline = true) (hsealed : slotSealed s m = true) (hnet : hdNet m.head = s.cfg.spoke.network)
    (hfresh : wordFresh (spkLink s (hdSrc m.head)) (m.period, hdIdx m.head) 0 = true)
    (hhub : (hdKind m.head == 2) = hub) (htext : text = crypt s m.period 0 m.head m.text) :
    exec (.slotReceived m) s = .next
      ((safeFrames (text.drop (if hub then 192 else 64))).foldl (fun s f => receiveCopy 0 f true s)
        (takeRecords (hdSrc m.head) hub text
          (heardNode (hdSrc m.head) true (onSpkLink (hdSrc m.head) (keepWord (m.period, hdIdx m.head) 0) s)))) := by
  subst htext hhub
  exact next_of_neg (by simp [hup, hspoke, hline, hsealed, hnet]) (if_neg (not_fails hfresh))

end

/-- Settles O52: each step by the part's place on the line. -/
theorem spokeTimingStepsRun : Obligations.SpokeTimingStepsRun := by
  intro s
  refine ⟨fun time width hup hspoke hwide hmaster => ?edgeMaster, fun time width hup hspoke hwide hslave hcurrent => ?edgeNode,
    fun time width hnarrow => ?glitch, fun hup hmaster => next_of_pos (and_holds hup hmaster) rfl,
    fun hup hmaster hfree hgood hfar => ?resyncFar, fun x hup hmaster hfree hgood hnear hx => ?resyncNear,
    fun x y hup hmaster hline hx hy => ?beacon, fun time bytes b hup hspoke hline hsealed hb hmaster hnet hnewer => ?silenced,
    fun time bytes b hup hspoke hline hsealed hb hmaster hnet => ?foreignNet,
    fun time bytes b hup hspoke hline hsealed hb hslave hnone hnewer => ?firstBeacon,
    fun time bytes b m hup hspoke hline hsealed hb hslave hsome hsame hnewer => ?nextBeacon,
    fun time bytes b m hup hspoke hline hsealed hb hslave hsome hother => ?foreignHub,
    fun m hup hspoke hslave hcurrent hsome => ?lost, fun x hup hspoke hjoined hhub hx => ?slotHub,
    fun x hup hspoke hjoined hpost hx => ?slotPost,
    fun m text hup hspoke hline hsealed hnet hkind htext hfresh => ?takenHub,
    fun m text hup hspoke hline hsealed hnet hkind htext hfresh => ?takenPost,
    fun m hup hspoke hline hsealed hnet hstale => ?staleSlot, fun node hup hhub => next_of_pos (and_holds hup hhub) rfl,
    fun post hup hhub => next_of_pos (and_holds hup hhub) rfl, fun post hup hhub hpost => ?notice,
    fun inRange hup hspoke hne => ?lineChanges, fun inRange heq => ?lineSame⟩
  case edgeMaster =>
    exact next_of_neg_pos (by simp [hup, hspoke, Nat.not_lt.mpr hwide]) hmaster rfl
  case edgeNode =>
    refine next_of_neg (by simp [hup, hspoke, Nat.not_lt.mpr hwide]) ((if_neg (fails_of_false hslave)).trans ?_)
    rw [if_pos hcurrent]
  case glitch => exact next_of_pos (by simp [hnarrow]) rfl
  case resyncFar =>
    exact next_of_neg (by simp [hup, hmaster, hfree, hgood]) (if_neg (Nat.not_le.mpr hfar))
  case resyncNear =>
    subst hx
    exact next_of_neg_pos (by simp [hup, hmaster, hfree, hgood]) hnear rfl
  case beacon =>
    subst hy hx
    exact next_of_neg (by simp [hup, hmaster, hline]) rfl
  case silenced =>
    subst hb
    exact next_of_neg (by simp [hup, hspoke, hline, hsealed]) ((if_pos hmaster).trans (if_pos (by simp [hnet, hnewer])))
  case foreignNet =>
    subst hb
    exact next_of_neg (by simp [hup, hspoke, hline, hsealed]) <| (if_pos hmaster).trans <|
      (if_neg (by simp [hnet])).trans (if_pos (by simp [hnet]))
  case firstBeacon =>
    subst hb
    refine next_of_neg (by simp [hup, hspoke, hline, hsealed]) <| (if_neg (fails_of_false hslave)).trans <|
      (if_neg ?_).trans (if_pos hnewer)
    simp only [hnone]
    exact Bool.false_ne_true
  case nextBeacon =>
    subst hb
    refine next_of_neg (by simp [hup, hspoke, hline, hsealed]) <| (if_neg (fails_of_false hslave)).trans <|
      (if_neg ?_).trans (if_pos hnewer)
    simp [hsome, hsame]
  case foreignHub =>
    subst hb
    refine next_of_neg (by simp [hup, hspoke, hline, hsealed]) <| (if_neg (fails_of_false hslave)).trans (if_pos ?_)
    simpa [hsome] using hother
  case lost =>
    refine next_of_pos (by simp [hup, hspoke, hslave, hcurrent]) ?_
    simp only [hsome]
  case slotHub =>
    subst hx
    exact slotTransmit_sent hup hspoke hjoined ((if_pos hhub).trans (by rw [slotText_hub hhub]))
  case slotPost =>
    subst hx
    exact slotTransmit_sent hup hspoke hjoined ((if_neg (fails_of_false hpost)).trans (by rw [slotText_post hpost]))
  case takenHub => exact slotReceived_taken hup hspoke hline hsealed hnet hfresh (by simp [hkind]) htext
  case takenPost => exact slotReceived_taken hup hspoke hline hsealed hnet hfresh (by simp [hkind]) htext
  case staleSlot =>
    exact next_of_neg_pos (by simp [hup, hspoke, hline, hsealed, hnet]) (by simp [hstale]) rfl
  case notice => exact next_of_pos hup (if_pos (and_holds hhub (decide_eq_true hpost)))
  case lineChanges => exact next_eq (if_pos (by simp [hup, hspoke, hne]))
  case lineSame => exact next_eq ((if_neg (by simp [heq])).trans (vline_same heq))

end Sys2Proof.Machine

/-! ### Spoke-line steps of data, tone maps, joining, windows and bridging -/

namespace Sys2Proof.Machine

section
variable {s : State}

/-- A part that has something to send in a contention slot with room for it takes part in the contention (R335, R336). -/
theorem contentionAccess_contends {m : Access} {l : SpkLink} {p : Nat} {x : State} (hup : up s = true)
    (hspoke : onSpoke s = true) (hline : s.env.vline = true) (hcurrent : beaconCurrent s = true)
    (hcontender : contender s = some (l, p)) (hroom : symbolsLeft s l m.time ≠ 0)
    (hx : x = if sendsPr0 p || (sendsPr1 p && !m.pr0) then sendPriority p s else s) :
    exec (.contentionAccess m) s = .next (if defers p m then x else
      if m.idle < backoffNow s l p then drawn { x with spk.backoff := some (backoffNow s l p - m.idle) }
      else sendFitting l p (symbolsLeft s l m.time - backoffNow s l p)
        (drawn { x with spk.backoff := some (backoffNow s l p - m.idle) })) := by
  subst hx
  refine next_of_neg (by simp [hup, hspoke, hline, hcurrent]) ?_
  simp only [hcontender]
  exact if_neg hroom

/-- A map that is due is chosen, kept and queued for the peer. -/
theorem settleMap_due {peer : Nat} {m : ToneMap} (hcurrent : beaconCurrent s = true) (hdue : mapDue (spkLink s peer) = true)
    (hm : m = chosenMap s (spkLink s peer)) :
    settleMap peer s = raiseIf (mapChanged (spkLink s peer).rx m.rate m.span) evSpkTonemap
      (queueFrame peer 1 macToneMap (u8 m.ident ++ u8 m.rate ++ u8 m.span ++ u8 m.backoff ++ m.carriers)
        (onSpkLink peer (fun l => { l with bad := 0, mapUs := 0, rx := some m }) (drawn (drawn s)))) := by
  subst hm
  exact if_neg (by simp [hcurrent, hdue])

/-- Without a current beacon no map is chosen. -/
theorem settleMap_unsynchronised {peer : Nat} (hcurrent : beaconCurrent s = false) : settleMap peer s = s :=
  if_pos (by simp [hcurrent])

/-- A frame of the island network that is not older than the last of its sender is taken (R351). -/
theorem islandFrame_taken {m : SlotMsg} (hup : up s = true) (hspoke : onSpoke s = true) (hsealed : slotSealed s m = true)
    (hnet : hdNet m.head = s.cfg.spoke.network)
    (hnew : ∀ q, (spkLink s (hdSrc m.head)).ethLast = some q → pairBelow q (m.period, hdIdx m.head) = true) :
    exec (.islandEth0Frame m) s = .next (takeIsland m.head (crypt s m.period 0 m.head m.text) (heardNode (hdSrc m.head) false
      (onSpkLink (hdSrc m.head) (fun l => { l with ethLast := some (m.period, hdIdx m.head) }) s))) := by
  refine next_of_neg ?_ rfl
  cases hlast : (spkLink s (hdSrc m.head)).ethLast with
  | none => simp [hup, hspoke, hsealed, hnet]
  | some q => simp [hup, hspoke, hsealed, hnet, hnew q hlast]

end

/-- Settles O53: each step by what the part has heard, queued or sent. -/
theorem spokeDataStepsRun : Obligations.SpokeDataStepsRun := by
  intro s
  refine ⟨fun m hup hspoke hline hcurrent hnone => ?idle,
    fun m l p x hup hspoke hline hcurrent hcontender hroom hx hdefers => ?defers,
    fun m l p x hup hspoke hline hcurrent hcontender hroom hx hdefers hearly => ?waits,
    fun m l p x hup hspoke hline hcurrent hcontender hroom hx hdefers hturn => ?sends,
    fun burst words good x hup hspoke hline hdst hone hwords hgood hx => ?burst,
    fun burst words hup hspoke hline hall hwords => ?broadcast, fun ack hup hspoke hsealed hsent hsame => ?acknowledged,
    fun peer hup hspoke hsent => ?unacknowledged,
    fun peer m hup hspoke hcurrent hdue hm => next_of_pos (and_holds hup hspoke) (settleMap_due hcurrent hdue hm),
    fun peer hup hspoke hcurrent => next_of_pos (and_holds hup hspoke) (settleMap_unsynchronised hcurrent),
    fun peer ident rate span backoff carriers hup hspoke => next_of_pos (and_holds hup hspoke) rfl,
    fun requests hup hhub => next_of_pos (and_holds hup hhub) rfl,
    fun hub decisions hup hmaster => next_of_pos (and_holds hup hmaster) rfl,
    fun hup hspoke => next_of_pos (and_holds hup hspoke) rfl,
    fun hup hrole hcurrent => next_of_pos (by simp [hup, hrole, hcurrent]) rfl,
    fun m hup hspoke hsealed hnet hfirst => islandFrame_taken hup hspoke hsealed hnet (by simp [hfirst]),
    fun m q hup hspoke hsealed hnet hlast hnew => islandFrame_taken hup hspoke hsealed hnet (by simp [hlast, hnew]),
    fun m q hup hspoke hsealed hnet hlast hold => ?oldIsland,
    fun vid etherType data hup hspoke hvid hbridge hfirst hsecond => ?outward,
    fun vid etherType data hup hspoke hvid hbridge hfirst hsecond => ?inward⟩
  case idle =>
    refine next_of_neg (by simp [hup, hspoke, hline, hcurrent]) ?_
    simp only [hnone]
  case defers =>
    exact (contentionAccess_contends hup hspoke hline hcurrent hcontender hroom hx).trans (next_of_pos hdefers rfl)
  case waits =>
    exact (contentionAccess_contends hup hspoke hline hcurrent hcontender hroom hx).trans
      (next_of_neg_pos (fails_of_false hdefers) hearly rfl)
  case sends =>
    exact (contentionAccess_contends hup hspoke hline hcurrent hcontender hroom hx).trans
      (next_of_neg (fails_of_false hdefers) (if_neg (Nat.not_lt.mpr hturn)))
  case burst =>
    subst hx hgood hwords
    exact next_of_neg (by simp [hup, hspoke, hline, hdst]) (if_neg (by simpa using hone))
  case broadcast =>
    subst hwords
    exact next_of_neg (by simp [hup, hspoke, hline, hall]) (if_pos (by simpa using hall))
  case acknowledged =>
    refine next_of_neg ?_ rfl
    simpa [hup, hspoke, hsealed, hsent] using hsame
  case unacknowledged => exact next_of_neg (by simp [hup, hspoke, hsent]) rfl
  case oldIsland => exact next_of_pos (by simp [hlast, hold]) rfl
  case outward =>
    subst hvid
    exact next_of_neg_pos (by simp [hup, hspoke, hbridge, hfirst, hsecond]) rfl rfl
  case inward =>
    subst hvid
    exact next_of_neg (by simp [hup, hspoke, hbridge, hfirst, hsecond]) (if_neg Bool.false_ne_true)

end Sys2Proof.Machine

/-! ### The steps of the safety functions, of safe transport and of safety configuration -/

namespace Sys2Proof.Machine

section
variable {s : State}

/-- A dark test that is due notes its turn, and faults the pair where the level does not follow (R386, R387). -/
theorem darkTest_due {pair vHigh vLow vsout : Nat} (hup : up s = true) (hdue : darkDue s pair = true) :
    exec (.darkTest pair vHigh vLow vsout) s = .next (
      let t := { s with
        saf.darkTick := some s.saf.tick
        saf.pairs := upd s.saf.pairs pair fun p => { p with
          lowSide := !p.lowSide, tested := s.nv.opSeconds, darkTick := some s.saf.tick } }
      if (if (pairOf s pair).lowSide then vsout ≤ vLow + 50 else vHigh ≤ 50) then t else pairFault pair 2 t) :=
  next_of_neg (by simp [hup, hdue]) rfl

/-- The level of the low side is judged against the supply of the outputs. -/
theorem darkLevel_low {p : Pair} {vHigh vLow vsout : Nat} (hside : p.lowSide = true) :
    (if p.lowSide then vsout ≤ vLow + 50 else vHigh ≤ 50) ↔ vsout ≤ vLow + 50 := by simp [hside]

/-- The level of the high side is judged against ground. -/
theorem darkLevel_high {p : Pair} {vHigh vLow vsout : Nat} (hside : p.lowSide = false) :
    (if p.lowSide then vsout ≤ vLow + 50 else vHigh ≤ 50) ↔ vHigh ≤ 50 := by simp [hside]

/-- A part that is up is in neither hold. -/
theorem not_held_of_up (hup : up s = true) : (s.sys.phase == .held) = false ∧ (s.sys.phase == .heatHold) = false := by
  rw [phase_of_up hup]
  decide

end

/-- Settles O54: each step under the condition that its row names, the dark test by side and level. -/
theorem safetyStepsRun : Obligations.SafetyStepsRun := by
  intro s
  refine ⟨fun _ _ _ _ _ hup => next_of_pos hup rfl, fun core x hup hcore hx hsame hfew => ?edgeMissed,
    fun core x hup hcore hx hbad => ?edgeFails, fun hup => next_of_pos hup rfl,
    fun tp samples hup htp => next_of_pos (and_holds hup htp) rfl, fun input hup => next_of_pos hup rfl,
    fun input hup => next_of_pos hup rfl, fun i hup hruns => next_of_pos (and_holds hup hruns) rfl,
    fun i hup hruns hmute => next_of_pos (and_holds (and_holds hup hruns) hmute) rfl,
    fun i hup hruns hlate => next_of_pos (and_holds (and_holds hup hruns) hlate) rfl,
    fun i hup hruns hdue => next_of_pos (and_holds (and_holds hup hruns) hdue) rfl,
    fun pair hup hon hdue => next_of_pos (and_holds (and_holds hup hon) hdue) rfl,
    fun pair vHigh vLow vsout hup hdue hside hlevel => ?lowPass, fun pair vHigh vLow vsout hup hdue hside hlevel => ?lowFail,
    fun pair vHigh vLow vsout hup hdue hside hlevel => ?highPass, fun pair vHigh vLow vsout hup hdue hside hlevel => ?highFail,
    fun pair hup hon => next_of_pos (and_holds hup hon) rfl, fun hup hin => ?rangeLost, fun hup hout => ?rangeBack,
    fun hup => next_of_pos hup rfl⟩
  case edgeMissed =>
    subst hx
    refine next_of_neg (by simp [hup, hcore]) (congrArg (feedLoads [1 - core]) (if_neg ?_))
    rw [hsame, Bool.false_or, decide_eq_true_eq]
    exact Nat.not_le.mpr hfew
  case edgeFails =>
    subst hx
    refine next_of_neg (by simp [hup, hcore]) (congrArg (feedLoads [1 - core]) (if_pos ?_))
    rwa [Bool.or_eq_true, decide_eq_true_eq]
  case lowPass => exact (darkTest_due hup hdue).trans (next_of_pos ((darkLevel_low hside).mpr hlevel) rfl)
  case lowFail =>
    exact (darkTest_due hup hdue).trans (next_of_neg (fun h => Nat.not_le.mpr hlevel ((darkLevel_low hside).mp h)) rfl)
  case highPass => exact (darkTest_due hup hdue).trans (next_of_pos ((darkLevel_high hside).mpr hlevel) rfl)
  case highFail =>
    exact (darkTest_due hup hdue).trans (next_of_neg (fun h => Nat.not_le.mpr hlevel ((darkLevel_high hside).mp h)) rfl)
  case rangeLost =>
    obtain ⟨hheld, hhot⟩ := not_held_of_up hup
    exact next_of_neg (by simp [hin, hheld, hhot]) rfl
  case rangeBack =>
    obtain ⟨hheld, hhot⟩ := not_held_of_up hup
    exact next_of_neg (by simp [hout, hheld, hhot]) rfl

end Sys2Proof.Machine

/-! ### The steps of safe transport and of safety configuration -/

namespace Sys2Proof.Machine

/-- An edit session that no request has touched for ten minutes ends (R408). -/
theorem settleEdit_due {s : State} {e : Edit} (hedit : s.saf.edit = some e) (hdue : e.since + 600 ≤ s.nv.opSeconds) :
    settleEdit s = raise evSafCfgEdit { s with saf.edit := none } := by
  simp only [settleEdit, hedit, if_pos hdue, endEdit, Option.isSome_some, ↓reduceIte]

/-- A lockout of the passwords ends at its second (R407). -/
theorem settleLockout_due {s : State} {t : Nat} (hlock : s.nvSaf.lockUntil = some t) (hdue : t ≤ s.nv.opSeconds) :
    settleLockout s = raise evSafCfgLockout { s with nvSaf.lockUntil := none, nvSaf.fails := 0 } := by
  simp only [settleLockout, hlock, if_pos hdue]

/-- Settles O55: a copy by the path it came on, the timers of a connection, the edit session and the lockout. -/
theorem safeTransportStepsRun : Obligations.SafeTransportStepsRun := by
  intro s
  refine ⟨fun frame tag hup => next_of_pos hup rfl, fun path frame tag hup hpath => ?network,
    fun conn hon => next_of_pos hon rfl, fun conn hon hwatch => next_of_pos (and_holds hon hwatch) rfl,
    fun conn hon => next_of_pos hon rfl, fun conn hon => next_of_pos hon rfl,
    fun e hedit hdue => next_eq (settleEdit_due hedit hdue), fun t hlock hdue => next_eq (settleLockout_due hlock hdue)⟩
  case network =>
    refine next_of_pos hup ?_
    rw [beq_false_of_ne hpath, Bool.false_or]

/-! ### The load-switch steps -/

/-- The load watchdog is tested where it has tripped and been fed for 1 s: it is clear or tripped by the times read (R431). -/
theorem loadWatchdogTest_tried {s : State} {openUs closeUs : Nat} (hup : up s = true) (htripped : s.ldc.tripped = true)
    (hfed : 4000 ≤ s.ldc.fed) {ok : Bool}
    (hok : (decide (4000 ≤ openUs) && decide (openUs < 4500) && decide (closeUs ≤ 250)) = ok) :
    exec (.loadWatchdogTest openUs closeUs) s = .next (raise evLdcWatchdog
      (record 0x2A01 srcSafety (u8 (if ok then 1 else 2) ++ u8 0) { s with ldc.tripped := !ok })) := by
  subst hok
  exact next_of_neg (by simp [hup, htripped, hfed]) rfl

/-- Settles O56: each step under the condition that its row names, the watchdog test by its times. -/
theorem loadStepsRun : Obligations.LoadStepsRun := by
  intro s
  refine ⟨fun vload readings x hup hx => ?diagnose, fun channel hup hon => next_of_pos (and_holds hup hon) rfl,
    fun channel hup hused hstate => ?hot, fun channel hup => next_of_pos hup rfl, fun channel hup => next_of_pos hup rfl,
    fun channel hup => next_of_pos hup rfl, fun channel hup => next_of_pos hup rfl, fun core hup => next_of_pos hup rfl,
    fun openUs closeUs hup htripped hfed hlow hhigh hclose => loadWatchdogTest_tried hup htripped hfed (ok := true) ?pass,
    fun openUs closeUs hup htripped hfed hbad => loadWatchdogTest_tried hup htripped hfed (ok := false) ?fail,
    fun hup hout => ?supplyBack, fun hup hin => ?supplyLost⟩
  case diagnose =>
    change execLdcDiagnosticEval vload readings s = _
    simp only [execLdcDiagnosticEval, if_neg (not_fails hup), hx]
  case hot => exact next_of_pos (by simpa [hup, hused] using hstate) rfl
  case pass => simp [hlow, hhigh, hclose]
  case fail =>
    simp only [Bool.and_eq_false_iff, decide_eq_false_iff_not]
    omega
  case supplyBack => exact next_of_neg (by simp [hup, hout]) (if_pos rfl)
  case supplyLost => exact next_of_neg (by simp [hup, hin]) (if_neg Bool.false_ne_true)

/-! ### The buffer-stack steps -/

/-- A read-all that returns at the part that reads the stack (R450, R451). -/
theorem readAllReturn_own {s : State} {chain : Nat} {atB fromB : Bool} {frame : Bytes} (hup : up s = true)
    (hown : shadowing s = false) (howns : ownsStack s = true) (hframe : readAllOwn s chain frame = true)
    (hreading : (Machine.chain s chain).reading = some fromB) :
    exec (.readAllReturn chain atB frame) s = .next (
      if fromB then endReread chain ((frameSlots frame).foldl (takeSlot chain) s)
      else if atB then
        finishSweep chain (noteBlanks chain (frameSlots frame) (wholeAgain chain ((frameSlots frame).foldl (takeSlot chain) s)))
      else goPartial chain ((frameSlots frame).foldl (takeSlot chain) s)) := by
  refine next_of_neg (by simp [hown]) ((if_neg (by simp [hup, howns, hframe])).trans ?_)
  simp only [hreading]

/-- Settles O57: each step under the condition that its row names. -/
theorem stackStepsRun : Obligations.StackStepsRun := by
  intro s
  refine ⟨fun hup howns hidle => ?sweep,
    fun chain frame hup hown howns hframe hreading => ?whole, fun chain frame hup hown howns hframe hreading => ?part,
    fun chain atB frame hup hown howns hframe hreading => ?reread,
    fun chain atB frame hup hshadow => next_of_pos (and_holds hup hshadow) rfl,
    fun chain hup howns hreading => ?timeoutA, fun chain hup howns hreading => ?timeoutB,
    fun chain counter companions hup howns hlen hdue => ?turned,
    fun chain counter companions hup howns hlen hdue hcount => ?counted,
    fun chain counter companions hup howns hlen hdue hcount => ?miscounted,
    fun chain hup howns hlen hdue htries => ?retry, fun chain hup howns hlen hstate => ?again,
    fun hup howns => next_of_pos (and_holds hup howns) rfl,
    fun chain hup hpermit hloop => next_of_pos (by simp [hup, hpermit, hloop]) rfl,
    fun chain hup hpermit => next_of_pos (by simp [hup, hpermit]) rfl⟩
  case sweep =>
    change execStackSweep s = _
    rw [execStackSweep, hup, howns, hidle]
    rfl
  case whole =>
    exact (readAllReturn_own hup hown howns hframe hreading).trans (next_of_neg_pos Bool.false_ne_true rfl rfl)
  case part =>
    exact (readAllReturn_own hup hown howns hframe hreading).trans (next_of_neg Bool.false_ne_true (if_neg Bool.false_ne_true))
  case reread => exact (readAllReturn_own hup hown howns hframe hreading).trans (next_of_pos rfl rfl)
  case timeoutA =>
    refine next_of_neg (by simp [hup, howns]) ?_
    simp only [hreading]
  case timeoutB =>
    refine next_of_neg (by simp [hup, howns]) ?_
    simp only [hreading]
  case turned => exact next_of_neg_pos (by simp [hup, howns, hlen, hdue]) rfl rfl
  case counted =>
    exact next_of_neg (by simp [hup, howns, hlen, hdue]) ((if_neg Bool.false_ne_true).trans (if_pos hcount))
  case miscounted =>
    exact next_of_neg (by simp [hup, howns, hlen, hdue]) ((if_neg Bool.false_ne_true).trans (if_neg hcount))
  case retry => exact next_of_neg_pos (by simp [hup, howns, hlen]) (by simp [hdue, htries]) rfl
  case again => exact next_of_neg_pos (by simp [hup, howns, hlen]) (by simp [hstate]) rfl

/-! ### The recorder steps -/

/-- Settles O58: the copy to NOR, the end of a window that has run, and the clear. -/
theorem recorderStepsRun : Obligations.RecorderStepsRun := by
  intro s
  exact ⟨fun _ => rfl, fun code hended => next_of_pos hended rfl, fun hup => next_of_pos hup rfl⟩

/-! ### The steps of the tandem pair and the peloton -/

section
variable {s : State}

/-- The end of a claim's guard with the partner's line high on either reading (R501). -/
theorem guard_high {partnerHigh : Bool} (h : partnerHigh = true ∨ s.tdm.authI = true) :
    ¬ (!(partnerHigh || s.tdm.authI)) = true := not_fails (by simpa using h)

/-- The loss of the partner's authority at a part that has not claimed it (R501). -/
theorem partnerAuthLost_unclaimed {heartbeat : Bool} {x : State} (hpaired : paired s = true) (hunclaimed : s.tdm.authO = false)
    (hx : x = raiseIf (s.tdm.heartbeat && !heartbeat) evTdmPartnerLost
      { s with tdm.authI := false, tdm.heartbeat := heartbeat }) :
    exec (.partnerAuthLost heartbeat) s = .next (
      if s.tdm.state == .standby && heartbeat then fence 2 x
      else if s.tdm.state == .standby && mayClaim x then claim x
      else x) := by
  subst hx
  exact next_of_neg (not_fails hpaired) (if_neg (fails_of_false hunclaimed))

end

/-- Settles O59: each step by the state of the pair or the place in the peloton. -/
theorem pairStepsRun : Obligations.PairStepsRun := by
  intro s
  refine ⟨fun hpaired hbeat => next_of_pos (and_holds hpaired hbeat) rfl, fun hmay => next_of_pos hmay rfl,
    fun hguard hlow => ?gains, fun partnerHigh hguard hhigh hrole => ?fences, fun partnerHigh hguard hhigh hrole => ?waits,
    fun hmay hlive hstate => next_of_pos (by simp [hmay, hlive, hstate]) rfl,
    fun hpaired hholds => next_of_pos (and_holds hpaired hholds) rfl, fun x hpaired hunclaimed hstate hx => ?lostAlive,
    fun x hpaired hunclaimed hstate hx hmay => ?lostSilent, fun beat x hpaired hclaimed hguard hholds hx => ?lostClaimed,
    fun hpaired => next_of_pos hpaired rfl, fun hpaired hstate => next_of_neg (by simp [hpaired, hstate]) rfl,
    fun frame hup hshadows hgood => next_of_neg_pos (by simp [hup, hshadows]) hgood rfl,
    fun frame hup hshadows hbad hcrc => ?badCrc, fun frame hup hshadows hbad hcrc => ?mismatch,
    fun hup hpaired hstate => next_of_neg_pos (by simp [hup, hpaired]) (by simp [hstate]) rfl,
    fun hup hpaired hstate => ?missingActive,
    fun rules groups loops authGen period hup hshadows => next_of_neg (by simp [hup, hshadows]) rfl,
    fun hup hpaired hstate => next_of_neg_pos (by simp [hup, hpaired]) (by simp [hstate]) rfl,
    fun hup hpaired hstate => next_of_neg (by simp [hup, hpaired]) (if_neg (by simp [hstate])),
    fun hpaired hholds hsent => next_of_pos (and_holds (and_holds hpaired hholds) hsent) rfl,
    fun slot frame hup hrole hslot hother hgood =>
      next_of_neg_pos (by simp [hup, hrole, hother, Nat.not_le.mpr hslot]) hgood rfl,
    fun slot frame hup hrole hslot hother hbad => ?badMember,
    fun member hup hrole hother hstate => next_of_pos (by simp [hup, hrole, hother, hstate]) rfl,
    fun hup hrole hstrap hsync => next_of_pos (by simp [hup, hrole, hstrap, hsync]) rfl⟩
  case gains => exact next_of_neg_pos (not_fails hguard) (by simp [hlow]) rfl
  case fences => exact next_of_neg (not_fails hguard) ((if_neg (guard_high hhigh)).trans (if_pos hrole))
  case waits => exact next_of_neg (not_fails hguard) ((if_neg (guard_high hhigh)).trans (if_neg hrole))
  case lostAlive =>
    have hraised : x = raiseIf (s.tdm.heartbeat && !true) evTdmPartnerLost
        { s with tdm.authI := false, tdm.heartbeat := true } := by
      rw [hx, Bool.not_true, Bool.and_false]
      rfl
    exact (partnerAuthLost_unclaimed hpaired hunclaimed hraised).trans (next_of_pos (by simp [hstate]) rfl)
  case lostSilent =>
    have hraised : x = raiseIf (s.tdm.heartbeat && !false) evTdmPartnerLost
        { s with tdm.authI := false, tdm.heartbeat := false } := by
      rw [hx, Bool.not_false, Bool.and_true]
    exact (partnerAuthLost_unclaimed hpaired hunclaimed hraised).trans
      (next_of_neg_pos (by simp) (by simp [hstate, hmay]) rfl)
  case lostClaimed =>
    subst hx
    exact next_of_neg (not_fails hpaired) ((if_pos hclaimed).trans (if_neg (by simp [hguard, hholds])))
  case badCrc =>
    exact next_of_neg (by simp [hup, hshadows]) ((if_neg (fails_of_false hbad)).trans (if_neg (fails_of_false hcrc)))
  case mismatch => exact next_of_neg (by simp [hup, hshadows]) ((if_neg (fails_of_false hbad)).trans (if_pos hcrc))
  case missingActive =>
    exact next_of_neg (by simp [hup, hpaired]) ((if_neg (by simp [hstate])).trans (if_pos (by simp [hstate])))
  case badMember =>
    exact next_of_neg (by simp [hup, hrole, hother, Nat.not_le.mpr hslot]) (if_neg (fails_of_false hbad))

end Sys2Proof.Machine
